-- ==== Sys2Proof/Word.lean ====
section
/-! DEFINITION. The words of the device (R3, R6, R16): a 64-bit value, a byte, and plain bit-field reading of a
natural number (R6: NAME[msb:lsb]). -/

namespace Sys2Proof

/-- A 64-bit value, the width of a token value, a phase word and a scratch word (R3, R16). -/
abbrev Word := BitVec 64

/-- A byte of memory. -/
abbrev Byte := BitVec 8

/-- The field of `w` bits of `n` that begins at bit `lo` (R6). -/
def bits (n lo w : Nat) : Nat := n / 2 ^ lo % 2 ^ w

/-- `n` with the field of `w` bits at bit `lo` replaced by `v` (R6). -/
def setBits (n lo w v : Nat) : Nat := n - bits n lo w * 2 ^ lo + v % 2 ^ w * 2 ^ lo

/-- The value of a field of `w` bits read as a two's-complement integer. -/
def signed (w n : Nat) : Int := if n % 2 ^ w < 2 ^ (w - 1) then (n % 2 ^ w : Nat) else (n % 2 ^ w : Nat) - 2 ^ w

/-- An integer taken modulo 2^`w`, as a field of `w` bits holds it. -/
def wrap (w : Nat) (i : Int) : Nat := (i % (2 ^ w : Nat)).toNat

/-- 1 for true, 0 for false, as a bit of a register holds it. -/
def bit (b : Bool) : Nat := if b then 1 else 0

end Sys2Proof
end

