-- ==== Sys2Proof/Syntax.lean ====
section
/-! DEFINITION. The commands of the block: one constructor per row of the table of operations and events, with the
operands each row needs: the object it acts on, data that enters from outside, and what error checking found in the
units it reads. -/

namespace Sys2Proof

/-- What the SSC-DSD code finds in a unit that is read (R115, R124, R226, R269). -/
inductive Ecc where
  | ok | corrected | uncorrectable
  deriving DecidableEq, Repr

/-- Cluster, physical PE, and what a firing reads as: the instruction word, the extension words of a FORK in order (those not
listed read without an error), and the two halves of a ready entry (R115, R124). -/
structure Fire where
  cl : Nat
  pe : Nat
  word : Ecc
  ext : List Ecc
  half0 : Ecc
  half1 : Ecc
  deriving DecidableEq, Repr

/-- What the units read for one token read as: the instruction word, the halves of the entry of its key, those of its
constant or counter, and those of the victim that its insertion evicts (R115, R122 to R124). -/
structure Reads where
  word : Ecc
  half0 : Ecc
  half1 : Ecc
  const0 : Ecc
  const1 : Ecc
  victim0 : Ecc
  victim1 : Ecc
  deriving DecidableEq, Repr

/-- A PE of a cluster, and what the units read for a token there read as. -/
structure PeReads where
  pe : Nat
  reads : Reads
  deriving DecidableEq, Repr

/-- A PE of a cluster, and the bits in which the two copies of the sideband differ with the unit that it sends (R227). -/
structure PeSend where
  pe : Nat
  flip : Nat
  deriving DecidableEq, Repr

/-- Every unit reads without an error. -/
def Reads.ok : Reads := ⟨.ok, .ok, .ok, .ok, .ok, .ok, .ok⟩

/-- Delivery of the packet at index `idx` among the packets in flight: what its header and data units read as, what
the memory word read for it and its presence state read as, the choice among free slots where the manual leaves
one, whether the station where the packet stands now finds its header's error (otherwise its destination does), and which
of the words that the request names `mem` and `pres` speak of. For an answer to a supervisor thread, `mem` is what the write of
an exception's frame meets. -/
structure Deliver where
  idx : Nat
  hdr : Ecc
  data : Ecc
  mem : Ecc
  pres : Ecc
  pick : Nat
  here : Bool
  word : Nat
  deriving DecidableEq, Repr

/-- A read of a PE's input queue: what the token and the units read for it read as (R115, R124). -/
structure ReadOp where
  cl : Nat
  pe : Nat
  tok : Ecc
  reads : Reads
  deriving DecidableEq, Repr

/-- An access of a spill agent: cluster, logical PE, which chain for SPREAD (0 ready, 1 held, 2 draining window), the status
that answers a write (OK, UNCORR or LOST, R225), and the number of records walked before one that fails (none: none fails): by
CRC, or by an error answer. -/
structure SpillOp where
  cl : Nat
  lpe : Nat
  which : Nat
  status : Nat
  crcAt : Option Nat
  errAt : Option Nat
  deriving DecidableEq, Repr

/-- An outstanding request: of a firing (cluster × 17 + physical PE), or of another agent at a station. -/
structure ReqName where
  pe : Option Nat
  station : Nat
  txn : Nat
  deriving DecidableEq, Repr

/-- A row test of the sweep (R271, R272): columns found failing, whether an access interrupted it, and whether a
side-buffer unit at restore is uncorrectable. -/
structure SweepRow where
  failing : List Nat
  interrupted : Bool
  badUnit : Option Nat
  deriving DecidableEq, Repr

/-- A received codeword (R244): its message of 5,140 bits, whether it decodes, and whether it was corrected. -/
structure Codeword where
  msg : Nat
  good : Bool
  corrected : Bool
  deriving DecidableEq, Repr

/-- A supervisor instruction at a thread (core × 2 + thread): what its fetch reads as, whether a frame that is written for it
meets an uncorrectable error, what the words that it reads in memory other than a load's read as, and whether the word at pc
is a reserved encoding in place of this instruction. The manual gives the instructions' effects but not their encodings
(R283), so the operation comes as an operand. -/
structure Sup where
  t : Nat
  fetch : Ecc
  frameBad : Bool
  data : Ecc
  reserved : Bool
  deriving DecidableEq, Repr

/-- The integer instructions of R309. -/
inductive AluOp where
  | add | sub | opAnd | opOr | opXor | shl | shr | sar
  | cmpEq | cmpNe | cmpLt | cmpLtu | cmpLe | cmpLeu
  | opMin | opMax | minu | maxu | clz | popc
  /-- Bit-field extract and insert: lowest bit and width. -/
  | extract (lo w : Nat) | extractS (lo w : Nat) | insert (lo w : Nat)
  deriving DecidableEq, Repr

/-- The multiply instructions of R309. -/
inductive MulOp where
  | mul | mulh | mulhu
  deriving DecidableEq, Repr

/-- The divide instructions of R309. -/
inductive DivOp where
  | div | divu | rem | remu
  deriving DecidableEq, Repr

/-- The atomic instructions of R309. -/
inductive AtomOp where
  | swap | cas | fadd
  deriving DecidableEq, Repr

/-- The presence instructions of R309. -/
inductive PresOp where
  | ird | iwr | iclr | mtk | mpt
  deriving DecidableEq, Repr

/-- The branches of R309. -/
inductive BrOp where
  | beq | bne | blt | bge | bltu | bgeu | j | jr | jal | jalr
  deriving DecidableEq, Repr

/-- A submission entry as it returns from host memory (R326). -/
structure SqEntry where
  opc : Nat
  flags : Nat
  cid : Nat
  /-- Bytes 4 to 7, and 20 to 23 above them. -/
  rsvd : Nat
  dptr : Nat
  dlen : Nat
  p : List Nat
  deriving DecidableEq, Repr

/-- The start of the next command of a session: the bytes its data buffer holds, whether a host memory error hits
the buffer, and the choice among free numbers where the manual leaves one. -/
structure Run where
  sess : Nat
  data : List Nat
  bad : Bool
  pick : Nat
  deriving DecidableEq, Repr

/-- An NVMe completion found by polling (R355): namespace, command, status code type and code, and the data of a
Read. -/
structure NvDone where
  ns : Nat
  cid : Nat
  sct : Nat
  sc : Nat
  data : List Nat
  deriving DecidableEq, Repr

/-- A patrol read (R401): instruction word and matching entry. -/
structure Patrol where
  cl : Nat
  pe : Nat
  ia : Nat
  word : Ecc
  entry : Nat
  half0 : Ecc
  half1 : Ecc
  deriving DecidableEq, Repr

/-- How a frame of the debug port arrives (R439): whether its CRC holds and its CMD is not a reserved one. -/
structure Frame where
  crcOk : Bool
  cmdOk : Bool
  deriving DecidableEq, Repr

/-- The access to host memory that received no completion (R315). -/
inductive HostAcc where
  | ring (sess : Nat) | buffer (sess : Nat) | spill (cl lpe : Nat) | nvme (ns : Nat)
  deriving DecidableEq, Repr

/-- The commands, one per row of the table of operations and events. -/
inductive Instr where
  /-- REG_WRITE (R10): A register write to a field with no row of its own takes effect according to its access code. -/
  | regWrite (init off val : Nat)
  /-- PH_SRC_PHLO_READ (R163): A read of PH_SRCnPHLO copies PHHI, the velocity and the STAT state fields of the source into holding copies. -/
  | phSrcPhloRead (n : Nat)
  /-- GEN_COMMIT (R32): Writing GEN_COMMIT commits the GEN shadows, locks GEN_DEVNUM and allows span link training. -/
  | genCommit
  /-- PH_COMMIT (R164): Writing PH_COMMIT checks the phase source shadows and applies them together or refuses them. -/
  | phCommit
  /-- CNV_COMMIT (R216): Writing CNV_COMMIT checks and applies the converter PLL, port, binding and capture ring shadows. -/
  | cnvCommit
  /-- DRV_COMMIT (R216): Writing DRV_COMMIT checks and applies the schedule and drive channel shadows. -/
  | drvCommit
  /-- CL_COMMIT (R130): Writing CLn_COMMIT checks and applies the spill window, far region and operating point shadows of a cluster. -/
  | clCommit (c : Nat)
  /-- HIF_COMMIT (R346): Writing HIF_COMMIT checks and applies the administrative session shadows and locks VFVEC. -/
  | hifCommit
  /-- LOG_COMMIT (R377): Writing LOG_COMMIT checks and applies the log stream shadows. -/
  | logCommit
  /-- SPN_COMMIT (R254): Writing SPN_COMMIT checks and applies the span route shadows. -/
  | spnCommit
  /-- QUIESCE_REQ (R33): Writing REQ of GEN_QUIESCE checks the preconditions and either refuses or starts a full quiesce by stopping injection. -/
  | quiesceReq
  /-- QUIESCE_DRAINED (R34): When every virtual network has drained during a quiesce, GEN_PROFILE is sampled and the profile change is started. -/
  | quiesceDrained
  /-- QUIESCE_COMPLETE (R34): When the clusters and governed fields have reached the new profile's values, BUSY clears and DONE is set. -/
  | quiesceComplete
  /-- QUIESCE_RESUME (R34): Writing RESUME while DONE = 1 ends the quiesce and reopens injection. -/
  | quiesceResume
  /-- TOKEN_READ (R122): The read stage takes the highest-priority token from a PE input queue and takes it fully through matching. -/
  | tokenRead (r : ReadOp)
  /-- OVERFLOW_RETRY (R129): The read stage retries the insertion of the token in the overflow hold when room appears or the spill configuration changes. -/
  | overflowRetry (cl : Nat) (x : PeReads)
  /-- OUTPUT_QUEUE_SEND (R119): The output queue removes up to two tokens in production order onto the cluster rings or the local bypass as credit allows. -/
  | outputQueueSend (cl : Nat) (x : PeSend)
  /-- ADD (R93): Integer add of L and R modulo 2^64. -/
  | add (f : Fire)
  /-- SUB (R93): Integer subtract. -/
  | sub (f : Fire)
  /-- MUL (R93): Low 64 bits of the integer product. -/
  | mul (f : Fire)
  /-- MULHS (R93): High 64 bits of the signed 128-bit product. -/
  | mulhs (f : Fire)
  /-- MULHU (R93): High 64 bits of the unsigned 128-bit product. -/
  | mulhu (f : Fire)
  /-- MADD (R93): Low 64 bits of L × R + T. -/
  | madd (f : Fire)
  /-- AND (R93): Bitwise and of two I64 or BOOL values. -/
  | opAnd (f : Fire)
  /-- OR (R93): Bitwise or of two I64 or BOOL values. -/
  | opOr (f : Fire)
  /-- XOR (R93): Bitwise exclusive or of two I64 or BOOL values. -/
  | opXor (f : Fire)
  /-- NOT (R93): Complement of an I64, or of bit 0 of a BOOL. -/
  | opNot (f : Fire)
  /-- SHL (R93): Shift left by R[5:0]. -/
  | shl (f : Fire)
  /-- SHR (R93): Logical shift right by R[5:0]. -/
  | shr (f : Fire)
  /-- SAR (R93): Arithmetic shift right by R[5:0]. -/
  | sar (f : Fire)
  /-- NEG (R93): Integer negation. -/
  | opNeg (f : Fire)
  /-- ABS (R93): Integer absolute value. -/
  | opAbs (f : Fire)
  /-- MIN (R93): Signed minimum. -/
  | opMin (f : Fire)
  /-- MAX (R93): Signed maximum. -/
  | opMax (f : Fire)
  /-- MINU (R93): Unsigned minimum. -/
  | minu (f : Fire)
  /-- MAXU (R93): Unsigned maximum. -/
  | maxu (f : Fire)
  /-- CLZ (R93): Count of leading zero bits. -/
  | clz (f : Fire)
  /-- POPC (R93): Count of one bits. -/
  | popc (f : Fire)
  /-- FADD (R95): Binary64 add. -/
  | fadd (f : Fire)
  /-- FSUB (R95): Binary64 subtract. -/
  | fsub (f : Fire)
  /-- FMUL (R95): Binary64 multiply. -/
  | fmul (f : Fire)
  /-- FDIV (R95): Binary64 divide. -/
  | fdiv (f : Fire)
  /-- FSQRT (R95): Binary64 square root. -/
  | fsqrt (f : Fire)
  /-- FMA (R95): Binary64 fused multiply-add. -/
  | fma (f : Fire)
  /-- FMIN (R95): Binary64 minimum with signed-zero ordering. -/
  | fmin (f : Fire)
  /-- FMAX (R95): Binary64 maximum with signed-zero ordering. -/
  | fmax (f : Fire)
  /-- FABS (R95): Clears the binary64 sign bit. -/
  | fabs (f : Fire)
  /-- FNEG (R95): Inverts the binary64 sign bit. -/
  | fneg (f : Fire)
  /-- PADD (R96): Paired binary32 add per lane. -/
  | padd (f : Fire)
  /-- PSUB (R96): Paired binary32 subtract per lane. -/
  | psub (f : Fire)
  /-- PMUL (R96): Paired binary32 multiply per lane. -/
  | pmul (f : Fire)
  /-- PFMA (R96): Paired binary32 fused multiply-add per lane. -/
  | pfma (f : Fire)
  /-- PDIV (R96): Paired binary32 divide per lane. -/
  | pdiv (f : Fire)
  /-- PSQRT (R96): Paired binary32 square root per lane. -/
  | psqrt (f : Fire)
  /-- PMIN (R96): Paired binary32 minimum per lane. -/
  | pmin (f : Fire)
  /-- PMAX (R96): Paired binary32 maximum per lane. -/
  | pmax (f : Fire)
  /-- PABS (R96): Clears both lane sign bits. -/
  | pabs (f : Fire)
  /-- PNEG (R96): Inverts both lane sign bits. -/
  | pneg (f : Fire)
  /-- PSUM (R96): Sums the two lanes into lane 0. -/
  | psum (f : Fire)
  /-- PSWAP (R96): Exchanges the two lanes. -/
  | pswap (f : Fire)
  /-- CADD (R97): Complex binary32 add. -/
  | cadd (f : Fire)
  /-- CSUB (R97): Complex binary32 subtract. -/
  | csub (f : Fire)
  /-- CMUL (R97): Complex binary32 multiply. -/
  | cmul (f : Fire)
  /-- CMULJ (R97): Complex multiply by the conjugate of R. -/
  | cmulj (f : Fire)
  /-- CMAC (R97): Complex multiply-accumulate by four fused multiply-adds. -/
  | cmac (f : Fire)
  /-- CMACJ (R97): Complex multiply-accumulate with the conjugate of R. -/
  | cmacj (f : Fire)
  /-- CCONJ (R97): Inverts the imaginary sign bit. -/
  | cconj (f : Fire)
  /-- CNEG (R97): Inverts both sign bits of a complex value. -/
  | cneg (f : Fire)
  /-- CABS2 (R97): Squared magnitude of a complex value into lane 0. -/
  | cabs2 (f : Fire)
  /-- CSCALE (R97): Scales both complex parts by R.lane0. -/
  | cscale (f : Fire)
  /-- CMPEQ (R98): True when all 64 bits are equal. -/
  | cmpeq (f : Fire)
  /-- CMPNE (R98): True when any bit differs. -/
  | cmpne (f : Fire)
  /-- CMPLT (R98): Signed less-than. -/
  | cmplt (f : Fire)
  /-- CMPLE (R98): Signed less-or-equal. -/
  | cmple (f : Fire)
  /-- CMPLTU (R98): Unsigned less-than. -/
  | cmpltu (f : Fire)
  /-- CMPLEU (R98): Unsigned less-or-equal. -/
  | cmpleu (f : Fire)
  /-- FCMPEQ (R98): IEEE binary64 equality. -/
  | fcmpeq (f : Fire)
  /-- FCMPLT (R98): IEEE binary64 less-than. -/
  | fcmplt (f : Fire)
  /-- FCMPLE (R98): IEEE binary64 less-or-equal. -/
  | fcmple (f : Fire)
  /-- FCMPUN (R98): True when either binary64 operand is NaN. -/
  | fcmpun (f : Fire)
  /-- PHCMPLT (R98): Phase less-than by signed modular difference. -/
  | phcmplt (f : Fire)
  /-- IDENT (R99): Sends L unchanged to every present destination. -/
  | ident (f : Fire)
  /-- FORK (R101): Sends L to DST1, DST2 and the destinations of k extension words. -/
  | fork (f : Fire)
  /-- SWITCH (R99): Sends L to DST1 or DST2 as R is true or false. -/
  | switch (f : Fire)
  /-- MERGE (R100): Sends each arriving L or R token on unchanged. -/
  | merge (f : Fire)
  /-- NDMERGE (R100): Sends each arriving token with ITER taken from a sequence counter that then advances. -/
  | ndmerge (f : Fire)
  /-- SELECT (R99): Sends L or R as T is true or false. -/
  | select (f : Fire)
  /-- SYNC (R99): Sends L once R has arrived. -/
  | sync (f : Fire)
  /-- SINK (R99): Consumes L and sends nothing. -/
  | sink (f : Fire)
  /-- CVTIF (R102): Converts signed I64 to F64. -/
  | cvtif (f : Fire)
  /-- CVTFI (R102): Converts F64 to I64 with truncation and saturation. -/
  | cvtfi (f : Fire)
  /-- CVTDS (R102): Converts F64 to binary32 in lane 0. -/
  | cvtds (f : Fire)
  /-- CVTSD (R102): Widens lane 0 to F64. -/
  | cvtsd (f : Fire)
  /-- CVTIS (R102): Converts signed I64 to binary32 in lane 0. -/
  | cvtis (f : Fire)
  /-- SMPF (R102): Converts the 24-bit sample to binary32 in lane 0. -/
  | smpf (f : Fire)
  /-- SMPSTAT (R102): Extracts the sample status bits. -/
  | smpstat (f : Fire)
  /-- SMPCH (R102): Extracts the sample channel. -/
  | smpch (f : Fire)
  /-- SMPSEQ (R102): Extracts the sample frame sequence. -/
  | smpseq (f : Fire)
  /-- PACK (R102): Packs lane 0 of L and R into one F32X2. -/
  | pack (f : Fire)
  /-- LANE1 (R102): Moves lane 1 into lane 0. -/
  | lane1 (f : Fire)
  /-- RETYPE (R103): Gives L's bits the type TYPEX and clears the capability flag. -/
  | retype (f : Fire)
  /-- TYPEOF (R102): Returns the type code of L. -/
  | typeof (f : Fire)
  /-- ISCAP (R102): Returns the capability flag of L. -/
  | iscap (f : Fire)
  /-- MKCONT (R58): Builds a TAG continuation from the firing and destination 3. -/
  | mkcont (f : Fire)
  /-- CTXNEW (R58): Requests creation of a context from a template with a continuation. -/
  | ctxnew (f : Fire)
  /-- GATECALL (R70): Creates a context through a context gate table entry. -/
  | gatecall (f : Fire)
  /-- SENDCTX (R58): Sends L to an argument slot of the context named by a CTXREF. -/
  | sendctx (f : Fire)
  /-- RETURN (R58): Sends L to RETTAG and, with END = 1, requests RETURNING of the context. -/
  | opReturn (f : Fire)
  /-- CHGPE (R58): Sends L to destination 1 with its PE field replaced. -/
  | chgpe (f : Fire)
  /-- SENDDEV (R58): Sends L to destination 1 with its DEV field replaced. -/
  | senddev (f : Fire)
  /-- ITERENTER (R61): Requests HEADn from the home slice and sends L at that iteration. -/
  | iterenter (f : Fire)
  /-- ITERRET (R62): Requests retirement of the firing's iteration of loop n at the home slice. -/
  | iterret (f : Fire)
  /-- SENDTAG (R105): Sends L to the destination named by a TAG value. -/
  | sendtag (f : Fire)
  /-- ITERGET (R104): Sends the firing's ITER as an I64. -/
  | iterget (f : Fire)
  /-- LOAD (R108): Sends a normal-view load request for one scratch word. -/
  | load (f : Fire)
  /-- STORE (R108): Sends a normal-view store request. -/
  | store (f : Fire)
  /-- BSET (R108): Sends a bit-set view request. -/
  | bset (f : Fire)
  /-- BCLR (R108): Sends a bit-clear view request. -/
  | bclr (f : Fire)
  /-- IREAD (R108): Sends an I-structure read request. -/
  | iread (f : Fire)
  /-- IWRITE (R108): Sends an I-structure write request. -/
  | iwrite (f : Fire)
  /-- ICLEAR (R108): Sends a presence clear request. -/
  | iclear (f : Fire)
  /-- MTAKE (R108): Sends an M-structure take request. -/
  | mtake (f : Fire)
  /-- MPUT (R108): Sends an M-structure put request. -/
  | mput (f : Fire)
  /-- CAPNARROW (R110): Makes a narrower capability from a capability operand. -/
  | capnarrow (f : Fire)
  /-- PHSTAMP (R111): Sends L and the current phase word of the context's source. -/
  | phstamp (f : Fire)
  /-- PHREL (R111): Reserves a gate entry and places L in the cluster's phase gate with a release phase. -/
  | phrel (f : Fire)
  /-- PHADD (R111): Adds signed pu to a phase word. -/
  | phadd (f : Fire)
  /-- PHSUB (R111): Phase difference in signed pu. -/
  | phsub (f : Fire)
  /-- PHTURNS (R111): Whole turns of a phase word. -/
  | phturns (f : Fire)
  /-- PHFRAC (R111): Fraction of a phase word. -/
  | phfrac (f : Fire)
  /-- PHTIME (R111): Converts a phase distance and velocity into seconds. -/
  | phtime (f : Fire)
  /-- DRVPUT (R112): Sends a drive value over TOK to a bound drive channel. -/
  | drvput (f : Fire)
  /-- CTX_LIVE (R50): When every PE has acknowledged the template constants, the context becomes LIVE and its CTXREF leaves. -/
  | ctxLive (ctx : Nat)
  /-- SLICE (R224): A context table slice request is served at the home slice. -/
  | slice (d : Deliver)
  /-- ITERRET_APPLY (R62): The slice applies one waiting ITERRET per loop per cycle, advances HEADn and releases admitted held tokens. -/
  | iterretApply (ctx loop : Nat)
  /-- RETURN_APPLY (R142): The home slice applies a RETURN with END = 1 and the context enters RETURNING and starts its orphan census. -/
  | returnApply (ctx : Nat)
  /-- NOTICE (R137): A release notice updates the loop window cache and releases admitted held tokens. -/
  | notice (d : Deliver)
  /-- DELTA_FLUSH (R134): A delta cache entry is flushed to the home slice on reaching ±16, on displacement or after 1,024 cycles. -/
  | deltaFlush (cl pe ctx : Nat)
  /-- CTX_QUIESCE_EFFECT (R76): A quiesce reaches the PEs and the converter complex and the context stops firing. -/
  | ctxQuiesceEffect (ctx : Nat)
  /-- STALL_WIN1_EXPIRE (R141): The first stall window expires and the cluster forces a spill and passes to forced. -/
  | stallWin1Expire (cl : Nat)
  /-- STALL_WIN2_EXPIRE (R141): The second stall window expires and STALL is raised against the waiting contexts. -/
  | stallWin2Expire (cl : Nat)
  /-- CENSUS_START (R142): The census start reaches a cluster station and its PEs stop firing the context and discard its arrivals. -/
  | censusStart (ctx cl : Nat)
  /-- CENSUS_SCAN_DONE (R142): A PE completes its scan removing the context's entries, and its cluster station injects a flush marker. -/
  | censusScanDone (ctx cl pe : Nat)
  /-- FLUSH (R142): A census flush marker returns after travelling every ring. -/
  | flush (d : Deliver)
  /-- CENSUS_SPILL_DONE (R142): The spill agent finishes walking directory entries and chains and frees the context's records. -/
  | censusSpillDone (ctx cl : Nat)
  /-- CENSUS_BANK_PURGE (R266): Each bank removes the context's deferred entries and empties words left without entries. -/
  | censusBankPurge (ctx bank : Nat)
  /-- CENSUS_GATE_PURGE (R170): Each phase gate purges the context's gated tokens and frees their reservations. -/
  | censusGatePurge (ctx cl : Nat)
  /-- CENSUS_END (R142): When every census step has completed the context becomes FREE and census results are written. -/
  | censusEnd (ctx : Nat)
  /-- CENSUSTO (R142): The census time limit expires before FREE and CENSUSTO is raised. -/
  | censusto (ctx : Nat)
  /-- SPILL_DRAIN_DONE (R131): The last record leaves a draining window and its DRAINING bit clears. -/
  | spillDrainDone (cl win : Nat)
  /-- PHASE_TICK (R154): At each 5 ns tick the phase engine computes and publishes phase word, velocity and status for every source. -/
  | phaseTick (bad corr : List Nat) (badGate : List (Nat × Nat))
  /-- COUNT_EVENT (R151): A filtered input level change on a phase triplet is counted and timestamped as a count event. -/
  | countEvent (tri : Nat) (a b : Bool) (te : Nat)
  /-- NOON_MARK (R157): A Z edge is used for homing, checking or correcting the count under NOONMODE. -/
  | noonMark (tri te : Nat)
  /-- MAINS_EDGE (R151): A zero-cross edge on a MAINS input is a count event and the noon mark of its turn. -/
  | mainsEdge (tri te : Nat)
  /-- EDGE_TIMEOUT (R158): No event within the edge timeout moves a LOCKED source to COASTING or to its alternative. -/
  | edgeTimeout (n : Nat)
  /-- HORIZON_EXPIRE (R158): The coasting horizon expires and the source becomes STALLED. -/
  | horizonExpire (n : Nat)
  /-- PHASE_EXPORT (R177): Every INT ticks an exported source sends a phase frame on each trained span link. -/
  | phaseExport
  /-- PHFRAME (R178): A received phase frame updates a SPAN source and is forwarded where exported and below 8 hops. -/
  | phframe (port f data : Nat)
  /-- NETTIME (R153): The host supplies network time to a NETTIME source, which steps or slews its phase. -/
  | nettime (r : Run)
  /-- CNV_PLL_LOCK (R182): The converter PLL locks after a commit setting PLLMUL and enabled ports start framing. -/
  | cnvPllLock
  /-- CNV_PLLUNLOCK (R182): A loss of converter PLL lock stops OCLK on every port and raises PLLUNLOCK. -/
  | cnvPllunlock
  /-- CMCLKLOSS (R218): A loss of the converter master clock raises CMCLKLOSS. -/
  | cmclkloss
  /-- OSTB (R190): An output frame strobe of a port is timestamped and its frame stamp computed. -/
  | ostb (port te : Nat)
  /-- INPUT_FRAME (R189): An input frame from a module is checked against its outstanding strobe and accepted or discarded. -/
  | inputFrame (port : Nat) (lane0 lane1 : List Nat)
  /-- FRAME_MISSING (R189): A frame not accepted by OSTB(s + 2) has its samples substituted. -/
  | frameMissing (port : Nat)
  /-- RINGRD (R196): The converter complex reads capture ring records for a reader and answers with TOTAL. -/
  | ringrd (d : Deliver)
  /-- CAP_ARM (R198): Writing ARM arms a capture ring and sets its rewind mark. -/
  | capArm (ring : Nat)
  /-- CAP_TRIG (R199): Writing TRIG gives a software trigger for the next record. -/
  | capTrig (ring : Nat)
  /-- CAP_STOP (R197): Writing STOP returns a triggered ring to WAIT. -/
  | capStop (ring : Nat)
  /-- DRVVAL (R201): A drive value arriving at the converter complex is checked and appended to its channel queue. -/
  | drvval (d : Deliver)
  /-- OUTPUT_FRAME_CLOSE (R206): At output frame close each channel takes its next value, repeat, ramp value or zero under its schedule and state. -/
  | outputFrameClose (port te : Nat)
  /-- ABORT_IN_PIN (R207): ABORT_IN_N low for the filtered time takes the PIN abort cause on all channels. -/
  | abortInPin
  /-- ABORT_IN_PIN_HIGH (R207): ABORT_IN_N returning high ends the PIN cause's activity. -/
  | abortInPinHigh
  /-- HEARTBEAT_WRITE (R215): A write to DRV_HEARTBEAT restarts the heartbeat timer. -/
  | heartbeatWrite
  /-- HEARTBEAT_EXPIRE (R207): No heartbeat write within HBTO takes the HB abort cause and raises HBLOSS. -/
  | heartbeatExpire
  /-- SUPPLY_MARGIN_LOST (R416): A supply below its threshold for FILT ns takes the SUPPLY abort cause and stops ledger admission. -/
  | supplyMarginLost
  /-- SUPPLY_MARGIN_RESTORED (R416): The supply returns within margin and the SUPPLY cause ceases to be active. -/
  | supplyMarginRestored
  /-- DRV_ON (R210): Writing ON for a group asserts its DRIVE_EN_N when the conditions hold, or sets CFGERR. -/
  | drvOn (mask : Nat)
  /-- DRV_OFF (R207): Writing OFF for a group ramps its RUN channels as a software stop. -/
  | drvOff (mask : Nat)
  /-- ABORT_CAUSE_CLEAR (R211): A W1C of DRV_ABORTSTAT clears a cause bit only when the cause is no longer active. -/
  | abortCauseClear (val : Nat)
  /-- DRV_RECOVER (R211): Writing RECOVER moves an ABORTED channel to IDLE when no cause in its scope is active. -/
  | drvRecover (ch : Nat)
  /-- TOKEN (R224): A TOK packet is delivered at its destination station and converted into a short unit for the destination PE. -/
  | token (d : Deliver)
  /-- REQ_LOAD (R65): A bank applies a normal-view load and answers with the word. -/
  | reqLoad (d : Deliver)
  /-- REQ_STORE (R65): A bank applies a normal-view store and answers. -/
  | reqStore (d : Deliver)
  /-- REQ_BSET (R258): A bank ORs the enabled bytes into the word. -/
  | reqBset (d : Deliver)
  /-- REQ_BCLR (R258): A bank clears the bits set in the enabled bytes. -/
  | reqBclr (d : Deliver)
  /-- REQ_IREAD (R65): A bank returns a FULL word or defers the request and answers DEFERRED. -/
  | reqIread (d : Deliver)
  /-- REQ_IWRITE (R65): A bank stores into an EMPTY or DEFERRED word, serving the deferred list, or answers ISFULL. -/
  | reqIwrite (d : Deliver)
  /-- REQ_ICLEAR (R65): A bank sets a word EMPTY and answers deferred entries with errors. -/
  | reqIclear (d : Deliver)
  /-- REQ_MTAKE (R65): A bank takes a FULL word leaving it EMPTY, or defers the request. -/
  | reqMtake (d : Deliver)
  /-- REQ_MPUT (R65): A bank puts into an EMPTY or DEFERRED word, or answers ISFULL. -/
  | reqMput (d : Deliver)
  /-- REQ_READ (R257): A bank reads 1 to 8 units through a view for a non-PE initiator. -/
  | reqRead (d : Deliver)
  /-- REQ_WRITE (R257): A bank writes 1 to 8 units through a view for a non-PE initiator. -/
  | reqWrite (d : Deliver)
  /-- RSP_DATA (R109): A data response reaches its initiator and, at a PE, is formed into a result token. -/
  | rspData (d : Deliver)
  /-- RSP_ACK (R109): An acknowledgement response reaches its initiator. -/
  | rspAck (d : Deliver)
  /-- DEFDATA (R231): A later answer to a deferred presence request reaches its requester. -/
  | defdata (d : Deliver)
  /-- RSP_TIMEOUT (R231): A request unanswered after RNG_RSPTO is completed by its station with status LOST. -/
  | rspTimeout (q : ReqName)
  /-- SPWRITE (R128): An evicted record is written to near or far spill. -/
  | spwrite (sp : SpillOp)
  /-- SPLOOKUP (R128): The spill agent walks a set's chains, unlinks a matching record and returns it or absent. -/
  | splookup (sp : SpillOp)
  /-- SPFREE (R128): A spill record is freed onto its level's free list. -/
  | spfree (cl : Nat)
  /-- SPREAD (R128): The agent reads a spill record. -/
  | spread (sp : SpillOp)
  /-- SPDATA (R128): A spill read answer returns a record to the agent or PE and the entry is reinserted. -/
  | spdata (cl : Nat) (x : PeReads)
  /-- SPACK (R224): A spill write or unlink acknowledgement returns with the set's new count. -/
  | spack (cl pe : Nat)
  /-- REGRD (R224): An MGT register or memory read request is served at its target. -/
  | regrd (d : Deliver)
  /-- REGWR (R456): An MGT register or memory write request is served at its target subject to the initiator limits. -/
  | regwr (d : Deliver)
  /-- REGDATA (R224): An MGT read answer reaches its requester. -/
  | regdata (d : Deliver)
  /-- REGACK (R224): An MGT write answer reaches its requester. -/
  | regack (d : Deliver)
  /-- EPOCH_START (R234): Writing RNG_EPOCH.START checks the new tables and stops injection at masked stations. -/
  | epochStart
  /-- EPOCH_DRAINED (R235): When no old-epoch packet is resident the epoch flips, bypass changes apply and injection resumes. -/
  | epochDrained
  /-- EPOCHTO (R235): A drain lasting 1 ms raises EPOCHTO. -/
  | epochto
  /-- DOMAIN_CLOSE_BEGIN (R239): Closing of a domain begins in the cycle its outstanding-response count reaches zero. -/
  | domainCloseBegin (dom : Nat)
  /-- DOMAIN_REOPEN (R239): A reopened domain receives its parked packets in arrival order. -/
  | domainReopen (dom : Nat)
  /-- SPAN_PORT_ENABLE (R248): Writing EN of a span port starts training once GEN_COMMIT has taken place. -/
  | spanPortEnable (port en : Nat)
  /-- PMD_TRAINED (R248): PMD start-up training completes on all four lanes and alignment starts. -/
  | pmdTrained (port : Nat)
  /-- SPAN_ALIGNED (R248): Lane order, polarity, codeword lock and deskew complete and IDENT exchange begins. -/
  | spanAligned (port : Nat)
  /-- CODEWORD (R245): A received codeword is checked, acknowledged and its units delivered, or discarded with NAK. -/
  | codeword (port : Nat) (c : Codeword)
  /-- LINK_IDLE (R224): A LINK IDLE unit is received. -/
  | linkIdle (port : Nat)
  /-- CREDIT (R246): A LINK CREDIT returns span buffer units per class, and the first exchange makes the port TRAINED. -/
  | credit (port f : Nat)
  /-- PROBE (R249): A PROBE is answered with an ECHO carrying the count and holding time. -/
  | probe (port f hold : Nat)
  /-- ECHO (R249): An ECHO updates the measured one-way latency of the port. -/
  | echo (port f : Nat)
  /-- SPAN_IDENT_TIMER (R246): The IDENT interval expires and the port sends IDENT. -/
  | spanIdentTimer (port : Nat)
  /-- SPAN_PROBE_TIMER (R249): The 1 ms probe interval expires and the port sends a PROBE. -/
  | spanProbeTimer (port : Nat)
  /-- CODEWORD_LOCK_LOSS (R251): Codeword lock lost for 1 µs takes the port out of TRAINED. -/
  | codewordLockLoss (port : Nat)
  /-- SPAN_LOS (R251): The PMD reports loss of signal and the port leaves TRAINED. -/
  | spanLos (port : Nat)
  /-- SPAN_RETRAIN_TIMEOUT (R251): A retrain not completed to the same peer within 100 ms discards unacknowledged data and raises SPNLOSS. -/
  | spanRetrainTimeout (port : Nat)
  /-- OWNERSHIP_REQUEST (R263): A write of a new OWNER to SB_OWNERb is accepted or refused with RESULT. -/
  | ownershipRequest (bank owner : Nat) (fence : Bool)
  /-- BANK_FENCE (R264): Writing FENCE makes the bank refuse new REQ requests. -/
  | bankFence (bank : Nat)
  /-- ABORTDEF (R264): Writing ABORTDEF answers every deferred entry with REFUSED and empties the list. -/
  | abortdef (bank : Nat)
  /-- BAR4_READ (R313): A host read through BAR4 reads scratch in the normal view under the owner check. -/
  | bar4Read (addr len : Nat) (ecc : Ecc)
  /-- BAR4_WRITE (R313): A host write through BAR4 writes scratch in the view selected by SB_BAR4CFG. -/
  | bar4Write (addr : Nat) (bytes : List Nat)
  /-- SWEEP_ROW_START (R272): Every ROWINT µs the sweep borrows the next row and tests it by copy-aside. -/
  | sweepRowStart (r : SweepRow)
  /-- SPARE_SWITCH (R273): When the copy of a retiring bank completes, the spare multiplexer switches bank 32 into its place. -/
  | spareSwitch
  /-- LOCK_ACQUIRE (R275): A write of LCK_CELLn with REL = 0 makes a free cell held by the requester. -/
  | lockAcquire (master cell : Nat)
  /-- LOCK_RELEASE (R275): A write with REL = 1 from the holder frees the cell. -/
  | lockRelease (master cell : Nat)
  /-- LOCK_ACK (R277): A write to LCK_ACK from the holder clears ABANDONED. -/
  | lockAck (master cell : Nat)
  /-- SUP_ALU (R309): A supervisor integer instruction computes without exceptions. -/
  | supAlu (x : Sup) (op : AluOp) (rd ra rb : Nat) (imm : Option Nat)
  /-- SUP_MUL (R309): A supervisor multiply instruction. -/
  | supMul (x : Sup) (op : MulOp) (rd ra rb : Nat)
  /-- SUP_DIV (R309): A supervisor divide or remainder, with defined results for zero and overflow. -/
  | supDiv (x : Sup) (op : DivOp) (rd ra rb : Nat)
  /-- SUP_LOAD (R285): A supervisor load checked against the MAT, completed when its answer returns. -/
  | supLoad (x : Sup) (rd ra off size : Nat) (sx : Bool) (ecc : Ecc)
  /-- SUP_STORE (R285): A supervisor store checked against the MAT. -/
  | supStore (x : Sup) (rs ra off size : Nat)
  /-- STORE_BUSERR (R294): A failing store answer returns and raises an imprecise BUSERR at the next boundary. -/
  | storeBuserr (t addr : Nat)
  /-- SUP_ATOMIC (R309): A SWAP, CAS or FADD on a 64-bit word in supervisor or core-local memory. -/
  | supAtomic (x : Sup) (op : AtomOp) (rd ra rb : Nat)
  /-- SUP_PRESENCE (R309): An IRD, IWR, ICLR, MTK or MPT presence operation from a core. -/
  | supPresence (x : Sup) (op : PresOp) (rd ra rs box : Nat)
  /-- SUP_BRANCH (R301): A branch, jump or branch-and-link with one delay slot. -/
  | supBranch (x : Sup) (op : BrOp) (ra rb target : Nat)
  /-- LOOP (R302): LOOP sets up a hardware loop. -/
  | supLoop (x : Sup) (lend rc : Nat)
  /-- LOOPI (R302): LOOPI sets up a hardware loop with an immediate count. -/
  | loopi (x : Sup) (lend count : Nat)
  /-- CRD (R287): Reads a control register. -/
  | crd (x : Sup) (rd n : Nat)
  /-- CWR (R287): Writes a control register, serialising. -/
  | cwr (x : Sup) (n rs : Nat)
  /-- FENCE (R285): Waits until every earlier access of the thread is answered. -/
  | fence (x : Sup)
  /-- WAIT (R309): Holds the thread until an event is pending. -/
  | wait (x : Sup)
  /-- TRAP (R294): Raises the TRAP exception with a 16-bit immediate. -/
  | trap (x : Sup) (imm : Nat)
  /-- BREAK (R294): Raises BREAK, or halts the core when a debugger is attached. -/
  | supBreak (x : Sup)
  /-- GATE (R293): Enters a more privileged ring through the core gate table. -/
  | gate (x : Sup) (n : Nat)
  /-- GRET (R293): Returns from a gate frame. -/
  | gret (x : Sup)
  /-- RETE (R300): Returns from an exception frame. -/
  | rete (x : Sup)
  /-- IRQ_DELIVER (R304): An interrupt source event at its block becomes pending at the routed thread. -/
  | irqDeliver (src : Nat)
  /-- INTERRUPT_TAKE (R296): A pending event above MASK is taken at an instruction boundary. -/
  | interruptTake (t : Nat) (frameBad : Bool)
  /-- WATCHDOG_EXPIRE (R294): The thread watchdog expires and raises WATCHDOG, or fault halt at level 15. -/
  | watchdogExpire (t : Nat)
  /-- SUP_IPI (R307): Writing SUP_IPI raises an interprocessor interrupt source. -/
  | supIpi (init mask : Nat)
  /-- CORE_RESET (R306): Writing RESET restarts a core from the boot ROM with reset values. -/
  | coreReset (init c : Nat)
  /-- CORE_RUN_WRITE (R307): Writing RUN or THR1EN starts or holds a core's threads. -/
  | coreRunWrite (init c : Nat) (run thr1 : Bool)
  /-- PERST_ASSERT (R419): PERST_N low resets the host interface as a PF FLR and powers off HIFPHY. -/
  | perstAssert
  /-- PERST_RELEASE (R312): PERST_N release starts the configuration retry window. -/
  | perstRelease
  /-- CRS_TIMEOUT (R312): One second after PERST_N release configuration requests complete normally. -/
  | crsTimeout
  /-- CONFIG_REQUEST (R312): A PCI Express configuration request is answered, with retry status before readiness. -/
  | configRequest (fn off : Nat) (wr : Option Nat)
  /-- SQTAIL_WRITE (R319): A submission tail doorbell makes new entries available for fetch. -/
  | sqtailWrite (sess val : Nat)
  /-- CQHEAD_WRITE (R321): A completion head doorbell frees completion ring room. -/
  | cqheadWrite (sess val : Nat)
  /-- EVHEAD_WRITE (R345): An event head doorbell frees event ring room. -/
  | evheadWrite (sess val : Nat)
  /-- SQ_ENTRY_FETCH (R319): Fetched submission entries return from host memory and commands start in ring order. -/
  | sqEntryFetch (sess : Nat) (es : List SqEntry) (bad : Bool)
  /-- COAL_TIMEOUT (R322): COALUS after the first unsignalled completion the ring's MSI-X vector is signalled. -/
  | coalTimeout (sess : Nat) (ev : Bool)
  /-- SESS_CREATE (R329): Creates a session with its rings and vectors. -/
  | sessCreate (r : Run)
  /-- SESS_DESTROY (R323): Closes a session, killing its contexts and aborting unstarted commands. -/
  | sessDestroy (r : Run)
  /-- SESS_CLOSED (R323): When every command of a closing session has ended, the destroy completes and the session is FREE. -/
  | sessClosed (sess : Nat)
  /-- SPILL_GRANT (R333): Gives a cluster a far spill region in host memory. -/
  | spillGrant (r : Run)
  /-- SPILL_REVOKE (R333): Withdraws a cluster's far spill region. -/
  | spillRevoke (r : Run)
  /-- IMG_STORE (R329): Stores a loaded graph image in a store slot. -/
  | imgStore (r : Run)
  /-- NOP (R329): Completes with no effect. -/
  | nop (r : Run)
  /-- IMG_LOAD (R337): Checks, places and measures a graph image and assigns template handles. -/
  | imgLoad (r : Run)
  /-- IMG_UNLOAD (R337): Unloads a graph image whose contexts are all FREE. -/
  | imgUnload (r : Run)
  /-- CTX_CREATE (R330): Creates a context from a host descriptor. -/
  | ctxCreate (r : Run)
  /-- CTX_QUIESCE (R331): Quiesces a context. -/
  | ctxQuiesce (r : Run)
  /-- CTX_RESUME (R331): Resumes a quiesced context. -/
  | ctxResume (r : Run)
  /-- CTX_KILL (R331): Moves a context to RETURNING. -/
  | ctxKill (r : Run)
  /-- CTX_SEND (R331): Sends a host value to an argument slot of a context. -/
  | ctxSend (r : Run)
  /-- CTX_QUERY (R329): Returns a context's state and counters. -/
  | ctxQuery (r : Run)
  /-- SCR_READ (R332): Reads scratch into a host buffer. -/
  | scrRead (r : Run)
  /-- SCR_WRITE (R332): Writes scratch from a host buffer. -/
  | scrWrite (r : Run)
  /-- CAP_READ (R332): Reads capture ring records into a host buffer. -/
  | capRead (r : Run)
  /-- OBQ_ATTACH (R345): Attaches an observation queue to the issuing session. -/
  | obqAttach (r : Run)
  /-- OBQ_DETACH (R329): Detaches an observation queue. -/
  | obqDetach (r : Run)
  /-- FLR (R339): A function-level reset closes the function's sessions, kills their contexts and resets its PCI Express state. -/
  | flr (fn : Nat)
  /-- LINK_DOWN_RESET (R339): A hot reset or DL_Down acts as a PF FLR. -/
  | linkDownReset
  /-- LINK_POWER_CHANGE (R370): The host link enters or leaves L0 or L0p, pausing or resuming the log engine and far spill. -/
  | linkPowerChange (st : Nat)
  /-- COURIER_WRITE (R345): The event courier pops an item from an attached queue into the session's event ring when room exists. -/
  | courierWrite (sess : Nat) (mismatch bad : Bool)
  /-- LOG_QATTACH (R356): Hands an NVMe namespace and queue pair to the log engine. -/
  | logQattach (r : Run)
  /-- LOG_QDETACH (R371): Withdraws a namespace from the log engine. -/
  | logQdetach (r : Run)
  /-- LOG_CREATE (R371): Creates a new log, writing labels and directories. -/
  | logCreate (r : Run)
  /-- LOG_RESUME (R369): Recovers the log state from the journal and media. -/
  | logResume (r : Run)
  /-- LOG_START (R371): Starts the log engine writing. -/
  | logStart (r : Run)
  /-- LOG_STOP (R371): Stops logging once everything formed is durable and sealed. -/
  | logStop (r : Run)
  /-- LOG_STATUS (R371): Writes the engine state into a host buffer. -/
  | logStatus (r : Run)
  /-- LOG_APPEND (R371): Appends a HOST record to the log. -/
  | logAppend (r : Run)
  /-- LOG_RECLAIM (R371): Deallocates sealed segments at or below a sequence. -/
  | logReclaim (r : Run)
  /-- NVME_COMPLETION (R355): An NVMe completion is found by polling and advances chunk writes, flushes, seals or reads. -/
  | nvmeCompletion (n : NvDone)
  /-- NVME_TIMEOUT (R358): An NVMe command without completion in 2 s is reissued or fails its namespace. -/
  | nvmeTimeout (ns cid : Nat)
  /-- MRAM_OP_DONE (R307): An MRAM operation completes and raises interrupt source 36. -/
  | mramOpDone (ok : Bool)
  /-- FLTFORCE (R385): Writing FLTFORCE raises a forced event of a fault source. -/
  | fltforce (b mask : Nat)
  /-- FLTHISTPOP (R379): Writing FLTHISTPOP removes the oldest fault history entry. -/
  | flthistpop (b : Nat)
  /-- REP_RETIRE (R400): Writing REP_RETIRE.GO queues a planned retirement. -/
  | repRetire (init val : Nat)
  /-- RETIRE_START (R394): The repair controller starts the next queued retirement. -/
  | retireStart
  /-- PE_PIPE_DRAINED (R394): The retiring PE's pipe has delivered its firings, WAITFW is asserted and the state copy starts. -/
  | pePipeDrained
  /-- PE_STATE_COPIED (R394): The hardware copy of the retiring PE's state to the spare completes. -/
  | peStateCopied (spareBad : Bool)
  /-- REP_RETCOMMIT (R394): Firmware commits a PE retirement, the map record is written and CLn_REMAP switches. -/
  | repRetcommit (init : Nat)
  /-- RETIRE_TIMEOUT (R394): REP_RETTO expires before the commit and the PE retirement is abandoned with RETIREFAIL. -/
  | retireTimeout
  /-- ROW_RETIRE_DONE (R393): The copy of a row or column into its spare completes and the steering switches. -/
  | rowRetireDone
  /-- CENSUS_UPDATE (R399): Every INT minutes the repair controller adds census counts into the MRAM fault census. -/
  | censusUpdate
  /-- PATROL_READ (R401): After 256 idle cycles a PE patrols one instruction word and one matching entry. -/
  | patrolRead (p : Patrol)
  /-- WAKE_REQUEST (R409): A sleeping domain enters a wake request at E − wake − GUARD. -/
  | wakeRequest (dom : Nat)
  /-- LEDGER_ADMIT (R411): The wake ledger admits waiting requests in order within the slew and charge budgets. -/
  | ledgerAdmit
  /-- DOMAIN_WAKE_DONE (R405): A waking domain reaches RUN after its wake time. -/
  | domainWakeDone (dom : Nat)
  /-- FILTER_RELOAD_DONE (R407): After a MIDNIGHT wake each PE's overflow filter is reloaded from the spill directory. -/
  | filterReloadDone (cl : Nat)
  /-- IDLE_WINDOW (R406): A domain idle for IDLEWIN cycles enters the state selected by the power manager. -/
  | idleWindow (dom : Nat)
  /-- PWR_DEPTH_WRITE (R410): A depth limit shallower than the present state enters a wake request with event time now. -/
  | pwrDepthWrite (init n val : Nat)
  /-- VOLTAGE_REACHED (R415): A cluster voltage reaches VOLT during an operating point change. -/
  | voltageReached (cl : Nat)
  /-- OPPOINT_RELOCK_DONE (R415): A cluster PLL relocks and the cluster runs at the new FREQ. -/
  | oppointRelockDone (cl : Nat)
  /-- STAT_SNAP (R417): Writing STAT_SNAP launches a counter snapshot strobe. -/
  | statSnap
  /-- SNAPSHOT_SWAP (R417): 100 ns after the snapshot write the shadow halves swap and BUSY clears. -/
  | snapshotSwap
  /-- POWER_ON (R418): PGOOD and RESET_N high with the reference running start the Dawn sequence at step 1. -/
  | powerOn
  /-- DAWN_PLL_LOCKED (R418): The SYS, RING, SUP and PH PLLs lock and the repair controller and MRAM interface run. -/
  | dawnPllLocked
  /-- DAWN_MRAM_READY (R418): The MRAM die is ready and the fuse and MRAM repair maps are applied. -/
  | dawnMramReady
  /-- DAWN_CORE_CLEARED (R418): The core island arrays are cleared, the configuration record read and the profile sampled. -/
  | dawnCoreCleared
  /-- DAWN_DOMAINS_RUN (R418): Cluster and bank group domains reach RUN with cleared arrays and core 0 leaves reset. -/
  | dawnDomainsRun
  /-- FIRMWARE_BOOT (R428): The boot ROM selects and verifies a firmware slot and starts firmware or enters recovery. -/
  | firmwareBoot
  /-- RESET_N_ASSERT (R419): RESET_N low for 1 µs starts a device reset. -/
  | resetNAssert
  /-- RESET_N_RELEASE (R420): RESET_N release starts the Dawn sequence at step 2. -/
  | resetNRelease
  /-- GEN_DEVRESET (R423): Writing the key to GEN_DEVRESET starts a device reset. -/
  | genDevreset (init key : Nat)
  /-- PGOOD_FALL (R467): PGOOD low makes a power-on reset after the MRAM completes any started write. -/
  | pgoodFall
  /-- REF_LOSS (R389): Loss of the board reference raises REFLOSS. -/
  | refLoss
  /-- CLK_PLLUNLOCK (R389): A clock domain PLL losing lock raises PLLUNLOCK in CLK. -/
  | clkPllunlock (dom : Nat)
  /-- SEC_RECOVCTL_GO (R428): Writing GO in recovery checks and writes the recovery image. -/
  | secRecovctlGo (init slot : Nat)
  /-- CFG_SET_BOOT (R430): SEC_CFGCTL operation 0x1 sets PREFER, TRIAL and TRIALS of the configuration record. -/
  | cfgSetBoot (init : Nat)
  /-- CFG_SET_PROFDEF (R430): SEC_CFGCTL operation 0x2 sets the profile default. -/
  | cfgSetProfdef (init : Nat)
  /-- CFG_SET_KEYSLOT (R430): SEC_CFGCTL operation 0x3 writes an empty service key slot. -/
  | cfgSetKeyslot (init slot : Nat)
  /-- CFG_BAD_OP (R430): A SEC_CFGCTL GO with another OP is refused with RESULT 0b001. -/
  | cfgBadOp (init op : Nat)
  /-- CFG_READBACK_DONE (R430): The configuration record copy is read back and BUSY clears. -/
  | cfgReadbackDone (ok : Bool)
  /-- SEC_QUOTE (R435): Forms and signs an attestation quote with the identity key. -/
  | secQuote (r : Run) (resBad : Bool)
  /-- QUOTE_DONE (R435): The quote signature completes and the command completes. -/
  | quoteDone
  /-- SEC_MLOGREAD (R436): Reads measurement log entries. -/
  | secMlogread (r : Run)
  /-- SEC_IDKEY (R436): Returns the identity public key. -/
  | secIdkey (r : Run)
  /-- SEC_FWWRITE (R436): Checks and writes firmware into the non-booted slot and sets it on trial. -/
  | secFwwrite (r : Run)
  /-- SEC_FWCONFIRM (R436): Clears TRIAL of the booted slot. -/
  | secFwconfirm (r : Run)
  /-- SEC_SVNRAISE (R436): Raises the fused security version floor. -/
  | secSvnraise (r : Run)
  /-- SEC_SVCKEY (R436): Writes a service key hash into an empty slot. -/
  | secSvckey (r : Run)
  /-- SEC_SVCLOAD (R436): Checks and measures a service image and passes it to firmware. -/
  | secSvcload (r : Run)
  /-- SEC_PROFDEF (R436): Sets the profile default of the configuration record. -/
  | secProfdef (r : Run) (ok : Bool)
  /-- SEC_HASHCTL_GO (R462): Writing GO queues a supervisor SHAKE256 request. -/
  | secHashctlGo (init : Nat)
  /-- HASH_DONE (R462): A hash request completes, its output is written and interrupt source 37 is raised. -/
  | hashDone
  /-- SDP_IDCODE (R440): Returns GEN_ID and the lifecycle state. -/
  | sdpIdcode (fr : Frame)
  /-- SDP_STATUS (R440): Returns DBG_PORTSTAT. -/
  | sdpStatus (fr : Frame)
  /-- SDP_READ (R441): Issues an MGT read of 8 bytes at ADDR. -/
  | sdpRead (fr : Frame) (addr : Nat)
  /-- SDP_WRITE (R441): Issues an MGT write of WDATA at ADDR. -/
  | sdpWrite (fr : Frame) (addr data : Nat)
  /-- SDP_RDBUF (R440): Returns the data of the last completed READ. -/
  | sdpRdbuf (fr : Frame)
  /-- SDP_ABORT (R440): Clears ERR and the wait state. -/
  | sdpAbort (fr : Frame)
  /-- SESSRESET (R449): Resets the debug session, resuming halted units and freeing its locks. -/
  | sessreset (fr : Frame)
  /-- SDP_LINE_RESET (R439): 128 consecutive high samples discard any partial frame. -/
  | sdpLineReset
  /-- DBG_AUTHGO (R443): Writing DBG_AUTHGO starts verification of an authentication request. -/
  | dbgAuthgo
  /-- AUTH_VERIFY_DONE (R443): Authentication verification completes, granting rights or raising AUTHFAIL. -/
  | authVerifyDone
  /-- DBG_PROVISION (R444): DBG_CTL.PROVISION moves the lifecycle from OPEN to PROVISIONED. -/
  | dbgProvision
  /-- DBG_DISABLE (R444): DBG_CTL.DISABLE moves the lifecycle to DISABLED. -/
  | dbgDisable
  /-- DBG_PROVRESET (R444): DBG_CTL.PROVRESET clears the service key slots and makes a device reset. -/
  | dbgProvreset
  /-- DBG_DEVRESET (R444): DBG_CTL.DEVRESET makes a device reset with cause debug port. -/
  | dbgDevreset
  /-- DBG_CORE_HALT (R445): Halts both threads of a core at their next boundaries. -/
  | dbgCoreHalt (c : Nat)
  /-- DBG_CORE_STEP (R445): Executes one instruction of the named thread of a halted core. -/
  | dbgCoreStep (c : Nat)
  /-- DBG_CORE_RESUME (R445): Restarts both threads of a debug-halted core. -/
  | dbgCoreResume (c : Nat)
  /-- DBG_CL_HALT (R447): Stops all issue in a cluster, or is refused for drive-bound contexts. -/
  | dbgClHalt (cl : Nat)
  /-- DBG_CL_RESUME (R447): Resumes a debug-halted cluster. -/
  | dbgClResume (cl : Nat)
  /-- DBG_CL_FIRE (R447): Issues one firing from a physical PE's ready list in a halted cluster. -/
  | dbgClFire (f : Fire)
  /-- TAP_BYPASS (R451): The TAP BYPASS instruction. -/
  | tapBypass
  /-- TAP_IDCODE (R451): The TAP IDCODE instruction. -/
  | tapIdcode
  /-- TAP_SAMPLE_PRELOAD (R451): The TAP SAMPLE/PRELOAD instruction. -/
  | tapSamplePreload
  /-- TAP_EXTEST (R451): The TAP EXTEST instruction drives pins while RESET_N is low. -/
  | tapExtest
  /-- TAP_CLAMP (R451): The TAP CLAMP instruction. -/
  | tapClamp
  /-- TAP_HIGHZ (R451): The TAP HIGHZ instruction. -/
  | tapHighz
  /-- SW_READ (R459): CLn_SWCTL.READ copies a store window item into SWDATA. -/
  | swRead (init cl : Nat)
  /-- SW_WRITE (R459): CLn_SWCTL.WRITE writes SWDATA to a store window item with fresh check bits. -/
  | swWrite (init cl : Nat)
  /-- SW_OP_DONE (R459): A store window operation completes and BUSY clears. -/
  | swOpDone (cl : Nat)
  /-- LINK_IDENT (R248): A LINK IDENT unit received from the peer is checked against the local DEV and moves training on, or leaves the port in CONFLICT. -/
  | linkIdent (port f : Nat)
  /-- REG_READ_CLEAR (R10): A read of a register holding RC fields returns their value and then clears the set bits. -/
  | regReadClear (init off : Nat)
  /-- COMPLETION_TIMEOUT (R315): A device-issued request to host memory receives no completion in time and becomes a host memory error. -/
  | completionTimeout (a : HostAcc)
  /-- DOMAIN_CLOSE_DONE (R239): Closing of a domain completes, and the domain is closed in DUSK or MIDNIGHT, with a non-empty parking buffer counting as a wake request. -/
  | domainCloseDone (dom : Nat)
  /-- FLR_COMPLETE (R339): A function-level reset completes within 100 ms, its sessions become FREE and FLRBUSY clears. -/
  | flrComplete (fn : Nat)
  /-- VDDAO_LOSS (R419): VDDAO falling below its threshold makes a power-on reset. -/
  | vddaoLoss
  /-- CMCLK_RESTORED (R423): The converter master clock returns, CLK_REFSTAT shows it present and the CMCLKLOSS condition ends. -/
  | cmclkRestored
  /-- CLK_PLL_RELOCK (R389): A clock domain PLL that had lost lock locks again, and its CLK_LOCK bit and the PLLUNLOCK condition end. -/
  | clkPllRelock (dom : Nat)
  /-- AER_UNCORRECTABLE_ERROR (R348): An uncorrectable error is logged under AER on the host link and raises LINKERR. -/
  | aerUncorrectableError
  deriving DecidableEq, Repr

end Sys2Proof
end

