-- ==== Sys2Proof/Decode.lean ====
section
/-! DEFINITION. The words of commands. The device has no command encoding: no row of the table of operations and
events gives bits. (The encoding of a PE instruction word is in Machine/PeWord.lean.) -/

namespace Sys2Proof

/-- The command that a word spells: none, because no row of the table gives bits. -/
def decodeTableWord (_nbits _w : Nat) : Option Instr := none

end Sys2Proof
end

