-- ==== Sys2Proof/Config.lean ====
section
/-! DEFINITION. What a part fixes and the manual leaves open. Every `opaque` constant has no value that a proof
can see: a claim about it holds whatever a part does. -/

namespace Sys2Proof.Config

open Sys2Proof

/-- The n-th value that the manual leaves open in a run (log entry 3): the operations that need one read the
counter `free` of the state and advance it. -/
opaque freeValue : Nat → BitVec 64

/-- Whether an XMSS or LMS signature over the message hash `m` verifies under the key hash `k` (R427): the
signature arithmetic is that of the named standards and is not in the manual. Log entry 10. -/
opaque sigVerify : (key message signature : List Nat) → Bool

/-- The signature the identity key makes at index `idx` over a message (R435). Log entry 10. -/
opaque sigMake : (idx : Nat) → (message : List Nat) → List Nat

/-- The public key of the identity tree, formed from the fused seed (R431). Log entry 10. -/
opaque identityKey : List Nat

/-- The bytes of the boot ROM, fixed in the mask (R284, R428). Log entry 11. -/
opaque bootRom : Nat → BitVec 8

/-- The 256-bit challenge of the debug port with number `n` since power-on (R443). Log entry 3. -/
opaque challenge : Nat → BitVec 256

/-- Offset in the PF's configuration space of the dword that holds the SR-IOV Control register, whose bit 0 is VF Enable
(R311, R314). The manual does not lay the configuration space out. Log entry 31. -/
opaque cfgSriov : Nat

/-- Offset in a function's configuration space of the power management control and status register: bits 1:0 the power
state, 3 for D3hot, and bit 8 PME enable (R311, R421). Log entry 31. -/
opaque cfgPmcsr : Nat

end Sys2Proof.Config
end

