-- ==== Sys2Proof/Machine/Store.lean ====
section
/-! DEFINITION. Sparse tables (sorted lists of key and value in one canonical form) and the shapes in which the
register index of R461 is written. -/

namespace Sys2Proof.Machine

/-- A table from keys to values: keys strictly rising, and a key that is not listed holds the table's default. -/
abbrev FMap (α : Type) := List (Nat × α)

/-- The value of key `k`, the default `d` where it is not listed. -/
def mget {α : Type} (d : α) : FMap α → Nat → α
  | [], _ => d
  | (k', v) :: m, k => if k' = k then v else mget d m k

/-- Key `k` listed with `v`, in key order. -/
def mins {α : Type} : FMap α → Nat → α → FMap α
  | [], k, v => [(k, v)]
  | (k', v') :: m, k, v =>
    if k' = k then (k, v) :: m
    else if k < k' then (k, v) :: (k', v') :: m
    else (k', v') :: mins m k v

/-- Key `k` taken out. -/
def mdel {α : Type} (m : FMap α) (k : Nat) : FMap α := m.filter (fun e => e.1 != k)

/-- The table with `v` at key `k`; a value equal to the default is not listed. -/
def mset {α : Type} [DecidableEq α] (d : α) (m : FMap α) (k : Nat) (v : α) : FMap α :=
  if v = d then mdel m k else mins m k v

/-- Keys strictly rising. -/
def keysRise {α : Type} : FMap α → Bool
  | [] => true
  | [_] => true
  | (k, _) :: (k', v') :: m => k < k' && keysRise ((k', v') :: m)

/-- The canonical form: keys strictly rising and no value equal to the default. -/
def mwf {α : Type} [DecidableEq α] (d : α) (m : FMap α) : Bool := keysRise m && m.all (fun e => e.2 != d)

/-- The access codes of R10. -/
inductive Acc where
  | ro | rw | wo | w1c | w1s | rc | rwp | rwl
  deriving DecidableEq, Repr

/-- How a field's reset value is given: a number, or a rule of the field's home chapter. -/
inductive Rst where
  | const (n : Nat)
  /-- The number of the register in its row (R163: INPUT resets to the source's number). -/
  | regIdx
  /-- The route tables' reset entry (R233). -/
  | route
  /-- RUN resets to 1 in core 0 only (R307). -/
  | coreRun
  /-- The defaults of R389, by block and source. -/
  | fltCfg
  /-- The defaults of R390, by block and cause. -/
  | fltCause
  deriving DecidableEq, Repr

/-- The values a field accepts; a write of any other leaves it and sets CFGERR (R8). -/
inductive Valid where
  | any
  | range (lo hi : Nat)
  /-- Zero, or a value of the range. -/
  | zeroOr (lo hi : Nat)
  deriving DecidableEq, Repr

/-- One field of a register: bits `hi` to `lo`. -/
structure FieldD where
  hi : Nat
  lo : Nat
  acc : Acc
  rst : Rst
  ok : Valid
  deriving DecidableEq, Repr

/-- One row of the register index: offset in its region, the stride and count of each index, its fields. -/
structure RegD where
  off : Nat
  dims : List (Nat × Nat)
  fields : List FieldD
  deriving DecidableEq, Repr

/-- One field named: block number, offset in the block's region, lowest bit, width and reset value. -/
structure Fld where
  blk : Nat
  off : Nat
  lo : Nat
  width : Nat
  rst : Nat
  deriving DecidableEq, Repr

/-- One default row of R389: block, source, REACT, THR, WEXP, PREACT. -/
def fltRows : List (Nat × Nat × Nat × Nat × Nat × Nat) := [
  (0, 0, 0, 0, 0, 0), (0, 1, 1, 0, 0, 1), (1, 0, 1, 0, 0, 1), (1, 1, 1, 0, 0, 1),
  (2, 0, 1, 4, 20, 5), (2, 1, 5, 0, 0, 5),
  (3, 0, 0, 0, 0, 0), (3, 1, 1, 0, 0, 1), (3, 2, 1, 0, 0, 1), (3, 3, 1, 0, 0, 1),
  (3, 4, 0, 16, 10, 1), (3, 5, 1, 0, 0, 1),
  (4, 0, 4, 0, 0, 4), (4, 1, 4, 0, 0, 4), (4, 2, 1, 0, 0, 1), (4, 3, 0, 8, 20, 1), (4, 4, 1, 0, 0, 1),
  (5, 0, 1, 0, 0, 1), (5, 1, 1, 0, 0, 1),
  (6, 0, 0, 4, 20, 3), (6, 1, 1, 0, 0, 1), (6, 2, 1, 0, 0, 1), (6, 3, 1, 0, 0, 1), (6, 4, 1, 0, 0, 1),
  (8, 0, 0, 64, 20, 3), (8, 1, 1, 4, 26, 3), (8, 4, 3, 0, 0, 3), (8, 5, 1, 2, 26, 3),
  (9, 0, 1, 0, 0, 1),
  (10, 0, 1, 0, 0, 1), (10, 1, 1, 0, 0, 1), (10, 2, 1, 0, 0, 1), (10, 3, 1, 0, 0, 1),
  (11, 0, 1, 0, 0, 1),
  (12, 0, 1, 0, 0, 1), (12, 1, 1, 0, 0, 1), (12, 2, 1, 0, 0, 1), (12, 3, 1, 0, 0, 1), (12, 5, 1, 0, 0, 1),
  (13, 0, 1, 0, 0, 1), (13, 1, 1, 0, 0, 1), (13, 2, 1, 0, 0, 1),
  (14, 0, 1, 0, 0, 1), (14, 1, 1, 0, 0, 1), (14, 2, 1, 0, 0, 1),
  (15, 0, 1, 0, 0, 1), (15, 1, 1, 0, 0, 1), (15, 3, 0, 16, 20, 3), (15, 4, 1, 2, 26, 3),
  (16, 0, 1, 0, 0, 1),
  (33, 0, 0, 16, 20, 3), (33, 1, 1, 2, 26, 3), (33, 2, 1, 0, 0, 1), (33, 3, 1, 0, 0, 1),
  (33, 4, 1, 0, 0, 1), (33, 5, 1, 0, 0, 1)]

/-- The default rows of a cluster block (R389). -/
def fltRowsCl : List (Nat × Nat × Nat × Nat × Nat × Nat) := [
  (17, 0, 0, 16, 20, 3), (17, 1, 1, 2, 26, 3), (17, 2, 0, 16, 20, 3), (17, 3, 1, 2, 26, 3), (17, 4, 1, 2, 26, 3)]

/-- Whether block `b` receives phase bus sets: CL, CNV, PWR, STAT, LOG and SPN (R149, R389). -/
def isReceiver (b : Nat) : Bool := b == 1 || b == 4 || b == 7 || b == 12 || b == 13 || (17 ≤ b && b ≤ 32)

/-- The REACT, THR, WEXP and PREACT that R389 gives source `src` of block `b`; a source without a row is NOTE
with no classifier. -/
def fltRow (b src : Nat) : Nat × Nat × Nat × Nat :=
  if src = 30 && isReceiver b then (0, 16, 20, 1)
  else
    let b' := if 17 ≤ b ∧ b ≤ 32 then 17 else b
    match (fltRows ++ fltRowsCl).find? (fun r => r.1 == b' && r.2.1 == src) with
    | some (_, _, r, t, w, p) => (r, t, w, p)
    | none => (0, 0, 0, 0)

/-- The reset value of one field of FLTCFGs (R389): 0 WEXP, 1 THR, 2 PREACT, 3 REACT. -/
def fltDefault (b src which : Nat) : Nat :=
  match fltRow b src with
  | (r, t, w, p) => if which = 0 then w else if which = 1 then t else if which = 2 then p else r

/-- The reaction that R390 gives cause `c` of a cluster block (codes 0x01 to 0x3F) or of CNV (codes less 0x40). -/
def causeReact (b c : Nat) : Nat :=
  if b = 4 then
    (if c = 1 ∨ c = 2 ∨ c = 3 ∨ c = 8 then 2 else if c = 0 ∨ c = 4 ∨ c = 5 ∨ c = 6 ∨ c = 7 then 1 else 0)
  else if c = 0x0B ∨ c = 0x0C ∨ c = 0x0D ∨ c = 0x24 ∨ c = 0x25 ∨ c = 0x27 ∨ c = 0x28 ∨ c = 0x32 ∨ c = 0x33 ∨ c = 0x34
  then 1
  else if (1 ≤ c ∧ c ≤ 0x13) ∨ (0x20 ≤ c ∧ c ≤ 0x26) ∨ c = 0x30 ∨ c = 0x31 then 2
  else 0

/-- The reset value of one field of FLTCAUSEc (R390): THR = 0, PREACT equal to REACT. -/
def causeDefault (b c which : Nat) : Nat := if which = 2 ∨ which = 3 then causeReact b c else 0

/-- The ring of the reset route entry from station `s` to `d` (R233). -/
def routeDefault (s d : Nat) : Nat :=
  if s = d then 0
  else (if (d + 26 - s) % 26 ≤ 13 then 0 else 2) + d % 2

end Sys2Proof.Machine
end

