-- ==== Sys2Proof/Machine/RegTable.lean ====
section
/-! DEFINITION. The register index of R461: every register of the device and of the fault register group
(R379), each field with its bits, its access code (R10), its reset value and the values R8 accepts. Made
from the register tables of spec/ 01, 04 to 06, 08 to 17. Fields are named one by one in `F`. -/

namespace Sys2Proof.Machine

/-- Registers of the Gen region (R461). -/
def regsGen : List RegD := [
  ⟨0x0000, [],
    [⟨31, 16, .ro, .const 37888, .any⟩,
     ⟨15, 12, .ro, .const 0, .any⟩,
     ⟨11, 8, .ro, .const 0, .any⟩]⟩,
  ⟨0x0010, [],
    [⟨0, 0, .rw, .const 0, .any⟩]⟩,
  ⟨0x0014, [],
    [⟨2, 2, .ro, .const 0, .any⟩,
     ⟨1, 1, .ro, .const 0, .any⟩,
     ⟨0, 0, .ro, .const 0, .any⟩]⟩,
  ⟨0x0020, [],
    [⟨11, 0, .rwl, .const 0, .any⟩]⟩,
  ⟨0x0030, [],
    [⟨7, 4, .ro, .const 0, .any⟩,
     ⟨3, 3, .ro, .const 0, .any⟩,
     ⟨2, 2, .ro, .const 0, .any⟩,
     ⟨1, 1, .w1s, .const 0, .any⟩,
     ⟨0, 0, .w1s, .const 0, .any⟩]⟩,
  ⟨0x0040, [],
    [⟨15, 0, .wo, .const 0, .any⟩]⟩,
  ⟨0x0044, [],
    [⟨31, 16, .ro, .const 0, .any⟩,
     ⟨1, 0, .ro, .const 0, .any⟩]⟩,
  ⟨0x00F0, [],
    [⟨0, 0, .wo, .const 0, .any⟩]⟩]

/-- Registers of the Pwr region (R461). -/
def regsPwr : List RegD := [
  ⟨0x0000, [],
    [⟨31, 24, .ro, .const 0, .any⟩,
     ⟨23, 12, .rc, .const 0, .any⟩,
     ⟨11, 0, .rc, .const 0, .any⟩]⟩,
  ⟨0x0004, [],
    [⟨9, 0, .rw, .const 200, .range 1 1023⟩]⟩,
  ⟨0x0008, [],
    [⟨23, 16, .rw, .const 20, .range 1 255⟩,
     ⟨15, 0, .rw, .const 40, .range 1 65535⟩]⟩,
  ⟨0x000C, [],
    [⟨23, 16, .rw, .const 30, .range 1 255⟩,
     ⟨15, 8, .rw, .const 25, .range 1 255⟩,
     ⟨7, 0, .rw, .const 80, .range 1 255⟩]⟩,
  ⟨0x0010, [],
    [⟨31, 24, .rw, .const 4, .any⟩,
     ⟨23, 8, .rw, .const 256, .range 1 65535⟩,
     ⟨7, 0, .rw, .const 5, .any⟩]⟩,
  ⟨0x0014, [],
    [⟨15, 8, .rw, .const 50, .range 1 255⟩,
     ⟨7, 0, .rw, .const 40, .range 0 70⟩]⟩,
  ⟨0x0018, [],
    [⟨2, 0, .rw, .const 0, .any⟩]⟩,
  ⟨0x0100, [(4, 16)],
    [⟨3, 3, .rw, .const 0, .any⟩,
     ⟨2, 0, .rw, .const 1, .range 0 4⟩]⟩,
  ⟨0x0140, [(4, 4)],
    [⟨2, 0, .rw, .const 0, .range 0 4⟩]⟩,
  ⟨0x0200, [(4, 24)],
    [⟨31, 31, .ro, .const 0, .any⟩,
     ⟨30, 30, .ro, .const 0, .any⟩,
     ⟨29, 27, .ro, .const 0, .any⟩,
     ⟨26, 24, .ro, .const 0, .any⟩,
     ⟨23, 0, .ro, .const 16777215, .any⟩]⟩]

/-- Registers of the Clk region (R461). -/
def regsClk : List RegD := [
  ⟨0x0000, [],
    [⟨24, 0, .ro, .const 1, .any⟩]⟩,
  ⟨0x0004, [],
    [⟨2, 0, .ro, .const 1, .any⟩]⟩]

/-- Registers of the Ph region (R461). -/
def regsPh : List RegD := [
  ⟨0x0000, [],
    [⟨31, 16, .ro, .const 0, .any⟩,
     ⟨15, 0, .ro, .const 0, .any⟩]⟩,
  ⟨0x0008, [],
    [⟨23, 16, .rw, .const 20, .range 4 255⟩,
     ⟨15, 0, .rw, .const 0, .any⟩]⟩,
  ⟨0x00F0, [],
    [⟨0, 0, .wo, .const 0, .any⟩]⟩,
  ⟨0x0100, [(64, 16)],
    [⟨31, 28, .rwp, .const 0, .any⟩,
     ⟨27, 27, .rwp, .const 0, .any⟩,
     ⟨26, 24, .rw, .const 0, .any⟩,
     ⟨23, 20, .rw, .const 3, .range 0 10⟩,
     ⟨19, 16, .rwp, .const 2, .any⟩,
     ⟨15, 14, .rwp, .const 0, .any⟩,
     ⟨13, 12, .rw, .const 0, .any⟩,
     ⟨11, 11, .rwp, .const 0, .any⟩,
     ⟨7, 4, .rwp, .regIdx, .any⟩,
     ⟨3, 0, .rwp, .const 0, .range 0 8⟩]⟩,
  ⟨0x0104, [(64, 16)],
    [⟨23, 0, .rwp, .const 0, .any⟩]⟩,
  ⟨0x0108, [(64, 16)],
    [⟨23, 0, .rwp, .const 0, .any⟩]⟩,
  ⟨0x010C, [(64, 16)],
    [⟨31, 0, .rwp, .const 65536, .any⟩]⟩,
  ⟨0x0110, [(64, 16)],
    [⟨31, 24, .rw, .const 10, .range 1 255⟩,
     ⟨23, 0, .rw, .const 1000, .any⟩]⟩,
  ⟨0x0114, [(64, 16)],
    [⟨23, 0, .rw, .const 0, .any⟩]⟩,
  ⟨0x0118, [(64, 16)],
    [⟨31, 16, .rc, .const 0, .any⟩,
     ⟨7, 7, .w1c, .const 0, .any⟩,
     ⟨6, 6, .ro, .const 0, .any⟩,
     ⟨5, 5, .ro, .const 0, .any⟩,
     ⟨4, 4, .ro, .const 0, .any⟩,
     ⟨2, 0, .ro, .const 0, .any⟩]⟩,
  ⟨0x011C, [(64, 16)],
    [⟨31, 0, .ro, .const 0, .any⟩]⟩,
  ⟨0x0120, [(64, 16)],
    [⟨31, 0, .ro, .const 0, .any⟩]⟩,
  ⟨0x0124, [(64, 16)],
    [⟨31, 0, .ro, .const 0, .any⟩]⟩,
  ⟨0x0128, [(64, 16)],
    [⟨31, 0, .ro, .const 0, .any⟩]⟩,
  ⟨0x012C, [(64, 16)],
    [⟨31, 0, .ro, .const 0, .any⟩]⟩,
  ⟨0x0130, [(64, 16)],
    [⟨31, 0, .ro, .const 0, .any⟩]⟩]

/-- Registers of the Cnv region (R461). -/
def regsCnv : List RegD := [
  ⟨0x0000, [],
    [⟨31, 31, .ro, .const 0, .any⟩,
     ⟨7, 0, .rwp, .const 0, .zeroOr 24 255⟩]⟩,
  ⟨0x00F0, [],
    [⟨0, 0, .wo, .const 0, .any⟩]⟩,
  ⟨0x0100, [(16, 32)],
    [⟨31, 31, .rwp, .const 0, .any⟩,
     ⟨30, 27, .rwp, .const 0, .any⟩,
     ⟨26, 22, .rwp, .const 0, .range 0 16⟩,
     ⟨21, 19, .rwp, .const 0, .range 0 4⟩,
     ⟨18, 18, .rwp, .const 0, .any⟩,
     ⟨17, 10, .rwp, .const 0, .any⟩,
     ⟨9, 0, .rwp, .const 0, .zeroOr 4 1023⟩]⟩,
  ⟨0x0104, [(16, 32)],
    [⟨31, 16, .rw, .const 0, .any⟩]⟩,
  ⟨0x0108, [(16, 32)],
    [⟨31, 31, .ro, .const 0, .any⟩,
     ⟨21, 0, .ro, .const 0, .any⟩]⟩,
  ⟨0x010C, [(16, 32)],
    [⟨31, 24, .rc, .const 0, .any⟩,
     ⟨23, 16, .rc, .const 0, .any⟩,
     ⟨15, 8, .rc, .const 0, .any⟩,
     ⟨7, 0, .rc, .const 0, .any⟩]⟩,
  ⟨0x1000, [(64, 64)],
    [⟨31, 31, .rwp, .const 0, .any⟩,
     ⟨30, 30, .rwp, .const 0, .any⟩,
     ⟨29, 29, .rwp, .const 0, .any⟩,
     ⟨28, 24, .rwp, .const 0, .any⟩,
     ⟨23, 10, .rwp, .const 0, .any⟩,
     ⟨9, 6, .rwp, .const 0, .any⟩,
     ⟨5, 5, .rwp, .const 0, .any⟩]⟩,
  ⟨0x1004, [(64, 64)],
    [⟨31, 20, .rwp, .const 0, .any⟩,
     ⟨19, 15, .rwp, .const 0, .any⟩,
     ⟨14, 10, .rwp, .const 0, .any⟩,
     ⟨9, 0, .rwp, .const 0, .any⟩]⟩,
  ⟨0x1008, [(64, 64)],
    [⟨31, 16, .rwp, .const 0, .range 1 65535⟩,
     ⟨15, 0, .rwp, .const 0, .range 2 65535⟩]⟩,
  ⟨0x100C, [(64, 64)],
    [⟨31, 24, .rwp, .const 0, .any⟩,
     ⟨15, 0, .rwp, .const 0, .any⟩]⟩,
  ⟨0x1010, [(64, 64)],
    [⟨23, 0, .rwp, .const 0, .any⟩]⟩,
  ⟨0x1014, [(64, 64)],
    [⟨31, 0, .rw, .const 0, .any⟩]⟩,
  ⟨0x1018, [(64, 64)],
    [⟨31, 0, .rw, .const 0, .any⟩]⟩,
  ⟨0x101C, [(64, 64)],
    [⟨2, 2, .w1s, .const 0, .any⟩,
     ⟨1, 1, .w1s, .const 0, .any⟩,
     ⟨0, 0, .w1s, .const 0, .any⟩]⟩,
  ⟨0x1020, [(64, 64)],
    [⟨31, 29, .ro, .const 0, .any⟩,
     ⟨28, 28, .ro, .const 0, .any⟩,
     ⟨27, 27, .w1c, .const 0, .any⟩,
     ⟨15, 0, .ro, .const 0, .any⟩]⟩,
  ⟨0x1024, [(64, 64)],
    [⟨31, 0, .ro, .const 0, .any⟩]⟩,
  ⟨0x4000, [(8, 1024)],
    [⟨31, 31, .rwp, .const 0, .any⟩,
     ⟨30, 30, .rwp, .const 0, .any⟩,
     ⟨29, 29, .rwp, .const 0, .any⟩,
     ⟨28, 26, .rwp, .const 0, .any⟩,
     ⟨25, 24, .rwp, .const 0, .any⟩,
     ⟨23, 12, .rwp, .const 0, .any⟩,
     ⟨8, 8, .rwp, .const 0, .any⟩,
     ⟨7, 0, .rwp, .const 0, .any⟩]⟩,
  ⟨0x4004, [(8, 1024)],
    [⟨21, 14, .rwp, .const 0, .any⟩,
     ⟨13, 0, .rwp, .const 0, .any⟩]⟩]

/-- Registers of the Drv region (R461). -/
def regsDrv : List RegD := [
  ⟨0x0000, [],
    [⟨23, 16, .ro, .const 0, .any⟩,
     ⟨15, 8, .w1s, .const 0, .any⟩,
     ⟨7, 0, .w1s, .const 0, .any⟩]⟩,
  ⟨0x0004, [],
    [⟨31, 16, .w1c, .const 0, .any⟩,
     ⟨6, 0, .w1c, .const 0, .any⟩]⟩,
  ⟨0x0008, [],
    [⟨31, 31, .rw, .const 0, .any⟩,
     ⟨25, 16, .rw, .const 100, .range 1 1023⟩,
     ⟨8, 8, .rw, .const 0, .any⟩,
     ⟨3, 0, .rw, .const 3, .any⟩]⟩,
  ⟨0x000C, [],
    [⟨31, 0, .wo, .const 0, .any⟩]⟩,
  ⟨0x00F0, [],
    [⟨0, 0, .wo, .const 0, .any⟩]⟩,
  ⟨0x0100, [(16, 16)],
    [⟨31, 31, .rwp, .const 0, .any⟩,
     ⟨30, 30, .rwp, .const 0, .any⟩,
     ⟨29, 29, .rwp, .const 0, .any⟩,
     ⟨27, 24, .rwp, .const 0, .any⟩]⟩,
  ⟨0x0104, [(16, 16)],
    [⟨31, 0, .rwp, .const 0, .any⟩]⟩,
  ⟨0x0108, [(16, 16)],
    [⟨31, 0, .rwp, .const 0, .any⟩]⟩,
  ⟨0x010C, [(16, 16)],
    [⟨31, 0, .rwp, .const 0, .any⟩]⟩,
  ⟨0x1000, [(4, 256)],
    [⟨31, 31, .rwp, .const 0, .any⟩,
     ⟨30, 27, .rwp, .const 0, .any⟩,
     ⟨26, 24, .rwp, .const 0, .any⟩,
     ⟨23, 23, .rwp, .const 0, .any⟩,
     ⟨22, 21, .rwp, .const 0, .range 0 2⟩,
     ⟨20, 13, .rwp, .const 1, .any⟩,
     ⟨11, 0, .rwp, .const 64, .any⟩]⟩,
  ⟨0x1400, [(4, 256)],
    [⟨31, 30, .ro, .const 0, .any⟩,
     ⟨29, 29, .w1s, .const 0, .any⟩,
     ⟨23, 16, .rc, .const 0, .any⟩,
     ⟨15, 0, .ro, .const 0, .any⟩]⟩]

/-- Registers of the Rng region (R461). -/
def regsRng : List RegD := [
  ⟨0x0000, [],
    [⟨3, 2, .ro, .const 0, .any⟩,
     ⟨1, 1, .w1s, .const 0, .any⟩,
     ⟨0, 0, .ro, .const 0, .any⟩]⟩,
  ⟨0x0004, [],
    [⟨25, 0, .rw, .const 0, .any⟩]⟩,
  ⟨0x0008, [],
    [⟨25, 0, .ro, .const 0, .any⟩]⟩,
  ⟨0x000C, [],
    [⟨25, 0, .rw, .const 0, .any⟩]⟩,
  ⟨0x0010, [],
    [⟨25, 0, .ro, .const 0, .any⟩]⟩,
  ⟨0x0014, [],
    [⟨4, 0, .rw, .const 25, .range 16 31⟩]⟩,
  ⟨0x0020, [],
    [⟨12, 8, .rw, .const 0, .any⟩,
     ⟨7, 0, .rw, .const 0, .any⟩]⟩,
  ⟨0x0024, [],
    [⟨31, 0, .ro, .const 0, .any⟩]⟩,
  ⟨0x0028, [],
    [⟨31, 0, .ro, .const 0, .any⟩]⟩,
  ⟨0x002C, [],
    [⟨31, 0, .ro, .const 0, .any⟩]⟩,
  ⟨0x0030, [],
    [⟨31, 0, .ro, .const 0, .any⟩]⟩,
  ⟨0x0034, [],
    [⟨31, 0, .ro, .const 0, .any⟩]⟩,
  ⟨0x0038, [],
    [⟨31, 0, .ro, .const 0, .any⟩]⟩,
  ⟨0x0100, [(4, 26)],
    [⟨24, 16, .ro, .const 0, .any⟩,
     ⟨15, 7, .ro, .const 0, .any⟩,
     ⟨6, 2, .ro, .const 0, .any⟩,
     ⟨1, 1, .ro, .const 0, .any⟩,
     ⟨0, 0, .ro, .const 0, .any⟩]⟩,
  ⟨0x1000, [(256, 26), (128, 2), (4, 26)],
    [⟨2, 2, .rw, .const 1, .any⟩,
     ⟨1, 0, .rw, .route, .any⟩]⟩]

/-- Registers of the Stat region (R461). -/
def regsStat : List RegD := [
  ⟨0x0000, [],
    [⟨0, 0, .w1s, .const 0, .any⟩]⟩,
  ⟨0x0004, [],
    [⟨31, 31, .ro, .const 0, .any⟩,
     ⟨30, 30, .ro, .const 0, .any⟩]⟩,
  ⟨0x0008, [],
    [⟨31, 0, .ro, .const 0, .any⟩]⟩,
  ⟨0x0010, [],
    [⟨31, 0, .ro, .const 0, .any⟩]⟩,
  ⟨0x0014, [],
    [⟨31, 0, .ro, .const 0, .any⟩]⟩,
  ⟨0x0018, [],
    [⟨31, 0, .ro, .const 0, .any⟩]⟩,
  ⟨0x001C, [],
    [⟨31, 0, .ro, .const 0, .any⟩]⟩,
  ⟨0x0100, [(4, 28)],
    [⟨31, 31, .ro, .const 0, .any⟩,
     ⟨30, 30, .ro, .const 0, .any⟩,
     ⟨15, 0, .ro, .const 0, .any⟩]⟩]

/-- Registers of the Sb region (R461). -/
def regsSb : List RegD := [
  ⟨0x0000, [],
    [⟨31, 0, .ro, .const 0, .any⟩]⟩,
  ⟨0x0004, [],
    [⟨1, 0, .rw, .const 0, .range 0 2⟩]⟩,
  ⟨0x0010, [],
    [⟨15, 8, .rw, .const 10, .range 1 255⟩,
     ⟨0, 0, .rw, .const 1, .any⟩]⟩,
  ⟨0x0014, [],
    [⟨31, 24, .rc, .const 0, .any⟩,
     ⟨23, 12, .rc, .const 0, .any⟩,
     ⟨11, 0, .rc, .const 0, .any⟩]⟩,
  ⟨0x0018, [],
    [⟨31, 0, .ro, .const 0, .any⟩]⟩,
  ⟨0x0020, [],
    [⟨31, 30, .ro, .const 0, .any⟩,
     ⟨19, 8, .ro, .const 0, .any⟩,
     ⟨4, 0, .ro, .const 0, .any⟩]⟩,
  ⟨0x0100, [(4, 32)],
    [⟨31, 21, .ro, .const 0, .any⟩,
     ⟨20, 18, .ro, .const 0, .any⟩,
     ⟨17, 17, .w1s, .const 0, .any⟩,
     ⟨16, 16, .rw, .const 0, .any⟩,
     ⟨7, 0, .rw, .const 255, .any⟩]⟩,
  ⟨0x0200, [(4, 32)],
    [⟨27, 16, .rc, .const 0, .any⟩,
     ⟨11, 0, .ro, .const 0, .any⟩]⟩]

/-- Registers of the Lck region (R461). -/
def regsLck : List RegD := [
  ⟨0x0000, [(4, 256)],
    [⟨31, 31, .ro, .const 0, .any⟩,
     ⟨30, 30, .ro, .const 0, .any⟩,
     ⟨16, 16, .wo, .const 0, .any⟩,
     ⟨15, 0, .ro, .const 0, .any⟩]⟩,
  ⟨0x0400, [],
    [⟨7, 0, .wo, .const 0, .any⟩]⟩,
  ⟨0x0500, [(4, 8)],
    [⟨31, 0, .ro, .const 0, .any⟩]⟩,
  ⟨0x0520, [(4, 8)],
    [⟨31, 0, .ro, .const 0, .any⟩]⟩]

/-- Registers of the Hif region (R461). -/
def regsHif : List RegD := [
  ⟨0x0000, [],
    [⟨23, 20, .ro, .const 0, .any⟩,
     ⟨19, 16, .ro, .const 0, .any⟩,
     ⟨2, 2, .ro, .const 0, .any⟩,
     ⟨1, 1, .ro, .const 0, .any⟩,
     ⟨0, 0, .ro, .const 0, .any⟩]⟩,
  ⟨0x0010, [],
    [⟨31, 0, .rwp, .const 0, .any⟩]⟩,
  ⟨0x0014, [],
    [⟨31, 0, .rwp, .const 0, .any⟩]⟩,
  ⟨0x0018, [],
    [⟨31, 0, .rwp, .const 0, .any⟩]⟩,
  ⟨0x001C, [],
    [⟨31, 0, .rwp, .const 0, .any⟩]⟩,
  ⟨0x0020, [],
    [⟨31, 31, .rwp, .const 0, .any⟩,
     ⟨26, 16, .rwp, .const 0, .any⟩,
     ⟨9, 5, .rwp, .const 0, .any⟩,
     ⟨4, 0, .rwp, .const 0, .any⟩]⟩,
  ⟨0x0030, [],
    [⟨31, 16, .ro, .const 1040, .any⟩,
     ⟨4, 0, .rwl, .const 16, .range 1 31⟩]⟩,
  ⟨0x0034, [],
    [⟨12, 0, .ro, .const 0, .any⟩]⟩,
  ⟨0x0038, [],
    [⟨31, 0, .rc, .const 0, .any⟩]⟩,
  ⟨0x00F0, [],
    [⟨0, 0, .wo, .const 0, .any⟩]⟩]

/-- Registers of the Obq region (R461). -/
def regsObq : List RegD := [
  ⟨0x0000, [],
    [⟨31, 0, .rc, .const 0, .any⟩]⟩,
  ⟨0x0100, [(16, 16)],
    [⟨31, 31, .ro, .const 0, .any⟩,
     ⟨27, 16, .ro, .const 0, .any⟩,
     ⟨15, 12, .rc, .const 0, .any⟩,
     ⟨11, 11, .ro, .const 0, .any⟩,
     ⟨10, 0, .ro, .const 0, .any⟩]⟩,
  ⟨0x0104, [(16, 16)],
    [⟨31, 0, .ro, .const 0, .any⟩]⟩,
  ⟨0x4000, [(4, 4096)],
    [⟨31, 31, .rw, .const 0, .any⟩,
     ⟨6, 4, .rw, .const 0, .any⟩,
     ⟨3, 0, .rw, .const 0, .any⟩]⟩]

/-- Registers of the Log region (R461). -/
def regsLog : List RegD := [
  ⟨0x0000, [],
    [⟨23, 16, .ro, .const 0, .any⟩,
     ⟨15, 8, .ro, .const 0, .any⟩,
     ⟨2, 0, .ro, .const 0, .any⟩]⟩,
  ⟨0x0004, [],
    [⟨27, 16, .rw, .const 0, .any⟩,
     ⟨0, 0, .rw, .const 0, .any⟩]⟩,
  ⟨0x0008, [],
    [⟨2, 0, .rw, .const 2, .any⟩]⟩,
  ⟨0x0010, [],
    [⟨31, 0, .ro, .const 0, .any⟩]⟩,
  ⟨0x0014, [],
    [⟨31, 0, .ro, .const 0, .any⟩]⟩,
  ⟨0x0018, [],
    [⟨31, 0, .rc, .const 0, .any⟩]⟩,
  ⟨0x0040, [(4, 8)],
    [⟨31, 31, .ro, .const 0, .any⟩,
     ⟨30, 30, .ro, .const 0, .any⟩,
     ⟨20, 0, .ro, .const 0, .any⟩]⟩,
  ⟨0x00F0, [],
    [⟨0, 0, .wo, .const 0, .any⟩]⟩,
  ⟨0x0100, [(4, 64)],
    [⟨31, 31, .rwp, .const 0, .any⟩,
     ⟨30, 30, .rwp, .const 0, .any⟩,
     ⟨29, 29, .rwp, .const 0, .any⟩,
     ⟨28, 23, .rwp, .const 0, .any⟩,
     ⟨22, 21, .rwp, .const 0, .range 0 2⟩,
     ⟨20, 16, .rwp, .const 0, .range 0 16⟩,
     ⟨15, 11, .rwp, .const 0, .any⟩,
     ⟨10, 6, .rwp, .const 0, .any⟩]⟩]

/-- Registers of the Spn region (R461). -/
def regsSpn : List RegD := [
  ⟨0x0100, [(32, 4)],
    [⟨0, 0, .rw, .const 0, .any⟩]⟩,
  ⟨0x0104, [(32, 4)],
    [⟨31, 29, .ro, .const 0, .any⟩,
     ⟨28, 27, .ro, .const 0, .any⟩,
     ⟨26, 15, .ro, .const 0, .any⟩]⟩,
  ⟨0x0108, [(32, 4)],
    [⟨31, 0, .ro, .const 0, .any⟩]⟩,
  ⟨0x010C, [(32, 4)],
    [⟨31, 20, .rc, .const 0, .any⟩,
     ⟨19, 8, .rc, .const 0, .any⟩,
     ⟨7, 0, .rc, .const 0, .any⟩]⟩,
  ⟨0x00F0, [],
    [⟨0, 0, .wo, .const 0, .any⟩]⟩,
  ⟨0x1000, [(4, 4096)],
    [⟨3, 3, .rwp, .const 0, .any⟩,
     ⟨2, 2, .rwp, .const 0, .any⟩,
     ⟨1, 0, .rwp, .const 0, .any⟩]⟩]

/-- Registers of the Sec region (R461). -/
def regsSec : List RegD := [
  ⟨0x0000, [],
    [⟨4, 4, .ro, .const 0, .any⟩,
     ⟨3, 3, .ro, .const 0, .any⟩,
     ⟨2, 2, .ro, .const 0, .any⟩,
     ⟨1, 1, .ro, .const 0, .any⟩,
     ⟨0, 0, .ro, .const 0, .any⟩]⟩,
  ⟨0x0004, [],
    [⟨31, 0, .ro, .const 0, .any⟩]⟩,
  ⟨0x0008, [],
    [⟨31, 0, .ro, .const 0, .any⟩]⟩,
  ⟨0x000C, [],
    [⟨7, 0, .ro, .const 0, .any⟩]⟩,
  ⟨0x0010, [],
    [⟨15, 0, .rw, .const 256, .any⟩]⟩,
  ⟨0x0014, [],
    [⟨31, 0, .ro, .const 0, .any⟩]⟩,
  ⟨0x0020, [],
    [⟨31, 28, .ro, .const 0, .any⟩,
     ⟨1, 1, .rw, .const 0, .any⟩,
     ⟨0, 0, .w1s, .const 0, .any⟩]⟩,
  ⟨0x0030, [],
    [⟨31, 31, .ro, .const 0, .any⟩,
     ⟨30, 28, .ro, .const 0, .any⟩,
     ⟨9, 8, .rw, .const 0, .any⟩,
     ⟨7, 4, .rw, .const 0, .any⟩,
     ⟨0, 0, .w1s, .const 0, .any⟩]⟩,
  ⟨0x0040, [(4, 8)],
    [⟨31, 0, .rw, .const 0, .any⟩]⟩,
  ⟨0x0100, [(4, 8)],
    [⟨31, 0, .ro, .const 0, .any⟩]⟩,
  ⟨0x0800, [],
    [⟨31, 0, .rw, .const 0, .any⟩]⟩,
  ⟨0x0804, [],
    [⟨19, 0, .rw, .const 0, .any⟩]⟩,
  ⟨0x0808, [],
    [⟨31, 0, .rw, .const 0, .any⟩]⟩,
  ⟨0x080C, [],
    [⟨31, 31, .ro, .const 0, .any⟩,
     ⟨30, 30, .ro, .const 0, .any⟩,
     ⟨0, 0, .w1s, .const 0, .any⟩]⟩,
  ⟨0x0810, [(4, 8)],
    [⟨31, 0, .ro, .const 0, .any⟩]⟩]

/-- Registers of the Sup region (R461). -/
def regsSup : List RegD := [
  ⟨0x0010, [],
    [⟨3, 0, .w1s, .const 0, .any⟩]⟩,
  ⟨0x0100, [(32, 4)],
    [⟨2, 2, .w1s, .const 0, .any⟩,
     ⟨1, 1, .rw, .const 0, .any⟩,
     ⟨0, 0, .rw, .coreRun, .any⟩]⟩,
  ⟨0x0104, [(32, 4)],
    [⟨31, 16, .ro, .const 0, .any⟩,
     ⟨6, 4, .ro, .const 0, .any⟩,
     ⟨2, 0, .ro, .const 0, .any⟩]⟩,
  ⟨0x0108, [(32, 4)],
    [⟨31, 0, .ro, .const 0, .any⟩]⟩,
  ⟨0x010C, [(32, 4)],
    [⟨31, 0, .ro, .const 0, .any⟩]⟩,
  ⟨0x0110, [(32, 4)],
    [⟨28, 28, .ro, .const 0, .any⟩,
     ⟨27, 0, .ro, .const 0, .any⟩]⟩,
  ⟨0x0400, [(4, 64)],
    [⟨31, 31, .rw, .const 0, .any⟩,
     ⟨7, 4, .rw, .const 1, .range 1 14⟩,
     ⟨2, 2, .rw, .const 0, .any⟩,
     ⟨1, 0, .rw, .const 0, .any⟩]⟩]

/-- Registers of the Dbg region (R461). -/
def regsDbg : List RegD := [
  ⟨0x0000, [],
    [⟨31, 30, .ro, .const 0, .any⟩,
     ⟨29, 29, .ro, .const 0, .any⟩,
     ⟨28, 28, .ro, .const 0, .any⟩,
     ⟨27, 24, .ro, .const 0, .any⟩,
     ⟨23, 16, .ro, .const 0, .any⟩,
     ⟨13, 8, .ro, .const 0, .any⟩]⟩,
  ⟨0x0010, [(4, 8)],
    [⟨31, 0, .ro, .const 0, .any⟩]⟩,
  ⟨0x0030, [],
    [⟨0, 0, .w1s, .const 0, .any⟩]⟩,
  ⟨0x0040, [],
    [⟨6, 6, .w1s, .const 0, .any⟩,
     ⟨5, 5, .w1s, .const 0, .any⟩,
     ⟨4, 4, .w1s, .const 0, .any⟩,
     ⟨3, 3, .w1s, .const 0, .any⟩,
     ⟨2, 2, .rw, .const 0, .any⟩,
     ⟨0, 0, .rw, .const 0, .any⟩]⟩,
  ⟨0x0100, [(64, 4)],
    [⟨4, 4, .rw, .const 0, .any⟩,
     ⟨2, 2, .w1s, .const 0, .any⟩,
     ⟨1, 1, .w1s, .const 0, .any⟩,
     ⟨0, 0, .w1s, .const 0, .any⟩]⟩,
  ⟨0x0110, [(64, 4), (8, 4)],
    [⟨31, 2, .rw, .const 0, .any⟩,
     ⟨1, 1, .rw, .const 0, .any⟩,
     ⟨0, 0, .rw, .const 0, .any⟩]⟩,
  ⟨0x0114, [(64, 4), (8, 4)],
    [⟨31, 0, .rw, .const 0, .any⟩]⟩,
  ⟨0x0400, [],
    [⟨31, 16, .w1s, .const 0, .any⟩,
     ⟨15, 0, .w1s, .const 0, .any⟩]⟩,
  ⟨0x0404, [],
    [⟨31, 16, .w1c, .const 0, .any⟩,
     ⟨15, 0, .ro, .const 0, .any⟩]⟩,
  ⟨0x0800, [(64, 16)],
    [⟨31, 31, .w1s, .const 0, .any⟩,
     ⟨4, 0, .rw, .const 0, .range 0 16⟩]⟩,
  ⟨0x0804, [(64, 16)],
    [⟨31, 0, .ro, .const 0, .any⟩]⟩,
  ⟨0x0808, [(64, 16)],
    [⟨31, 0, .ro, .const 0, .any⟩]⟩,
  ⟨0x0810, [(64, 16), (16, 2)],
    [⟨31, 0, .rw, .const 0, .any⟩]⟩,
  ⟨0x0814, [(64, 16), (16, 2)],
    [⟨31, 0, .rw, .const 0, .any⟩]⟩,
  ⟨0x0818, [(64, 16), (16, 2)],
    [⟨31, 0, .rw, .const 0, .any⟩]⟩,
  ⟨0x081C, [(64, 16), (16, 2)],
    [⟨31, 0, .rw, .const 0, .any⟩]⟩,
  ⟨0x0830, [(64, 16)],
    [⟨3, 3, .rw, .const 0, .any⟩,
     ⟨2, 2, .rw, .const 0, .any⟩,
     ⟨1, 1, .rw, .const 0, .any⟩,
     ⟨0, 0, .rw, .const 0, .any⟩]⟩,
  ⟨0x1000, [(4, 768)],
    [⟨31, 0, .wo, .const 0, .any⟩]⟩]

/-- Registers of the Cl region (R461). -/
def regsCl : List RegD := [
  ⟨0x00F0, [],
    [⟨0, 0, .wo, .const 0, .any⟩]⟩,
  ⟨0x0400, [],
    [⟨4, 0, .rw, .const 0, .range 0 16⟩]⟩,
  ⟨0x0410, [],
    [⟨1, 1, .rwp, .const 0, .any⟩,
     ⟨0, 0, .rw, .const 0, .any⟩]⟩,
  ⟨0x0420, [(4, 8)],
    [⟨15, 15, .rwp, .const 0, .any⟩,
     ⟨14, 10, .rwp, .const 0, .any⟩,
     ⟨9, 5, .rwp, .const 0, .any⟩,
     ⟨4, 1, .rwp, .const 0, .any⟩]⟩,
  ⟨0x0440, [],
    [⟨25, 18, .ro, .const 0, .any⟩,
     ⟨17, 0, .ro, .const 0, .any⟩]⟩,
  ⟨0x0450, [],
    [⟨31, 0, .rwp, .const 0, .any⟩]⟩,
  ⟨0x0454, [],
    [⟨31, 0, .rwp, .const 0, .any⟩]⟩,
  ⟨0x0458, [],
    [⟨20, 0, .rwp, .const 0, .range 0 0x100000⟩]⟩,
  ⟨0x045C, [],
    [⟨30, 0, .ro, .const 0, .any⟩]⟩,
  ⟨0x0460, [],
    [⟨14, 11, .rw, .const 8, .any⟩,
     ⟨10, 6, .rw, .const 18, .range 10 26⟩,
     ⟨5, 1, .rw, .const 14, .range 10 24⟩,
     ⟨0, 0, .rw, .const 1, .any⟩]⟩,
  ⟨0x0464, [],
    [⟨31, 30, .ro, .const 0, .any⟩,
     ⟨29, 16, .rc, .const 0, .any⟩,
     ⟨15, 0, .rc, .const 0, .any⟩]⟩,
  ⟨0x0470, [],
    [⟨4, 0, .rw, .const 26, .range 16 31⟩]⟩,
  ⟨0x0480, [],
    [⟨31, 31, .ro, .const 0, .any⟩,
     ⟨21, 14, .ro, .const 0, .any⟩,
     ⟨13, 0, .ro, .const 0, .any⟩]⟩,
  ⟨0x0484, [(4, 3)],
    [⟨31, 16, .ro, .const 0, .any⟩,
     ⟨15, 0, .ro, .const 0, .any⟩]⟩,
  ⟨0x0500, [(4, 17)],
    [⟨25, 13, .rc, .const 0, .any⟩,
     ⟨12, 0, .ro, .const 0, .any⟩]⟩,
  ⟨0x0600, [],
    [⟨5, 4, .rw, .const 0, .range 0 2⟩,
     ⟨3, 3, .rw, .const 0, .any⟩,
     ⟨0, 0, .rw, .const 0, .any⟩]⟩,
  ⟨0x0604, [],
    [⟨31, 20, .rc, .const 0, .any⟩,
     ⟨19, 10, .rc, .const 0, .any⟩,
     ⟨9, 0, .ro, .const 0, .any⟩]⟩,
  ⟨0x0700, [],
    [⟨24, 24, .ro, .const 0, .any⟩,
     ⟨23, 20, .ro, .const 0, .any⟩,
     ⟨16, 0, .ro, .const 0, .any⟩]⟩,
  ⟨0x0800, [],
    [⟨13, 8, .rwp, .const 40, .range 0 60⟩,
     ⟨6, 0, .rwp, .const 64, .range 16 80⟩]⟩,
  ⟨0x0804, [],
    [⟨31, 31, .ro, .const 0, .any⟩,
     ⟨13, 8, .ro, .const 40, .any⟩,
     ⟨6, 0, .ro, .const 64, .any⟩]⟩,
  ⟨0x0900, [],
    [⟨31, 29, .rw, .const 0, .range 0 3⟩,
     ⟨28, 24, .rw, .const 0, .range 0 16⟩,
     ⟨11, 0, .rw, .const 0, .any⟩]⟩,
  ⟨0x0904, [],
    [⟨31, 31, .ro, .const 0, .any⟩,
     ⟨30, 28, .ro, .const 0, .any⟩,
     ⟨1, 1, .w1s, .const 0, .any⟩,
     ⟨0, 0, .w1s, .const 0, .any⟩]⟩,
  ⟨0x0940, [(4, 16)],
    [⟨31, 0, .rw, .const 0, .any⟩]⟩]

/-- Registers of the Rep region (R461). -/
def regsRep : List RegD := [
  ⟨0x0000, [],
    [⟨31, 24, .ro, .const 0, .any⟩,
     ⟨23, 8, .ro, .const 0, .any⟩,
     ⟨7, 4, .ro, .const 0, .any⟩,
     ⟨3, 3, .ro, .const 0, .any⟩,
     ⟨2, 0, .ro, .const 0, .any⟩]⟩,
  ⟨0x0004, [],
    [⟨31, 31, .w1s, .const 0, .any⟩,
     ⟨30, 28, .rw, .const 0, .range 1 4⟩,
     ⟨27, 25, .rw, .const 0, .any⟩,
     ⟨24, 12, .rw, .const 0, .any⟩,
     ⟨11, 0, .rw, .const 0, .any⟩]⟩,
  ⟨0x0008, [],
    [⟨0, 0, .wo, .const 0, .any⟩]⟩,
  ⟨0x000C, [],
    [⟨15, 0, .rw, .const 10, .range 1 65535⟩]⟩,
  ⟨0x0010, [],
    [⟨31, 16, .ro, .const 0, .any⟩,
     ⟨15, 0, .ro, .const 0, .any⟩]⟩,
  ⟨0x0014, [],
    [⟨12, 0, .ro, .const 0, .any⟩]⟩,
  ⟨0x0018, [],
    [⟨7, 0, .rw, .const 60, .range 1 255⟩]⟩]

/-- Registers of the All region (R461). -/
def regsAll : List RegD := [
  ⟨0xF000, [],
    [⟨31, 0, .w1c, .const 0, .any⟩]⟩,
  ⟨0xF004, [],
    [⟨31, 0, .ro, .const 0, .any⟩]⟩,
  ⟨0xF008, [],
    [⟨31, 0, .w1s, .const 0, .any⟩]⟩,
  ⟨0xF00C, [],
    [⟨31, 0, .w1c, .const 0, .any⟩]⟩,
  ⟨0xF010, [],
    [⟨5, 0, .rw, .const 0, .any⟩]⟩,
  ⟨0xF014, [],
    [⟨31, 0, .w1c, .const 0, .any⟩]⟩,
  ⟨0xF018, [],
    [⟨15, 8, .rc, .const 0, .any⟩,
     ⟨3, 0, .ro, .const 0, .any⟩]⟩,
  ⟨0xF01C, [],
    [⟨0, 0, .w1s, .const 0, .any⟩]⟩,
  ⟨0xF020, [(4, 8)],
    [⟨31, 0, .ro, .const 0, .any⟩]⟩,
  ⟨0xF100, [(4, 32)],
    [⟨20, 16, .rw, .fltCfg, .any⟩,
     ⟨15, 8, .rw, .fltCfg, .any⟩,
     ⟨6, 4, .rw, .fltCfg, .range 0 5⟩,
     ⟨2, 0, .rw, .fltCfg, .range 0 5⟩]⟩,
  ⟨0xF200, [(4, 32)],
    [⟨31, 24, .ro, .const 0, .any⟩,
     ⟨23, 0, .rc, .const 0, .any⟩]⟩,
  ⟨0xF300, [(8, 32)],
    [⟨31, 0, .w1c, .const 0, .any⟩]⟩,
  ⟨0xF304, [(8, 32)],
    [⟨31, 0, .w1c, .const 0, .any⟩]⟩]

/-- FLTCAUSEc of the CNV region: `c` is the cause code less 0x40 (R379). -/
def regsCnvCause : List RegD := [
  ⟨0xF400, [(4, 64)],
    [⟨20, 16, .rw, .fltCause, .any⟩,
     ⟨15, 8, .rw, .fltCause, .any⟩,
     ⟨6, 4, .rw, .fltCause, .range 0 5⟩,
     ⟨2, 0, .rw, .fltCause, .range 0 5⟩]⟩]

/-- FLTCAUSEc of a cluster's region: `c` is a cause code, 0x01 to 0x3F (R379). -/
def regsClCause : List RegD := [
  ⟨0xF404, [(4, 63)],
    [⟨20, 16, .rw, .fltCause, .any⟩,
     ⟨15, 8, .rw, .fltCause, .any⟩,
     ⟨6, 4, .rw, .fltCause, .range 0 5⟩,
     ⟨2, 0, .rw, .fltCause, .range 0 5⟩]⟩]

/-- The registers found in block `b` (0 to 16 the blocks of R452 in the order of R307, 17 + n the cluster n,
33 REP), the fault register group among them (R379). -/
def regsOf (b : Nat) : List RegD :=
  (match b with
   | 0 => regsGen
   | 1 => regsPwr
   | 2 => regsClk
   | 3 => regsPh
   | 4 => regsCnv
   | 5 => regsDrv
   | 6 => regsRng
   | 7 => regsStat
   | 8 => regsSb
   | 9 => regsLck
   | 10 => regsHif
   | 11 => regsObq
   | 12 => regsLog
   | 13 => regsSpn
   | 14 => regsSec
   | 15 => regsSup
   | 16 => regsDbg
   | 33 => regsRep
   | _ => regsCl) ++ regsAll ++ (if b = 4 then regsCnvCause else if 17 ≤ b ∧ b ≤ 32 then regsClCause else [])

namespace F

/-- GEN_ID.PART, bits 31:16, RO. -/
def genIdPart : Fld := ⟨0, 0x0, 16, 16, 37888⟩
/-- GEN_ID.VARIANT, bits 15:12, RO. -/
def genIdVariant : Fld := ⟨0, 0x0, 12, 4, 0⟩
/-- GEN_ID.STEPPING, bits 11:8, RO. -/
def genIdStepping : Fld := ⟨0, 0x0, 8, 4, 0⟩
/-- GEN_PROFILE.SEL, bits 0:0, RW. -/
def genProfileSel : Fld := ⟨0, 0x10, 0, 1, 0⟩
/-- GEN_PROFSTAT.DOWNGRADED, bits 2:2, RO. -/
def genProfstatDowngraded : Fld := ⟨0, 0x14, 2, 1, 0⟩
/-- GEN_PROFSTAT.PENDING, bits 1:1, RO. -/
def genProfstatPending : Fld := ⟨0, 0x14, 1, 1, 0⟩
/-- GEN_PROFSTAT.ACTIVE, bits 0:0, RO. -/
def genProfstatActive : Fld := ⟨0, 0x14, 0, 1, 0⟩
/-- GEN_DEVNUM.DEV, bits 11:0, RWL. -/
def genDevnumDev : Fld := ⟨0, 0x20, 0, 12, 0⟩
/-- GEN_QUIESCE.REFUSE, bits 7:4, RO. -/
def genQuiesceRefuse : Fld := ⟨0, 0x30, 4, 4, 0⟩
/-- GEN_QUIESCE.DONE, bits 3:3, RO. -/
def genQuiesceDone : Fld := ⟨0, 0x30, 3, 1, 0⟩
/-- GEN_QUIESCE.BUSY, bits 2:2, RO. -/
def genQuiesceBusy : Fld := ⟨0, 0x30, 2, 1, 0⟩
/-- GEN_QUIESCE.RESUME, bits 1:1, W1S. -/
def genQuiesceResume : Fld := ⟨0, 0x30, 1, 1, 0⟩
/-- GEN_QUIESCE.REQ, bits 0:0, W1S. -/
def genQuiesceReq : Fld := ⟨0, 0x30, 0, 1, 0⟩
/-- GEN_DEVRESET.KEY, bits 15:0, WO. -/
def genDevresetKey : Fld := ⟨0, 0x40, 0, 16, 0⟩
/-- GEN_RESETCAUSE.COUNT, bits 31:16, RO. -/
def genResetcauseCount : Fld := ⟨0, 0x44, 16, 16, 0⟩
/-- GEN_RESETCAUSE.CAUSE, bits 1:0, RO. -/
def genResetcauseCause : Fld := ⟨0, 0x44, 0, 2, 0⟩
/-- GEN_COMMIT.COMMIT, bits 0:0, WO. -/
def genCommitCommit : Fld := ⟨0, 0xF0, 0, 1, 0⟩
/-- PWR_LEDGER.WAITING, bits 31:24, RO. -/
def pwrLedgerWaiting : Fld := ⟨1, 0x0, 24, 8, 0⟩
/-- PWR_LEDGER.DEFERRED, bits 23:12, RC. -/
def pwrLedgerDeferred : Fld := ⟨1, 0x0, 12, 12, 0⟩
/-- PWR_LEDGER.LATE, bits 11:0, RC. -/
def pwrLedgerLate : Fld := ⟨1, 0x0, 0, 12, 0⟩
/-- PWR_SLEWBUDGET.APUS, bits 9:0, RW. -/
def pwrSlewbudgetApus : Fld := ⟨1, 0x4, 0, 10, 200⟩
/-- PWR_QBUDGET.TWIN, bits 23:16, RW. -/
def pwrQbudgetTwin : Fld := ⟨1, 0x8, 16, 8, 20⟩
/-- PWR_QBUDGET.Q, bits 15:0, RW. -/
def pwrQbudgetQ : Fld := ⟨1, 0x8, 0, 16, 40⟩
/-- PWR_STEP.AUX, bits 23:16, RW. -/
def pwrStepAux : Fld := ⟨1, 0xC, 16, 8, 30⟩
/-- PWR_STEP.BG, bits 15:8, RW. -/
def pwrStepBg : Fld := ⟨1, 0xC, 8, 8, 25⟩
/-- PWR_STEP.CL, bits 7:0, RW. -/
def pwrStepCl : Fld := ⟨1, 0xC, 0, 8, 80⟩
/-- PWR_SELCFG.VELM, bits 31:24, RW. -/
def pwrSelcfgVelm : Fld := ⟨1, 0x10, 24, 8, 4⟩
/-- PWR_SELCFG.IDLEWIN, bits 23:8, RW. -/
def pwrSelcfgIdlewin : Fld := ⟨1, 0x10, 8, 16, 256⟩
/-- PWR_SELCFG.GUARD, bits 7:0, RW. -/
def pwrSelcfgGuard : Fld := ⟨1, 0x10, 0, 8, 5⟩
/-- PWR_MARGIN.FILT, bits 15:8, RW. -/
def pwrMarginFilt : Fld := ⟨1, 0x14, 8, 8, 50⟩
/-- PWR_MARGIN.VMIN, bits 7:0, RW. -/
def pwrMarginVmin : Fld := ⟨1, 0x14, 0, 8, 40⟩
/-- PWR_AUXCFG.OFFEN, bits 2:0, RW. -/
def pwrAuxcfgOffen : Fld := ⟨1, 0x18, 0, 3, 0⟩
/-- PWR_DEPTH.MNPOL, bits 3:3, RW. -/
def pwrDepthMnpol (i : Nat) : Fld := ⟨1, 0x100 + 4 * i, 3, 1, 0⟩
/-- PWR_DEPTH.DEPTH, bits 2:0, RW. -/
def pwrDepthDepth (i : Nat) : Fld := ⟨1, 0x100 + 4 * i, 0, 3, 1⟩
/-- PWR_BGDEPTH.DEPTH, bits 2:0, RW. -/
def pwrBgdepthDepth (i : Nat) : Fld := ⟨1, 0x140 + 4 * i, 0, 3, 0⟩
/-- PWR_DOMSTAT.WAITING, bits 31:31, RO. -/
def pwrDomstatWaiting (i : Nat) : Fld := ⟨1, 0x200 + 4 * i, 31, 1, 0⟩
/-- PWR_DOMSTAT.GOVLIM, bits 30:30, RO. -/
def pwrDomstatGovlim (i : Nat) : Fld := ⟨1, 0x200 + 4 * i, 30, 1, 0⟩
/-- PWR_DOMSTAT.STATE, bits 29:27, RO. -/
def pwrDomstatState (i : Nat) : Fld := ⟨1, 0x200 + 4 * i, 27, 3, 0⟩
/-- PWR_DOMSTAT.NEXT, bits 26:24, RO. -/
def pwrDomstatNext (i : Nat) : Fld := ⟨1, 0x200 + 4 * i, 24, 3, 0⟩
/-- PWR_DOMSTAT.TNEXT, bits 23:0, RO. -/
def pwrDomstatTnext (i : Nat) : Fld := ⟨1, 0x200 + 4 * i, 0, 24, 16777215⟩
/-- CLK_LOCK.LOCK, bits 24:0, RO. -/
def clkLockLock : Fld := ⟨2, 0x0, 0, 25, 1⟩
/-- CLK_REFSTAT.PRESENT, bits 2:0, RO. -/
def clkRefstatPresent : Fld := ⟨2, 0x4, 0, 3, 1⟩
/-- PH_SUM.STALLED, bits 31:16, RO. -/
def phSumStalled : Fld := ⟨3, 0x0, 16, 16, 0⟩
/-- PH_SUM.LOCKED, bits 15:0, RO. -/
def phSumLocked : Fld := ⟨3, 0x0, 0, 16, 0⟩
/-- PH_EXPORT.INT, bits 23:16, RW. -/
def phExportInt : Fld := ⟨3, 0x8, 16, 8, 20⟩
/-- PH_EXPORT.EN, bits 15:0, RW. -/
def phExportEn : Fld := ⟨3, 0x8, 0, 16, 0⟩
/-- PH_COMMIT.COMMIT, bits 0:0, WO. -/
def phCommitCommit : Fld := ⟨3, 0xF0, 0, 1, 0⟩
/-- PH_SRCCFG.ALT, bits 31:28, RWP. -/
def phSrccfgAlt (i : Nat) : Fld := ⟨3, 0x100 + 64 * i, 28, 4, 0⟩
/-- PH_SRCCFG.ALTEN, bits 27:27, RWP. -/
def phSrccfgAlten (i : Nat) : Fld := ⟨3, 0x100 + 64 * i, 27, 1, 0⟩
/-- PH_SRCCFG.EDGETO, bits 26:24, RW. -/
def phSrccfgEdgeto (i : Nat) : Fld := ⟨3, 0x100 + 64 * i, 24, 3, 0⟩
/-- PH_SRCCFG.NEXP, bits 23:20, RW. -/
def phSrccfgNexp (i : Nat) : Fld := ⟨3, 0x100 + 64 * i, 20, 4, 3⟩
/-- PH_SRCCFG.FILT, bits 19:16, RWP. -/
def phSrccfgFilt (i : Nat) : Fld := ⟨3, 0x100 + 64 * i, 16, 4, 2⟩
/-- PH_SRCCFG.NOONMODE, bits 15:14, RWP. -/
def phSrccfgNoonmode (i : Nat) : Fld := ⟨3, 0x100 + 64 * i, 14, 2, 0⟩
/-- PH_SRCCFG.REVDB, bits 13:12, RW. -/
def phSrccfgRevdb (i : Nat) : Fld := ⟨3, 0x100 + 64 * i, 12, 2, 0⟩
/-- PH_SRCCFG.DIRINV, bits 11:11, RWP. -/
def phSrccfgDirinv (i : Nat) : Fld := ⟨3, 0x100 + 64 * i, 11, 1, 0⟩
/-- PH_SRCCFG.INPUT, bits 7:4, RWP. -/
def phSrccfgInput (i : Nat) : Fld := ⟨3, 0x100 + 64 * i, 4, 4, i⟩
/-- PH_SRCCFG.TYPE, bits 3:0, RWP. -/
def phSrccfgType (i : Nat) : Fld := ⟨3, 0x100 + 64 * i, 0, 4, 0⟩
/-- PH_SRCCPT.CPTM1, bits 23:0, RWP. -/
def phSrccptCptm1 (i : Nat) : Fld := ⟨3, 0x104 + 64 * i, 0, 24, 0⟩
/-- PH_SRCAUX.AUX, bits 23:0, RWP. -/
def phSrcauxAux (i : Nat) : Fld := ⟨3, 0x108 + 64 * i, 0, 24, 0⟩
/-- PH_SRCRATIO.RATIO, bits 31:0, RWP. -/
def phSrcratioRatio (i : Nat) : Fld := ⟨3, 0x10C + 64 * i, 0, 32, 65536⟩
/-- PH_SRCTIME.VWIN, bits 31:24, RW. -/
def phSrctimeVwin (i : Nat) : Fld := ⟨3, 0x110 + 64 * i, 24, 8, 10⟩
/-- PH_SRCTIME.HORIZON, bits 23:0, RW. -/
def phSrctimeHorizon (i : Nat) : Fld := ⟨3, 0x110 + 64 * i, 0, 24, 1000⟩
/-- PH_SRCNOON.NOONTOL, bits 23:0, RW. -/
def phSrcnoonNoontol (i : Nat) : Fld := ⟨3, 0x114 + 64 * i, 0, 24, 0⟩
/-- PH_SRCSTAT.REVERSALS, bits 31:16, RC. -/
def phSrcstatReversals (i : Nat) : Fld := ⟨3, 0x118 + 64 * i, 16, 16, 0⟩
/-- PH_SRCSTAT.GLITCHED, bits 7:7, W1C. -/
def phSrcstatGlitched (i : Nat) : Fld := ⟨3, 0x118 + 64 * i, 7, 1, 0⟩
/-- PH_SRCSTAT.HOMED, bits 6:6, RO. -/
def phSrcstatHomed (i : Nat) : Fld := ⟨3, 0x118 + 64 * i, 6, 1, 0⟩
/-- PH_SRCSTAT.SWITCHED, bits 5:5, RO. -/
def phSrcstatSwitched (i : Nat) : Fld := ⟨3, 0x118 + 64 * i, 5, 1, 0⟩
/-- PH_SRCSTAT.DIR, bits 4:4, RO. -/
def phSrcstatDir (i : Nat) : Fld := ⟨3, 0x118 + 64 * i, 4, 1, 0⟩
/-- PH_SRCSTAT.STATE, bits 2:0, RO. -/
def phSrcstatState (i : Nat) : Fld := ⟨3, 0x118 + 64 * i, 0, 3, 0⟩
/-- PH_SRCNOONERR.ERR, bits 31:0, RO. -/
def phSrcnoonerrErr (i : Nat) : Fld := ⟨3, 0x11C + 64 * i, 0, 32, 0⟩
/-- PH_SRCPHLO.VALUE, bits 31:0, RO. -/
def phSrcphloValue (i : Nat) : Fld := ⟨3, 0x120 + 64 * i, 0, 32, 0⟩
/-- PH_SRCPHHI.VALUE, bits 31:0, RO. -/
def phSrcphhiValue (i : Nat) : Fld := ⟨3, 0x124 + 64 * i, 0, 32, 0⟩
/-- PH_SRCVELLO.VALUE, bits 31:0, RO. -/
def phSrcvelloValue (i : Nat) : Fld := ⟨3, 0x128 + 64 * i, 0, 32, 0⟩
/-- PH_SRCVELHI.VALUE, bits 31:0, RO. -/
def phSrcvelhiValue (i : Nat) : Fld := ⟨3, 0x12C + 64 * i, 0, 32, 0⟩
/-- PH_SRCEVENTS.COUNT, bits 31:0, RO. -/
def phSrceventsCount (i : Nat) : Fld := ⟨3, 0x130 + 64 * i, 0, 32, 0⟩
/-- CNV_PLLCFG.LOCK, bits 31:31, RO. -/
def cnvPllcfgLock : Fld := ⟨4, 0x0, 31, 1, 0⟩
/-- CNV_PLLCFG.PLLMUL, bits 7:0, RWP. -/
def cnvPllcfgPllmul : Fld := ⟨4, 0x0, 0, 8, 0⟩
/-- CNV_COMMIT.COMMIT, bits 0:0, WO. -/
def cnvCommitCommit : Fld := ⟨4, 0xF0, 0, 1, 0⟩
/-- CNV_PORTCFG.EN, bits 31:31, RWP. -/
def cnvPortcfgEn (i : Nat) : Fld := ⟨4, 0x100 + 16 * i, 31, 1, 0⟩
/-- CNV_PORTCFG.SRC, bits 30:27, RWP. -/
def cnvPortcfgSrc (i : Nat) : Fld := ⟨4, 0x100 + 16 * i, 27, 4, 0⟩
/-- CNV_PORTCFG.CPL, bits 26:22, RWP. -/
def cnvPortcfgCpl (i : Nat) : Fld := ⟨4, 0x100 + 16 * i, 22, 5, 0⟩
/-- CNV_PORTCFG.OPL, bits 21:19, RWP. -/
def cnvPortcfgOpl (i : Nat) : Fld := ⟨4, 0x100 + 16 * i, 19, 3, 0⟩
/-- CNV_PORTCFG.SUBPOL, bits 18:18, RWP. -/
def cnvPortcfgSubpol (i : Nat) : Fld := ⟨4, 0x100 + 16 * i, 18, 1, 0⟩
/-- CNV_PORTCFG.FLEN, bits 17:10, RWP. -/
def cnvPortcfgFlen (i : Nat) : Fld := ⟨4, 0x100 + 16 * i, 10, 8, 0⟩
/-- CNV_PORTCFG.BITDIV, bits 9:0, RWP. -/
def cnvPortcfgBitdiv (i : Nat) : Fld := ⟨4, 0x100 + 16 * i, 0, 10, 0⟩
/-- CNV_PORTTIME.STAMPOFS, bits 31:16, RW. -/
def cnvPorttimeStampofs (i : Nat) : Fld := ⟨4, 0x104 + 16 * i, 16, 16, 0⟩
/-- CNV_PORTSTAT.SYNC, bits 31:31, RO. -/
def cnvPortstatSync (i : Nat) : Fld := ⟨4, 0x108 + 16 * i, 31, 1, 0⟩
/-- CNV_PORTSTAT.SEQ, bits 21:0, RO. -/
def cnvPortstatSeq (i : Nat) : Fld := ⟨4, 0x108 + 16 * i, 0, 22, 0⟩
/-- CNV_PORTCNT.CRCERR, bits 31:24, RC. -/
def cnvPortcntCrcerr (i : Nat) : Fld := ⟨4, 0x10C + 16 * i, 24, 8, 0⟩
/-- CNV_PORTCNT.MISSED, bits 23:16, RC. -/
def cnvPortcntMissed (i : Nat) : Fld := ⟨4, 0x10C + 16 * i, 16, 8, 0⟩
/-- CNV_PORTCNT.UNBOUND, bits 15:8, RC. -/
def cnvPortcntUnbound (i : Nat) : Fld := ⟨4, 0x10C + 16 * i, 8, 8, 0⟩
/-- CNV_PORTCNT.DUPL, bits 7:0, RC. -/
def cnvPortcntDupl (i : Nat) : Fld := ⟨4, 0x10C + 16 * i, 0, 8, 0⟩
/-- CNV_CAPCFG.EN, bits 31:31, RWP. -/
def cnvCapcfgEn (i : Nat) : Fld := ⟨4, 0x1000 + 64 * i, 31, 1, 0⟩
/-- CNV_CAPCFG.MODE, bits 30:30, RWP. -/
def cnvCapcfgMode (i : Nat) : Fld := ⟨4, 0x1000 + 64 * i, 30, 1, 0⟩
/-- CNV_CAPCFG.MARKSEL, bits 29:29, RWP. -/
def cnvCapcfgMarksel (i : Nat) : Fld := ⟨4, 0x1000 + 64 * i, 29, 1, 0⟩
/-- CNV_CAPCFG.BANK, bits 28:24, RWP. -/
def cnvCapcfgBank (i : Nat) : Fld := ⟨4, 0x1000 + 64 * i, 24, 5, 0⟩
/-- CNV_CAPCFG.OFFSET, bits 23:10, RWP. -/
def cnvCapcfgOffset (i : Nat) : Fld := ⟨4, 0x1000 + 64 * i, 10, 14, 0⟩
/-- CNV_CAPCFG.TRIGSRC, bits 9:6, RWP. -/
def cnvCapcfgTrigsrc (i : Nat) : Fld := ⟨4, 0x1000 + 64 * i, 6, 4, 0⟩
/-- CNV_CAPCFG.SLOPE, bits 5:5, RWP. -/
def cnvCapcfgSlope (i : Nat) : Fld := ⟨4, 0x1000 + 64 * i, 5, 1, 0⟩
/-- CNV_CAPCH.OBQ, bits 31:20, RWP. -/
def cnvCapchObq (i : Nat) : Fld := ⟨4, 0x1004 + 64 * i, 20, 12, 0⟩
/-- CNV_CAPCH.NCHM1, bits 19:15, RWP. -/
def cnvCapchNchm1 (i : Nat) : Fld := ⟨4, 0x1004 + 64 * i, 15, 5, 0⟩
/-- CNV_CAPCH.TRIGOFF, bits 14:10, RWP. -/
def cnvCapchTrigoff (i : Nat) : Fld := ⟨4, 0x1004 + 64 * i, 10, 5, 0⟩
/-- CNV_CAPCH.FIRST, bits 9:0, RWP. -/
def cnvCapchFirst (i : Nat) : Fld := ⟨4, 0x1004 + 64 * i, 0, 10, 0⟩
/-- CNV_CAPSIZE.POST, bits 31:16, RWP. -/
def cnvCapsizePost (i : Nat) : Fld := ⟨4, 0x1008 + 64 * i, 16, 16, 0⟩
/-- CNV_CAPSIZE.SIZE, bits 15:0, RWP. -/
def cnvCapsizeSize (i : Nat) : Fld := ⟨4, 0x1008 + 64 * i, 0, 16, 0⟩
/-- CNV_CAPPRE.STATMASK, bits 31:24, RWP. -/
def cnvCappreStatmask (i : Nat) : Fld := ⟨4, 0x100C + 64 * i, 24, 8, 0⟩
/-- CNV_CAPPRE.PRE, bits 15:0, RWP. -/
def cnvCapprePre (i : Nat) : Fld := ⟨4, 0x100C + 64 * i, 0, 16, 0⟩
/-- CNV_CAPLEVEL.LEVEL, bits 23:0, RWP. -/
def cnvCaplevelLevel (i : Nat) : Fld := ⟨4, 0x1010 + 64 * i, 0, 24, 0⟩
/-- CNV_CAPTPHLO.TRIGPH, bits 31:0, RW. -/
def cnvCaptphloTrigph (i : Nat) : Fld := ⟨4, 0x1014 + 64 * i, 0, 32, 0⟩
/-- CNV_CAPTPHHI.TRIGPH, bits 31:0, RW. -/
def cnvCaptphhiTrigph (i : Nat) : Fld := ⟨4, 0x1018 + 64 * i, 0, 32, 0⟩
/-- CNV_CAPCTL.STOP, bits 2:2, W1S. -/
def cnvCapctlStop (i : Nat) : Fld := ⟨4, 0x101C + 64 * i, 2, 1, 0⟩
/-- CNV_CAPCTL.TRIG, bits 1:1, W1S. -/
def cnvCapctlTrig (i : Nat) : Fld := ⟨4, 0x101C + 64 * i, 1, 1, 0⟩
/-- CNV_CAPCTL.ARM, bits 0:0, W1S. -/
def cnvCapctlArm (i : Nat) : Fld := ⟨4, 0x101C + 64 * i, 0, 1, 0⟩
/-- CNV_CAPSTAT.STATE, bits 31:29, RO. -/
def cnvCapstatState (i : Nat) : Fld := ⟨4, 0x1020 + 64 * i, 29, 3, 0⟩
/-- CNV_CAPSTAT.MARKVALID, bits 28:28, RO. -/
def cnvCapstatMarkvalid (i : Nat) : Fld := ⟨4, 0x1020 + 64 * i, 28, 1, 0⟩
/-- CNV_CAPSTAT.HISTSHORT, bits 27:27, W1C. -/
def cnvCapstatHistshort (i : Nat) : Fld := ⟨4, 0x1020 + 64 * i, 27, 1, 0⟩
/-- CNV_CAPSTAT.WRPTR, bits 15:0, RO. -/
def cnvCapstatWrptr (i : Nat) : Fld := ⟨4, 0x1020 + 64 * i, 0, 16, 0⟩
/-- CNV_CAPTOTAL.TOTAL, bits 31:0, RO. -/
def cnvCaptotalTotal (i : Nat) : Fld := ⟨4, 0x1024 + 64 * i, 0, 32, 0⟩
/-- CNV_CHBINDLO.EN, bits 31:31, RWP. -/
def cnvChbindloEn (i : Nat) : Fld := ⟨4, 0x4000 + 8 * i, 31, 1, 0⟩
/-- CNV_CHBINDLO.STAMP, bits 30:30, RWP. -/
def cnvChbindloStamp (i : Nat) : Fld := ⟨4, 0x4000 + 8 * i, 30, 1, 0⟩
/-- CNV_CHBINDLO.ITERSEL, bits 29:29, RWP. -/
def cnvChbindloItersel (i : Nat) : Fld := ⟨4, 0x4000 + 8 * i, 29, 1, 0⟩
/-- CNV_CHBINDLO.PRI, bits 28:26, RWP. -/
def cnvChbindloPri (i : Nat) : Fld := ⟨4, 0x4000 + 8 * i, 26, 3, 0⟩
/-- CNV_CHBINDLO.PORT, bits 25:24, RWP. -/
def cnvChbindloPort (i : Nat) : Fld := ⟨4, 0x4000 + 8 * i, 24, 2, 0⟩
/-- CNV_CHBINDLO.IA, bits 23:12, RWP. -/
def cnvChbindloIa (i : Nat) : Fld := ⟨4, 0x4000 + 8 * i, 12, 12, 0⟩
/-- CNV_CHBINDLO.OVRF, bits 8:8, RWP. -/
def cnvChbindloOvrf (i : Nat) : Fld := ⟨4, 0x4000 + 8 * i, 8, 1, 0⟩
/-- CNV_CHBINDLO.PE, bits 7:0, RWP. -/
def cnvChbindloPe (i : Nat) : Fld := ⟨4, 0x4000 + 8 * i, 0, 8, 0⟩
/-- CNV_CHBINDHI.GEN, bits 21:14, RWP. -/
def cnvChbindhiGen (i : Nat) : Fld := ⟨4, 0x4004 + 8 * i, 14, 8, 0⟩
/-- CNV_CHBINDHI.CTX, bits 13:0, RWP. -/
def cnvChbindhiCtx (i : Nat) : Fld := ⟨4, 0x4004 + 8 * i, 0, 14, 0⟩
/-- DRV_ENABLE.ASSERTED, bits 23:16, RO. -/
def drvEnableAsserted : Fld := ⟨5, 0x0, 16, 8, 0⟩
/-- DRV_ENABLE.OFF, bits 15:8, W1S. -/
def drvEnableOff : Fld := ⟨5, 0x0, 8, 8, 0⟩
/-- DRV_ENABLE.ON, bits 7:0, W1S. -/
def drvEnableOn : Fld := ⟨5, 0x0, 0, 8, 0⟩
/-- DRV_ABORTSTAT.STALL, bits 31:16, W1C. -/
def drvAbortstatStall : Fld := ⟨5, 0x4, 16, 16, 0⟩
/-- DRV_ABORTSTAT.CAUSE, bits 6:0, W1C. -/
def drvAbortstatCause : Fld := ⟨5, 0x4, 0, 7, 0⟩
/-- DRV_SAFECFG.HBEN, bits 31:31, RW. -/
def drvSafecfgHben : Fld := ⟨5, 0x8, 31, 1, 0⟩
/-- DRV_SAFECFG.HBTO, bits 25:16, RW. -/
def drvSafecfgHbto : Fld := ⟨5, 0x8, 16, 10, 100⟩
/-- DRV_SAFECFG.PINPROP, bits 8:8, RW. -/
def drvSafecfgPinprop : Fld := ⟨5, 0x8, 8, 1, 0⟩
/-- DRV_SAFECFG.PINFILT, bits 3:0, RW. -/
def drvSafecfgPinfilt : Fld := ⟨5, 0x8, 0, 4, 3⟩
/-- DRV_HEARTBEAT.BEAT, bits 31:0, WO. -/
def drvHeartbeatBeat : Fld := ⟨5, 0xC, 0, 32, 0⟩
/-- DRV_COMMIT.COMMIT, bits 0:0, WO. -/
def drvCommitCommit : Fld := ⟨5, 0xF0, 0, 1, 0⟩
/-- DRV_SCHEDCFG.EN, bits 31:31, RWP. -/
def drvSchedcfgEn (i : Nat) : Fld := ⟨5, 0x100 + 16 * i, 31, 1, 0⟩
/-- DRV_SCHEDCFG.MODE, bits 30:30, RWP. -/
def drvSchedcfgMode (i : Nat) : Fld := ⟨5, 0x100 + 16 * i, 30, 1, 0⟩
/-- DRV_SCHEDCFG.CMODE, bits 29:29, RWP. -/
def drvSchedcfgCmode (i : Nat) : Fld := ⟨5, 0x100 + 16 * i, 29, 1, 0⟩
/-- DRV_SCHEDCFG.SRC, bits 27:24, RWP. -/
def drvSchedcfgSrc (i : Nat) : Fld := ⟨5, 0x100 + 16 * i, 24, 4, 0⟩
/-- DRV_SCHEDBASELO.BASE, bits 31:0, RWP. -/
def drvSchedbaseloBase (i : Nat) : Fld := ⟨5, 0x104 + 16 * i, 0, 32, 0⟩
/-- DRV_SCHEDBASEHI.BASE, bits 31:0, RWP. -/
def drvSchedbasehiBase (i : Nat) : Fld := ⟨5, 0x108 + 16 * i, 0, 32, 0⟩
/-- DRV_SCHEDSTEP.STEP, bits 31:0, RWP. -/
def drvSchedstepStep (i : Nat) : Fld := ⟨5, 0x10C + 16 * i, 0, 32, 0⟩
/-- DRV_CHCFG.EN, bits 31:31, RWP. -/
def drvChcfgEn (i : Nat) : Fld := ⟨5, 0x1000 + 4 * i, 31, 1, 0⟩
/-- DRV_CHCFG.SCHED, bits 30:27, RWP. -/
def drvChcfgSched (i : Nat) : Fld := ⟨5, 0x1000 + 4 * i, 27, 4, 0⟩
/-- DRV_CHCFG.GRP, bits 26:24, RWP. -/
def drvChcfgGrp (i : Nat) : Fld := ⟨5, 0x1000 + 4 * i, 24, 3, 0⟩
/-- DRV_CHCFG.SHAPE, bits 23:23, RWP. -/
def drvChcfgShape (i : Nat) : Fld := ⟨5, 0x1000 + 4 * i, 23, 1, 0⟩
/-- DRV_CHCFG.UNDERPOL, bits 22:21, RWP. -/
def drvChcfgUnderpol (i : Nat) : Fld := ⟨5, 0x1000 + 4 * i, 21, 2, 0⟩
/-- DRV_CHCFG.QUNITS, bits 20:13, RWP. -/
def drvChcfgQunits (i : Nat) : Fld := ⟨5, 0x1000 + 4 * i, 13, 8, 1⟩
/-- DRV_CHCFG.RAMPLEN, bits 11:0, RWP. -/
def drvChcfgRamplen (i : Nat) : Fld := ⟨5, 0x1000 + 4 * i, 0, 12, 64⟩
/-- DRV_CHSTAT.STATE, bits 31:30, RO. -/
def drvChstatState (i : Nat) : Fld := ⟨5, 0x1400 + 4 * i, 30, 2, 0⟩
/-- DRV_CHSTAT.RECOVER, bits 29:29, W1S. -/
def drvChstatRecover (i : Nat) : Fld := ⟨5, 0x1400 + 4 * i, 29, 1, 0⟩
/-- DRV_CHSTAT.DISCARDS, bits 23:16, RC. -/
def drvChstatDiscards (i : Nat) : Fld := ⟨5, 0x1400 + 4 * i, 16, 8, 0⟩
/-- DRV_CHSTAT.QDEPTH, bits 15:0, RO. -/
def drvChstatQdepth (i : Nat) : Fld := ⟨5, 0x1400 + 4 * i, 0, 16, 0⟩
/-- RNG_EPOCH.STATE, bits 3:2, RO. -/
def rngEpochState : Fld := ⟨6, 0x0, 2, 2, 0⟩
/-- RNG_EPOCH.START, bits 1:1, W1S. -/
def rngEpochStart : Fld := ⟨6, 0x0, 1, 1, 0⟩
/-- RNG_EPOCH.CUR, bits 0:0, RO. -/
def rngEpochCur : Fld := ⟨6, 0x0, 0, 1, 0⟩
/-- RNG_CHGMASK.MASK, bits 25:0, RW. -/
def rngChgmaskMask : Fld := ⟨6, 0x4, 0, 26, 0⟩
/-- RNG_BYPASS.BYP, bits 25:0, RO. -/
def rngBypassByp : Fld := ⟨6, 0x8, 0, 26, 0⟩
/-- RNG_BYPNEXT.BYP, bits 25:0, RW. -/
def rngBypnextByp : Fld := ⟨6, 0xC, 0, 26, 0⟩
/-- RNG_DRAIN.RES, bits 25:0, RO. -/
def rngDrainRes : Fld := ⟨6, 0x10, 0, 26, 0⟩
/-- RNG_RSPTO.EXP, bits 4:0, RW. -/
def rngRsptoExp : Fld := ⟨6, 0x14, 0, 5, 25⟩
/-- RNG_STATSEL.STN, bits 12:8, RW. -/
def rngStatselStn : Fld := ⟨6, 0x20, 8, 5, 0⟩
/-- RNG_STATSEL.INIT, bits 7:0, RW. -/
def rngStatselInit : Fld := ⟨6, 0x20, 0, 8, 0⟩
/-- RNG_STATPKT.VALUE, bits 31:0, RO. -/
def rngStatpktValue : Fld := ⟨6, 0x24, 0, 32, 0⟩
/-- RNG_STATUNIT.VALUE, bits 31:0, RO. -/
def rngStatunitValue : Fld := ⟨6, 0x28, 0, 32, 0⟩
/-- RNG_STATWAIT.VALUE, bits 31:0, RO. -/
def rngStatwaitValue : Fld := ⟨6, 0x2C, 0, 32, 0⟩
/-- RNG_STATNRSP.VALUE, bits 31:0, RO. -/
def rngStatnrspValue : Fld := ⟨6, 0x30, 0, 32, 0⟩
/-- RNG_STATLSUM.VALUE, bits 31:0, RO. -/
def rngStatlsumValue : Fld := ⟨6, 0x34, 0, 32, 0⟩
/-- RNG_STATLMAX.VALUE, bits 31:0, RO. -/
def rngStatlmaxValue : Fld := ⟨6, 0x38, 0, 32, 0⟩
/-- RNG_PARK.TOK, bits 24:16, RO. -/
def rngParkTok (i : Nat) : Fld := ⟨6, 0x100 + 4 * i, 16, 9, 0⟩
/-- RNG_PARK.REQ, bits 15:7, RO. -/
def rngParkReq (i : Nat) : Fld := ⟨6, 0x100 + 4 * i, 7, 9, 0⟩
/-- RNG_PARK.MGT, bits 6:2, RO. -/
def rngParkMgt (i : Nat) : Fld := ⟨6, 0x100 + 4 * i, 2, 5, 0⟩
/-- RNG_PARK.CLOSED, bits 1:1, RO. -/
def rngParkClosed (i : Nat) : Fld := ⟨6, 0x100 + 4 * i, 1, 1, 0⟩
/-- RNG_PARK.FENCE, bits 0:0, RO. -/
def rngParkFence (i : Nat) : Fld := ⟨6, 0x100 + 4 * i, 0, 1, 0⟩
/-- RNG_RT.VALID, bits 2:2, RW. -/
def rngRtValid (i j k : Nat) : Fld := ⟨6, 0x1000 + 256 * i + 128 * j + 4 * k, 2, 1, 1⟩
/-- RNG_RT.RING, bits 1:0, RW. -/
def rngRtRing (i j k : Nat) : Fld := ⟨6, 0x1000 + 256 * i + 128 * j + 4 * k, 0, 2, (routeDefault i k)⟩
/-- STAT_SNAP.SNAP, bits 0:0, W1S. -/
def statSnapSnap : Fld := ⟨7, 0x0, 0, 1, 0⟩
/-- STAT_STATUS.BUSY, bits 31:31, RO. -/
def statStatusBusy : Fld := ⟨7, 0x4, 31, 1, 0⟩
/-- STAT_STATUS.HALF, bits 30:30, RO. -/
def statStatusHalf : Fld := ⟨7, 0x4, 30, 1, 0⟩
/-- STAT_SEQ.SEQ, bits 31:0, RO. -/
def statSeqSeq : Fld := ⟨7, 0x8, 0, 32, 0⟩
/-- STAT_PHLO.PHASE, bits 31:0, RO. -/
def statPhloPhase : Fld := ⟨7, 0x10, 0, 32, 0⟩
/-- STAT_PHHI.PHASE, bits 31:0, RO. -/
def statPhhiPhase : Fld := ⟨7, 0x14, 0, 32, 0⟩
/-- STAT_TICKLO.TICK, bits 31:0, RO. -/
def statTickloTick : Fld := ⟨7, 0x18, 0, 32, 0⟩
/-- STAT_TICKHI.TICK, bits 31:0, RO. -/
def statTickhiTick : Fld := ⟨7, 0x1C, 0, 32, 0⟩
/-- STAT_UNIT.ASLEEP, bits 31:31, RO. -/
def statUnitAsleep (i : Nat) : Fld := ⟨7, 0x100 + 4 * i, 31, 1, 0⟩
/-- STAT_UNIT.MISSED, bits 30:30, RO. -/
def statUnitMissed (i : Nat) : Fld := ⟨7, 0x100 + 4 * i, 30, 1, 0⟩
/-- STAT_UNIT.SEQ, bits 15:0, RO. -/
def statUnitSeq (i : Nat) : Fld := ⟨7, 0x100 + 4 * i, 0, 16, 0⟩
/-- SB_INIT.DONE, bits 31:0, RO. -/
def sbInitDone : Fld := ⟨8, 0x0, 0, 32, 0⟩
/-- SB_BAR4CFG.VIEW, bits 1:0, RW. -/
def sbBar4cfgView : Fld := ⟨8, 0x4, 0, 2, 0⟩
/-- SB_SWEEPCFG.ROWINT, bits 15:8, RW. -/
def sbSweepcfgRowint : Fld := ⟨8, 0x10, 8, 8, 10⟩
/-- SB_SWEEPCFG.EN, bits 0:0, RW. -/
def sbSweepcfgEn : Fld := ⟨8, 0x10, 0, 1, 1⟩
/-- SB_SWEEPSTAT.WEAK, bits 31:24, RC. -/
def sbSweepstatWeak : Fld := ⟨8, 0x14, 24, 8, 0⟩
/-- SB_SWEEPSTAT.INTERRUPTED, bits 23:12, RC. -/
def sbSweepstatInterrupted : Fld := ⟨8, 0x14, 12, 12, 0⟩
/-- SB_SWEEPSTAT.SKIPPED, bits 11:0, RC. -/
def sbSweepstatSkipped : Fld := ⟨8, 0x14, 0, 12, 0⟩
/-- SB_SWEEPPASS.PASSES, bits 31:0, RO. -/
def sbSweeppassPasses : Fld := ⟨8, 0x18, 0, 32, 0⟩
/-- SB_SPARE.STATE, bits 31:30, RO. -/
def sbSpareState : Fld := ⟨8, 0x20, 30, 2, 0⟩
/-- SB_SPARE.COPIED, bits 19:8, RO. -/
def sbSpareCopied : Fld := ⟨8, 0x20, 8, 12, 0⟩
/-- SB_SPARE.BANK, bits 4:0, RO. -/
def sbSpareBank : Fld := ⟨8, 0x20, 0, 5, 0⟩
/-- SB_OWNER.OUTST, bits 31:21, RO. -/
def sbOwnerOutst (i : Nat) : Fld := ⟨8, 0x100 + 4 * i, 21, 11, 0⟩
/-- SB_OWNER.RESULT, bits 20:18, RO. -/
def sbOwnerResult (i : Nat) : Fld := ⟨8, 0x100 + 4 * i, 18, 3, 0⟩
/-- SB_OWNER.ABORTDEF, bits 17:17, W1S. -/
def sbOwnerAbortdef (i : Nat) : Fld := ⟨8, 0x100 + 4 * i, 17, 1, 0⟩
/-- SB_OWNER.FENCE, bits 16:16, RW. -/
def sbOwnerFence (i : Nat) : Fld := ⟨8, 0x100 + 4 * i, 16, 1, 0⟩
/-- SB_OWNER.OWNER, bits 7:0, RW. -/
def sbOwnerOwner (i : Nat) : Fld := ⟨8, 0x100 + 4 * i, 0, 8, 255⟩
/-- SB_DEF.HWM, bits 27:16, RC. -/
def sbDefHwm (i : Nat) : Fld := ⟨8, 0x200 + 4 * i, 16, 12, 0⟩
/-- SB_DEF.USED, bits 11:0, RO. -/
def sbDefUsed (i : Nat) : Fld := ⟨8, 0x200 + 4 * i, 0, 12, 0⟩
/-- LCK_CELL.HELD, bits 31:31, RO. -/
def lckCellHeld (i : Nat) : Fld := ⟨9, 0x0 + 4 * i, 31, 1, 0⟩
/-- LCK_CELL.ABANDONED, bits 30:30, RO. -/
def lckCellAbandoned (i : Nat) : Fld := ⟨9, 0x0 + 4 * i, 30, 1, 0⟩
/-- LCK_CELL.REL, bits 16:16, WO. -/
def lckCellRel (i : Nat) : Fld := ⟨9, 0x0 + 4 * i, 16, 1, 0⟩
/-- LCK_CELL.HOLDER, bits 15:0, RO. -/
def lckCellHolder (i : Nat) : Fld := ⟨9, 0x0 + 4 * i, 0, 16, 0⟩
/-- LCK_ACK.CELL, bits 7:0, WO. -/
def lckAckCell : Fld := ⟨9, 0x400, 0, 8, 0⟩
/-- LCK_HELD.HELD, bits 31:0, RO. -/
def lckHeldHeld (i : Nat) : Fld := ⟨9, 0x500 + 4 * i, 0, 32, 0⟩
/-- LCK_ABAN.ABAN, bits 31:0, RO. -/
def lckAbanAban (i : Nat) : Fld := ⟨9, 0x520 + 4 * i, 0, 32, 0⟩
/-- HIF_STATUS.WIDTH, bits 23:20, RO. -/
def hifStatusWidth : Fld := ⟨10, 0x0, 20, 4, 0⟩
/-- HIF_STATUS.SPEED, bits 19:16, RO. -/
def hifStatusSpeed : Fld := ⟨10, 0x0, 16, 4, 0⟩
/-- HIF_STATUS.FLRBUSY, bits 2:2, RO. -/
def hifStatusFlrbusy : Fld := ⟨10, 0x0, 2, 1, 0⟩
/-- HIF_STATUS.ADMEN, bits 1:1, RO. -/
def hifStatusAdmen : Fld := ⟨10, 0x0, 1, 1, 0⟩
/-- HIF_STATUS.READY, bits 0:0, RO. -/
def hifStatusReady : Fld := ⟨10, 0x0, 0, 1, 0⟩
/-- HIF_ADMSQLO.ADDR, bits 31:0, RWP. -/
def hifAdmsqloAddr : Fld := ⟨10, 0x10, 0, 32, 0⟩
/-- HIF_ADMSQHI.ADDR, bits 31:0, RWP. -/
def hifAdmsqhiAddr : Fld := ⟨10, 0x14, 0, 32, 0⟩
/-- HIF_ADMCQLO.ADDR, bits 31:0, RWP. -/
def hifAdmcqloAddr : Fld := ⟨10, 0x18, 0, 32, 0⟩
/-- HIF_ADMCQHI.ADDR, bits 31:0, RWP. -/
def hifAdmcqhiAddr : Fld := ⟨10, 0x1C, 0, 32, 0⟩
/-- HIF_ADMCFG.EN, bits 31:31, RWP. -/
def hifAdmcfgEn : Fld := ⟨10, 0x20, 31, 1, 0⟩
/-- HIF_ADMCFG.VEC, bits 26:16, RWP. -/
def hifAdmcfgVec : Fld := ⟨10, 0x20, 16, 11, 0⟩
/-- HIF_ADMCFG.CQLOG, bits 9:5, RWP. -/
def hifAdmcfgCqlog : Fld := ⟨10, 0x20, 5, 5, 0⟩
/-- HIF_ADMCFG.SQLOG, bits 4:0, RWP. -/
def hifAdmcfgSqlog : Fld := ⟨10, 0x20, 0, 5, 0⟩
/-- HIF_VECSPLIT.PFVEC, bits 31:16, RO. -/
def hifVecsplitPfvec : Fld := ⟨10, 0x30, 16, 16, 1040⟩
/-- HIF_VECSPLIT.VFVEC, bits 4:0, RWL. -/
def hifVecsplitVfvec : Fld := ⟨10, 0x30, 0, 5, 16⟩
/-- HIF_SESSCNT.ACTIVE, bits 12:0, RO. -/
def hifSesscntActive : Fld := ⟨10, 0x34, 0, 13, 0⟩
/-- HIF_DBDROP.COUNT, bits 31:0, RC. -/
def hifDbdropCount : Fld := ⟨10, 0x38, 0, 32, 0⟩
/-- HIF_COMMIT.COMMIT, bits 0:0, WO. -/
def hifCommitCommit : Fld := ⟨10, 0xF0, 0, 1, 0⟩
/-- OBQ_UNMAPPED.COUNT, bits 31:0, RC. -/
def obqUnmappedCount : Fld := ⟨11, 0x0, 0, 32, 0⟩
/-- OBQ_QSTAT.ATTACHED, bits 31:31, RO. -/
def obqQstatAttached (i : Nat) : Fld := ⟨11, 0x100 + 16 * i, 31, 1, 0⟩
/-- OBQ_QSTAT.SESSION, bits 27:16, RO. -/
def obqQstatSession (i : Nat) : Fld := ⟨11, 0x100 + 16 * i, 16, 12, 0⟩
/-- OBQ_QSTAT.RESETS, bits 15:12, RC. -/
def obqQstatResets (i : Nat) : Fld := ⟨11, 0x100 + 16 * i, 12, 4, 0⟩
/-- OBQ_QSTAT.MARKER, bits 11:11, RO. -/
def obqQstatMarker (i : Nat) : Fld := ⟨11, 0x100 + 16 * i, 11, 1, 0⟩
/-- OBQ_QSTAT.DEPTH, bits 10:0, RO. -/
def obqQstatDepth (i : Nat) : Fld := ⟨11, 0x100 + 16 * i, 0, 11, 0⟩
/-- OBQ_QSEQ.NEXT, bits 31:0, RO. -/
def obqQseqNext (i : Nat) : Fld := ⟨11, 0x104 + 16 * i, 0, 32, 0⟩
/-- OBQ_CHMAP.VALID, bits 31:31, RW. -/
def obqChmapValid (i : Nat) : Fld := ⟨11, 0x4000 + 4 * i, 31, 1, 0⟩
/-- OBQ_CHMAP.PRI, bits 6:4, RW. -/
def obqChmapPri (i : Nat) : Fld := ⟨11, 0x4000 + 4 * i, 4, 3, 0⟩
/-- OBQ_CHMAP.QUEUE, bits 3:0, RW. -/
def obqChmapQueue (i : Nat) : Fld := ⟨11, 0x4000 + 4 * i, 0, 4, 0⟩
/-- LOG_STATE.NSFAIL, bits 23:16, RO. -/
def logStateNsfail : Fld := ⟨12, 0x0, 16, 8, 0⟩
/-- LOG_STATE.NSATT, bits 15:8, RO. -/
def logStateNsatt : Fld := ⟨12, 0x0, 8, 8, 0⟩
/-- LOG_STATE.STATE, bits 2:0, RO. -/
def logStateState : Fld := ⟨12, 0x0, 0, 3, 0⟩
/-- LOG_CFG.OBQCH, bits 27:16, RW. -/
def logCfgObqch : Fld := ⟨12, 0x4, 16, 12, 0⟩
/-- LOG_CFG.FULLPOL, bits 0:0, RW. -/
def logCfgFullpol : Fld := ⟨12, 0x4, 0, 1, 0⟩
/-- LOG_CODECCFG.EFFORT, bits 2:0, RW. -/
def logCodeccfgEffort : Fld := ⟨12, 0x8, 0, 3, 2⟩
/-- LOG_DURABLE.COUNT, bits 31:0, RO. -/
def logDurableCount : Fld := ⟨12, 0x10, 0, 32, 0⟩
/-- LOG_SEALED.SEQ, bits 31:0, RO. -/
def logSealedSeq : Fld := ⟨12, 0x14, 0, 32, 0⟩
/-- LOG_GAPS.COUNT, bits 31:0, RC. -/
def logGapsCount : Fld := ⟨12, 0x18, 0, 32, 0⟩
/-- LOG_NSSTAT.FAILED, bits 31:31, RO. -/
def logNsstatFailed (i : Nat) : Fld := ⟨12, 0x40 + 4 * i, 31, 1, 0⟩
/-- LOG_NSSTAT.OPEN, bits 30:30, RO. -/
def logNsstatOpen (i : Nat) : Fld := ⟨12, 0x40 + 4 * i, 30, 1, 0⟩
/-- LOG_NSSTAT.FREE, bits 20:0, RO. -/
def logNsstatFree (i : Nat) : Fld := ⟨12, 0x40 + 4 * i, 0, 21, 0⟩
/-- LOG_COMMIT.COMMIT, bits 0:0, WO. -/
def logCommitCommit : Fld := ⟨12, 0xF0, 0, 1, 0⟩
/-- LOG_STREAMCFG.EN, bits 31:31, RWP. -/
def logStreamcfgEn (i : Nat) : Fld := ⟨12, 0x100 + 4 * i, 31, 1, 0⟩
/-- LOG_STREAMCFG.KIND, bits 30:30, RWP. -/
def logStreamcfgKind (i : Nat) : Fld := ⟨12, 0x100 + 4 * i, 30, 1, 0⟩
/-- LOG_STREAMCFG.REARM, bits 29:29, RWP. -/
def logStreamcfgRearm (i : Nat) : Fld := ⟨12, 0x100 + 4 * i, 29, 1, 0⟩
/-- LOG_STREAMCFG.RING, bits 28:23, RWP. -/
def logStreamcfgRing (i : Nat) : Fld := ⟨12, 0x100 + 4 * i, 23, 6, 0⟩
/-- LOG_STREAMCFG.DMODE, bits 22:21, RWP. -/
def logStreamcfgDmode (i : Nat) : Fld := ⟨12, 0x100 + 4 * i, 21, 2, 0⟩
/-- LOG_STREAMCFG.DECK, bits 20:16, RWP. -/
def logStreamcfgDeck (i : Nat) : Fld := ⟨12, 0x100 + 4 * i, 16, 5, 0⟩
/-- LOG_STREAMCFG.CHOFS, bits 15:11, RWP. -/
def logStreamcfgChofs (i : Nat) : Fld := ⟨12, 0x100 + 4 * i, 11, 5, 0⟩
/-- LOG_STREAMCFG.NCHM1, bits 10:6, RWP. -/
def logStreamcfgNchm1 (i : Nat) : Fld := ⟨12, 0x100 + 4 * i, 6, 5, 0⟩
/-- SPN_PORTCFG.EN, bits 0:0, RW. -/
def spnPortcfgEn (i : Nat) : Fld := ⟨13, 0x100 + 32 * i, 0, 1, 0⟩
/-- SPN_PORTSTAT.STATE, bits 31:29, RO. -/
def spnPortstatState (i : Nat) : Fld := ⟨13, 0x104 + 32 * i, 29, 3, 0⟩
/-- SPN_PORTSTAT.PEERPORT, bits 28:27, RO. -/
def spnPortstatPeerport (i : Nat) : Fld := ⟨13, 0x104 + 32 * i, 27, 2, 0⟩
/-- SPN_PORTSTAT.PEERDEV, bits 26:15, RO. -/
def spnPortstatPeerdev (i : Nat) : Fld := ⟨13, 0x104 + 32 * i, 15, 12, 0⟩
/-- SPN_PORTLAT.PS, bits 31:0, RO. -/
def spnPortlatPs (i : Nat) : Fld := ⟨13, 0x108 + 32 * i, 0, 32, 0⟩
/-- SPN_PORTERR.CORR, bits 31:20, RC. -/
def spnPorterrCorr (i : Nat) : Fld := ⟨13, 0x10C + 32 * i, 20, 12, 0⟩
/-- SPN_PORTERR.REPLAY, bits 19:8, RC. -/
def spnPorterrReplay (i : Nat) : Fld := ⟨13, 0x10C + 32 * i, 8, 12, 0⟩
/-- SPN_PORTERR.LOST, bits 7:0, RC. -/
def spnPorterrLost (i : Nat) : Fld := ⟨13, 0x10C + 32 * i, 0, 8, 0⟩
/-- SPN_COMMIT.COMMIT, bits 0:0, WO. -/
def spnCommitCommit : Fld := ⟨13, 0xF0, 0, 1, 0⟩
/-- SPN_ROUTE.DL, bits 3:3, RWP. -/
def spnRouteDl (i : Nat) : Fld := ⟨13, 0x1000 + 4 * i, 3, 1, 0⟩
/-- SPN_ROUTE.VALID, bits 2:2, RWP. -/
def spnRouteValid (i : Nat) : Fld := ⟨13, 0x1000 + 4 * i, 2, 1, 0⟩
/-- SPN_ROUTE.PORT, bits 1:0, RWP. -/
def spnRoutePort (i : Nat) : Fld := ⟨13, 0x1000 + 4 * i, 0, 2, 0⟩
/-- SEC_STATUS.RECOVERY, bits 4:4, RO. -/
def secStatusRecovery : Fld := ⟨14, 0x0, 4, 1, 0⟩
/-- SEC_STATUS.TRIAL, bits 3:3, RO. -/
def secStatusTrial : Fld := ⟨14, 0x0, 3, 1, 0⟩
/-- SEC_STATUS.SLOT, bits 2:2, RO. -/
def secStatusSlot : Fld := ⟨14, 0x0, 2, 1, 0⟩
/-- SEC_STATUS.OVERFLOW, bits 1:1, RO. -/
def secStatusOverflow : Fld := ⟨14, 0x0, 1, 1, 0⟩
/-- SEC_STATUS.IDV, bits 0:0, RO. -/
def secStatusIdv : Fld := ⟨14, 0x0, 0, 1, 0⟩
/-- SEC_SVNFLOOR.FLOOR, bits 31:0, RO. -/
def secSvnfloorFloor : Fld := ⟨14, 0x4, 0, 32, 0⟩
/-- SEC_IDXNEXTLO.NEXT, bits 31:0, RO. -/
def secIdxnextloNext : Fld := ⟨14, 0x8, 0, 32, 0⟩
/-- SEC_IDXNEXTHI.NEXT, bits 7:0, RO. -/
def secIdxnexthiNext : Fld := ⟨14, 0xC, 0, 8, 0⟩
/-- SEC_IDXWARN.WARN, bits 15:0, RW. -/
def secIdxwarnWarn : Fld := ⟨14, 0x10, 0, 16, 256⟩
/-- SEC_MLOGCNT.COUNT, bits 31:0, RO. -/
def secMlogcntCount : Fld := ⟨14, 0x14, 0, 32, 0⟩
/-- SEC_RECOVCTL.RESULT, bits 31:28, RO. -/
def secRecovctlResult : Fld := ⟨14, 0x20, 28, 4, 0⟩
/-- SEC_RECOVCTL.SLOT, bits 1:1, RW. -/
def secRecovctlSlot : Fld := ⟨14, 0x20, 1, 1, 0⟩
/-- SEC_RECOVCTL.GO, bits 0:0, W1S. -/
def secRecovctlGo : Fld := ⟨14, 0x20, 0, 1, 0⟩
/-- SEC_CFGCTL.BUSY, bits 31:31, RO. -/
def secCfgctlBusy : Fld := ⟨14, 0x30, 31, 1, 0⟩
/-- SEC_CFGCTL.RESULT, bits 30:28, RO. -/
def secCfgctlResult : Fld := ⟨14, 0x30, 28, 3, 0⟩
/-- SEC_CFGCTL.SLOT, bits 9:8, RW. -/
def secCfgctlSlot : Fld := ⟨14, 0x30, 8, 2, 0⟩
/-- SEC_CFGCTL.OP, bits 7:4, RW. -/
def secCfgctlOp : Fld := ⟨14, 0x30, 4, 4, 0⟩
/-- SEC_CFGCTL.GO, bits 0:0, W1S. -/
def secCfgctlGo : Fld := ⟨14, 0x30, 0, 1, 0⟩
/-- SEC_CFGDATA.DATA, bits 31:0, RW. -/
def secCfgdataData (i : Nat) : Fld := ⟨14, 0x40 + 4 * i, 0, 32, 0⟩
/-- SEC_KEYHASH.HASH, bits 31:0, RO. -/
def secKeyhashHash (i : Nat) : Fld := ⟨14, 0x100 + 4 * i, 0, 32, 0⟩
/-- SEC_HASHSRCLO.ADDR, bits 31:0, RW. -/
def secHashsrcloAddr : Fld := ⟨14, 0x800, 0, 32, 0⟩
/-- SEC_HASHSRCHI.ADDR, bits 19:0, RW. -/
def secHashsrchiAddr : Fld := ⟨14, 0x804, 0, 20, 0⟩
/-- SEC_HASHLEN.LEN, bits 31:0, RW. -/
def secHashlenLen : Fld := ⟨14, 0x808, 0, 32, 0⟩
/-- SEC_HASHCTL.BUSY, bits 31:31, RO. -/
def secHashctlBusy : Fld := ⟨14, 0x80C, 31, 1, 0⟩
/-- SEC_HASHCTL.ERR, bits 30:30, RO. -/
def secHashctlErr : Fld := ⟨14, 0x80C, 30, 1, 0⟩
/-- SEC_HASHCTL.GO, bits 0:0, W1S. -/
def secHashctlGo : Fld := ⟨14, 0x80C, 0, 1, 0⟩
/-- SEC_HASHOUT.OUT, bits 31:0, RO. -/
def secHashoutOut (i : Nat) : Fld := ⟨14, 0x810 + 4 * i, 0, 32, 0⟩
/-- SUP_IPI.RAISE, bits 3:0, W1S. -/
def supIpiRaise : Fld := ⟨15, 0x10, 0, 4, 0⟩
/-- SUP_CORECTL.RESET, bits 2:2, W1S. -/
def supCorectlReset (i : Nat) : Fld := ⟨15, 0x100 + 32 * i, 2, 1, 0⟩
/-- SUP_CORECTL.THR1EN, bits 1:1, RW. -/
def supCorectlThr1en (i : Nat) : Fld := ⟨15, 0x100 + 32 * i, 1, 1, 0⟩
/-- SUP_CORECTL.RUN, bits 0:0, RW. -/
def supCorectlRun (i : Nat) : Fld := ⟨15, 0x100 + 32 * i, 0, 1, (if i = 0 then 1 else 0)⟩
/-- SUP_CORESTAT.RESTARTS, bits 31:16, RO. -/
def supCorestatRestarts (i : Nat) : Fld := ⟨15, 0x104 + 32 * i, 16, 16, 0⟩
/-- SUP_CORESTAT.HALTWHY, bits 6:4, RO. -/
def supCorestatHaltwhy (i : Nat) : Fld := ⟨15, 0x104 + 32 * i, 4, 3, 0⟩
/-- SUP_CORESTAT.STATE, bits 2:0, RO. -/
def supCorestatState (i : Nat) : Fld := ⟨15, 0x104 + 32 * i, 0, 3, 0⟩
/-- SUP_COREHPCLO.PC, bits 31:0, RO. -/
def supCorehpcloPc (i : Nat) : Fld := ⟨15, 0x108 + 32 * i, 0, 32, 0⟩
/-- SUP_COREHPCHI.PC, bits 31:0, RO. -/
def supCorehpchiPc (i : Nat) : Fld := ⟨15, 0x10C + 32 * i, 0, 32, 0⟩
/-- SUP_COREHCAUSE.THREAD, bits 28:28, RO. -/
def supCorehcauseThread (i : Nat) : Fld := ⟨15, 0x110 + 32 * i, 28, 1, 0⟩
/-- SUP_COREHCAUSE.CAUSE, bits 27:0, RO. -/
def supCorehcauseCause (i : Nat) : Fld := ⟨15, 0x110 + 32 * i, 0, 28, 0⟩
/-- SUP_IRQROUTE.EN, bits 31:31, RW. -/
def supIrqrouteEn (i : Nat) : Fld := ⟨15, 0x400 + 4 * i, 31, 1, 0⟩
/-- SUP_IRQROUTE.LEVEL, bits 7:4, RW. -/
def supIrqrouteLevel (i : Nat) : Fld := ⟨15, 0x400 + 4 * i, 4, 4, 1⟩
/-- SUP_IRQROUTE.THREAD, bits 2:2, RW. -/
def supIrqrouteThread (i : Nat) : Fld := ⟨15, 0x400 + 4 * i, 2, 1, 0⟩
/-- SUP_IRQROUTE.CORE, bits 1:0, RW. -/
def supIrqrouteCore (i : Nat) : Fld := ⟨15, 0x400 + 4 * i, 0, 2, 0⟩
/-- DBG_PORTSTAT.LC, bits 31:30, RO. -/
def dbgPortstatLc : Fld := ⟨16, 0x0, 30, 2, 0⟩
/-- DBG_PORTSTAT.LOCKED, bits 29:29, RO. -/
def dbgPortstatLocked : Fld := ⟨16, 0x0, 29, 1, 0⟩
/-- DBG_PORTSTAT.BUSY, bits 28:28, RO. -/
def dbgPortstatBusy : Fld := ⟨16, 0x0, 28, 1, 0⟩
/-- DBG_PORTSTAT.ERR, bits 27:24, RO. -/
def dbgPortstatErr : Fld := ⟨16, 0x0, 24, 4, 0⟩
/-- DBG_PORTSTAT.AUTHFAILS, bits 23:16, RO. -/
def dbgPortstatAuthfails : Fld := ⟨16, 0x0, 16, 8, 0⟩
/-- DBG_PORTSTAT.RIGHTS, bits 13:8, RO. -/
def dbgPortstatRights : Fld := ⟨16, 0x0, 8, 6, 0⟩
/-- DBG_CHAL.CHAL, bits 31:0, RO. -/
def dbgChalChal (i : Nat) : Fld := ⟨16, 0x10 + 4 * i, 0, 32, 0⟩
/-- DBG_AUTHGO.GO, bits 0:0, W1S. -/
def dbgAuthgoGo : Fld := ⟨16, 0x30, 0, 1, 0⟩
/-- DBG_CTL.DISABLE, bits 6:6, W1S. -/
def dbgCtlDisable : Fld := ⟨16, 0x40, 6, 1, 0⟩
/-- DBG_CTL.PROVISION, bits 5:5, W1S. -/
def dbgCtlProvision : Fld := ⟨16, 0x40, 5, 1, 0⟩
/-- DBG_CTL.PROVRESET, bits 4:4, W1S. -/
def dbgCtlProvreset : Fld := ⟨16, 0x40, 4, 1, 0⟩
/-- DBG_CTL.DEVRESET, bits 3:3, W1S. -/
def dbgCtlDevreset : Fld := ⟨16, 0x40, 3, 1, 0⟩
/-- DBG_CTL.FORCE, bits 2:2, RW. -/
def dbgCtlForce : Fld := ⟨16, 0x40, 2, 1, 0⟩
/-- DBG_CTL.ATTACH, bits 0:0, RW. -/
def dbgCtlAttach : Fld := ⟨16, 0x40, 0, 1, 0⟩
/-- DBG_CORECTL.THREAD, bits 4:4, RW. -/
def dbgCorectlThread (i : Nat) : Fld := ⟨16, 0x100 + 64 * i, 4, 1, 0⟩
/-- DBG_CORECTL.STEP, bits 2:2, W1S. -/
def dbgCorectlStep (i : Nat) : Fld := ⟨16, 0x100 + 64 * i, 2, 1, 0⟩
/-- DBG_CORECTL.RESUME, bits 1:1, W1S. -/
def dbgCorectlResume (i : Nat) : Fld := ⟨16, 0x100 + 64 * i, 1, 1, 0⟩
/-- DBG_CORECTL.HALT, bits 0:0, W1S. -/
def dbgCorectlHalt (i : Nat) : Fld := ⟨16, 0x100 + 64 * i, 0, 1, 0⟩
/-- DBG_COREBPLO.ADDR, bits 31:2, RW. -/
def dbgCorebploAddr (i j : Nat) : Fld := ⟨16, 0x110 + 64 * i + 8 * j, 2, 30, 0⟩
/-- DBG_COREBPLO.EN1, bits 1:1, RW. -/
def dbgCorebploEn1 (i j : Nat) : Fld := ⟨16, 0x110 + 64 * i + 8 * j, 1, 1, 0⟩
/-- DBG_COREBPLO.EN0, bits 0:0, RW. -/
def dbgCorebploEn0 (i j : Nat) : Fld := ⟨16, 0x110 + 64 * i + 8 * j, 0, 1, 0⟩
/-- DBG_COREBPHI.ADDR, bits 31:0, RW. -/
def dbgCorebphiAddr (i j : Nat) : Fld := ⟨16, 0x114 + 64 * i + 8 * j, 0, 32, 0⟩
/-- DBG_CLCTL.RESUME, bits 31:16, W1S. -/
def dbgClctlResume : Fld := ⟨16, 0x400, 16, 16, 0⟩
/-- DBG_CLCTL.HALT, bits 15:0, W1S. -/
def dbgClctlHalt : Fld := ⟨16, 0x400, 0, 16, 0⟩
/-- DBG_CLSTAT.REFUSED, bits 31:16, W1C. -/
def dbgClstatRefused : Fld := ⟨16, 0x404, 16, 16, 0⟩
/-- DBG_CLSTAT.HALTED, bits 15:0, RO. -/
def dbgClstatHalted : Fld := ⟨16, 0x404, 0, 16, 0⟩
/-- DBG_CLFIRE.GO, bits 31:31, W1S. -/
def dbgClfireGo (i : Nat) : Fld := ⟨16, 0x800 + 64 * i, 31, 1, 0⟩
/-- DBG_CLFIRE.PPE, bits 4:0, RW. -/
def dbgClfirePpe (i : Nat) : Fld := ⟨16, 0x800 + 64 * i, 0, 5, 0⟩
/-- DBG_CLHITLO.TAG, bits 31:0, RO. -/
def dbgClhitloTag (i : Nat) : Fld := ⟨16, 0x804 + 64 * i, 0, 32, 0⟩
/-- DBG_CLHITHI.TAG, bits 31:0, RO. -/
def dbgClhithiTag (i : Nat) : Fld := ⟨16, 0x808 + 64 * i, 0, 32, 0⟩
/-- DBG_CLTBPVALLO.VAL, bits 31:0, RW. -/
def dbgCltbpvalloVal (i j : Nat) : Fld := ⟨16, 0x810 + 64 * i + 16 * j, 0, 32, 0⟩
/-- DBG_CLTBPVALHI.VAL, bits 31:0, RW. -/
def dbgCltbpvalhiVal (i j : Nat) : Fld := ⟨16, 0x814 + 64 * i + 16 * j, 0, 32, 0⟩
/-- DBG_CLTBPMASKLO.MASK, bits 31:0, RW. -/
def dbgCltbpmaskloMask (i j : Nat) : Fld := ⟨16, 0x818 + 64 * i + 16 * j, 0, 32, 0⟩
/-- DBG_CLTBPMASKHI.MASK, bits 31:0, RW. -/
def dbgCltbpmaskhiMask (i j : Nat) : Fld := ⟨16, 0x81C + 64 * i + 16 * j, 0, 32, 0⟩
/-- DBG_CLTBPCFG.WHEN1, bits 3:3, RW. -/
def dbgCltbpcfgWhen1 (i : Nat) : Fld := ⟨16, 0x830 + 64 * i, 3, 1, 0⟩
/-- DBG_CLTBPCFG.EN1, bits 2:2, RW. -/
def dbgCltbpcfgEn1 (i : Nat) : Fld := ⟨16, 0x830 + 64 * i, 2, 1, 0⟩
/-- DBG_CLTBPCFG.WHEN0, bits 1:1, RW. -/
def dbgCltbpcfgWhen0 (i : Nat) : Fld := ⟨16, 0x830 + 64 * i, 1, 1, 0⟩
/-- DBG_CLTBPCFG.EN0, bits 0:0, RW. -/
def dbgCltbpcfgEn0 (i : Nat) : Fld := ⟨16, 0x830 + 64 * i, 0, 1, 0⟩
/-- DBG_AUTHBUF.DATA, bits 31:0, WO. -/
def dbgAuthbufData (i : Nat) : Fld := ⟨16, 0x1000 + 4 * i, 0, 32, 0⟩
/-- CL_COMMIT.COMMIT, bits 0:0, WO. -/
def clCommitCommit (c : Nat) : Fld := ⟨(17 + c), 0xF0, 0, 1, 0⟩
/-- CL_QCFG.AGEEXP, bits 4:0, RW. -/
def clQcfgAgeexp (c : Nat) : Fld := ⟨(17 + c), 0x400, 0, 5, 0⟩
/-- CL_SPILLCFG.NSEN, bits 1:1, RWP. -/
def clSpillcfgNsen (c : Nat) : Fld := ⟨(17 + c), 0x410, 1, 1, 0⟩
/-- CL_SPILLCFG.FAREN, bits 0:0, RW. -/
def clSpillcfgFaren (c : Nat) : Fld := ⟨(17 + c), 0x410, 0, 1, 0⟩
/-- CL_NSWIN.EN, bits 15:15, RWP. -/
def clNswinEn (c i : Nat) : Fld := ⟨(17 + c), 0x420 + 4 * i, 15, 1, 0⟩
/-- CL_NSWIN.BANK, bits 14:10, RWP. -/
def clNswinBank (c i : Nat) : Fld := ⟨(17 + c), 0x420 + 4 * i, 10, 5, 0⟩
/-- CL_NSWIN.SIZE, bits 9:5, RWP. -/
def clNswinSize (c i : Nat) : Fld := ⟨(17 + c), 0x420 + 4 * i, 5, 5, 0⟩
/-- CL_NSWIN.START, bits 4:1, RWP. -/
def clNswinStart (c i : Nat) : Fld := ⟨(17 + c), 0x420 + 4 * i, 1, 4, 0⟩
/-- CL_NSSTAT.DRAINING, bits 25:18, RO. -/
def clNsstatDraining (c : Nat) : Fld := ⟨(17 + c), 0x440, 18, 8, 0⟩
/-- CL_NSSTAT.USED, bits 17:0, RO. -/
def clNsstatUsed (c : Nat) : Fld := ⟨(17 + c), 0x440, 0, 18, 0⟩
/-- CL_FSBASELO.ADDR, bits 31:0, RWP. -/
def clFsbaseloAddr (c : Nat) : Fld := ⟨(17 + c), 0x450, 0, 32, 0⟩
/-- CL_FSBASEHI.ADDR, bits 31:0, RWP. -/
def clFsbasehiAddr (c : Nat) : Fld := ⟨(17 + c), 0x454, 0, 32, 0⟩
/-- CL_FSSIZE.SIZE, bits 20:0, RWP. -/
def clFssizeSize (c : Nat) : Fld := ⟨(17 + c), 0x458, 0, 21, 0⟩
/-- CL_FSSTAT.USED, bits 30:0, RO. -/
def clFsstatUsed (c : Nat) : Fld := ⟨(17 + c), 0x45C, 0, 31, 0⟩
/-- CL_STALLCFG.FORCE, bits 14:11, RW. -/
def clStallcfgForce (c : Nat) : Fld := ⟨(17 + c), 0x460, 11, 4, 8⟩
/-- CL_STALLCFG.WIN2EXP, bits 10:6, RW. -/
def clStallcfgWin2exp (c : Nat) : Fld := ⟨(17 + c), 0x460, 6, 5, 18⟩
/-- CL_STALLCFG.WIN1EXP, bits 5:1, RW. -/
def clStallcfgWin1exp (c : Nat) : Fld := ⟨(17 + c), 0x460, 1, 5, 14⟩
/-- CL_STALLCFG.EN, bits 0:0, RW. -/
def clStallcfgEn (c : Nat) : Fld := ⟨(17 + c), 0x460, 0, 1, 1⟩
/-- CL_STALLSTAT.STATE, bits 31:30, RO. -/
def clStallstatState (c : Nat) : Fld := ⟨(17 + c), 0x464, 30, 2, 0⟩
/-- CL_STALLSTAT.FAULTS, bits 29:16, RC. -/
def clStallstatFaults (c : Nat) : Fld := ⟨(17 + c), 0x464, 16, 14, 0⟩
/-- CL_STALLSTAT.EPISODES, bits 15:0, RC. -/
def clStallstatEpisodes (c : Nat) : Fld := ⟨(17 + c), 0x464, 0, 16, 0⟩
/-- CL_CENSUSCFG.TOEXP, bits 4:0, RW. -/
def clCensuscfgToexp (c : Nat) : Fld := ⟨(17 + c), 0x470, 0, 5, 26⟩
/-- CL_ORPHCTX.VALID, bits 31:31, RO. -/
def clOrphctxValid (c : Nat) : Fld := ⟨(17 + c), 0x480, 31, 1, 0⟩
/-- CL_ORPHCTX.GEN, bits 21:14, RO. -/
def clOrphctxGen (c : Nat) : Fld := ⟨(17 + c), 0x480, 14, 8, 0⟩
/-- CL_ORPHCTX.CTX, bits 13:0, RO. -/
def clOrphctxCtx (c : Nat) : Fld := ⟨(17 + c), 0x480, 0, 14, 0⟩
/-- CL_ORPHCNT.HIGH, bits 31:16, RO. -/
def clOrphcntHigh (c i : Nat) : Fld := ⟨(17 + c), 0x484 + 4 * i, 16, 16, 0⟩
/-- CL_ORPHCNT.LOW, bits 15:0, RO. -/
def clOrphcntLow (c i : Nat) : Fld := ⟨(17 + c), 0x484 + 4 * i, 0, 16, 0⟩
/-- CL_PEOCC.HWM, bits 25:13, RC. -/
def clPeoccHwm (c i : Nat) : Fld := ⟨(17 + c), 0x500 + 4 * i, 13, 13, 0⟩
/-- CL_PEOCC.RESIDENT, bits 12:0, RO. -/
def clPeoccResident (c i : Nat) : Fld := ⟨(17 + c), 0x500 + 4 * i, 0, 13, 0⟩
/-- CL_GATECFG.REVPOL, bits 5:4, RW. -/
def clGatecfgRevpol (c : Nat) : Fld := ⟨(17 + c), 0x600, 4, 2, 0⟩
/-- CL_GATECFG.LATEFLT, bits 3:3, RW. -/
def clGatecfgLateflt (c : Nat) : Fld := ⟨(17 + c), 0x600, 3, 1, 0⟩
/-- CL_GATECFG.MODE, bits 0:0, RW. -/
def clGatecfgMode (c : Nat) : Fld := ⟨(17 + c), 0x600, 0, 1, 0⟩
/-- CL_GATESTAT.LATE, bits 31:20, RC. -/
def clGatestatLate (c : Nat) : Fld := ⟨(17 + c), 0x604, 20, 12, 0⟩
/-- CL_GATESTAT.HWM, bits 19:10, RC. -/
def clGatestatHwm (c : Nat) : Fld := ⟨(17 + c), 0x604, 10, 10, 0⟩
/-- CL_GATESTAT.USED, bits 9:0, RO. -/
def clGatestatUsed (c : Nat) : Fld := ⟨(17 + c), 0x604, 0, 10, 0⟩
/-- CL_REMAP.SUBST, bits 24:24, RO. -/
def clRemapSubst (c : Nat) : Fld := ⟨(17 + c), 0x700, 24, 1, 0⟩
/-- CL_REMAP.LPE, bits 23:20, RO. -/
def clRemapLpe (c : Nat) : Fld := ⟨(17 + c), 0x700, 20, 4, 0⟩
/-- CL_REMAP.FAILED, bits 16:0, RO. -/
def clRemapFailed (c : Nat) : Fld := ⟨(17 + c), 0x700, 0, 17, 0⟩
/-- CL_CLKCFG.VOLT, bits 13:8, RWP. -/
def clClkcfgVolt (c : Nat) : Fld := ⟨(17 + c), 0x800, 8, 6, 40⟩
/-- CL_CLKCFG.FREQ, bits 6:0, RWP. -/
def clClkcfgFreq (c : Nat) : Fld := ⟨(17 + c), 0x800, 0, 7, 64⟩
/-- CL_CLKSTAT.CHANGING, bits 31:31, RO. -/
def clClkstatChanging (c : Nat) : Fld := ⟨(17 + c), 0x804, 31, 1, 0⟩
/-- CL_CLKSTAT.VOLT, bits 13:8, RO. -/
def clClkstatVolt (c : Nat) : Fld := ⟨(17 + c), 0x804, 8, 6, 40⟩
/-- CL_CLKSTAT.FREQ, bits 6:0, RO. -/
def clClkstatFreq (c : Nat) : Fld := ⟨(17 + c), 0x804, 0, 7, 64⟩
/-- CL_SWADDR.SPACE, bits 31:29, RW. -/
def clSwaddrSpace (c : Nat) : Fld := ⟨(17 + c), 0x900, 29, 3, 0⟩
/-- CL_SWADDR.PPE, bits 28:24, RW. -/
def clSwaddrPpe (c : Nat) : Fld := ⟨(17 + c), 0x900, 24, 5, 0⟩
/-- CL_SWADDR.INDEX, bits 11:0, RW. -/
def clSwaddrIndex (c : Nat) : Fld := ⟨(17 + c), 0x900, 0, 12, 0⟩
/-- CL_SWCTL.BUSY, bits 31:31, RO. -/
def clSwctlBusy (c : Nat) : Fld := ⟨(17 + c), 0x904, 31, 1, 0⟩
/-- CL_SWCTL.ERR, bits 30:28, RO. -/
def clSwctlErr (c : Nat) : Fld := ⟨(17 + c), 0x904, 28, 3, 0⟩
/-- CL_SWCTL.WRITE, bits 1:1, W1S. -/
def clSwctlWrite (c : Nat) : Fld := ⟨(17 + c), 0x904, 1, 1, 0⟩
/-- CL_SWCTL.READ, bits 0:0, W1S. -/
def clSwctlRead (c : Nat) : Fld := ⟨(17 + c), 0x904, 0, 1, 0⟩
/-- CL_SWDATA.DATA, bits 31:0, RW. -/
def clSwdataData (c i : Nat) : Fld := ⟨(17 + c), 0x940 + 4 * i, 0, 32, 0⟩
/-- REP_STATE.QUEUED, bits 31:24, RO. -/
def repStateQueued : Fld := ⟨33, 0x0, 24, 8, 0⟩
/-- REP_STATE.UNIT, bits 23:8, RO. -/
def repStateUnit : Fld := ⟨33, 0x0, 8, 16, 0⟩
/-- REP_STATE.KIND, bits 7:4, RO. -/
def repStateKind : Fld := ⟨33, 0x0, 4, 4, 0⟩
/-- REP_STATE.WAITFW, bits 3:3, RO. -/
def repStateWaitfw : Fld := ⟨33, 0x0, 3, 1, 0⟩
/-- REP_STATE.STATE, bits 2:0, RO. -/
def repStateState : Fld := ⟨33, 0x0, 0, 3, 0⟩
/-- REP_RETIRE.GO, bits 31:31, W1S. -/
def repRetireGo : Fld := ⟨33, 0x4, 31, 1, 0⟩
/-- REP_RETIRE.KIND, bits 30:28, RW. -/
def repRetireKind : Fld := ⟨33, 0x4, 28, 3, 0⟩
/-- REP_RETIRE.ARRAY, bits 27:25, RW. -/
def repRetireArray : Fld := ⟨33, 0x4, 25, 3, 0⟩
/-- REP_RETIRE.INDEX, bits 24:12, RW. -/
def repRetireIndex : Fld := ⟨33, 0x4, 12, 13, 0⟩
/-- REP_RETIRE.UNIT, bits 11:0, RW. -/
def repRetireUnit : Fld := ⟨33, 0x4, 0, 12, 0⟩
/-- REP_RETCOMMIT.COMMIT, bits 0:0, WO. -/
def repRetcommitCommit : Fld := ⟨33, 0x8, 0, 1, 0⟩
/-- REP_RETTO.MS, bits 15:0, RW. -/
def repRettoMs : Fld := ⟨33, 0xC, 0, 16, 10⟩
/-- REP_PESPARE.FAILED, bits 31:16, RO. -/
def repPespareFailed : Fld := ⟨33, 0x10, 16, 16, 0⟩
/-- REP_PESPARE.USED, bits 15:0, RO. -/
def repPespareUsed : Fld := ⟨33, 0x10, 0, 16, 0⟩
/-- REP_MAPUSED.RECORDS, bits 12:0, RO. -/
def repMapusedRecords : Fld := ⟨33, 0x14, 0, 13, 0⟩
/-- REP_CENSUSCFG.INT, bits 7:0, RW. -/
def repCensuscfgInt : Fld := ⟨33, 0x18, 0, 8, 60⟩
/-- FLTSTAT.STAT, bits 31:0, W1C. -/
def fltstatStat (b : Nat) : Fld := ⟨b, 0xF000, 0, 32, 0⟩
/-- FLTLIVE.LIVE, bits 31:0, RO. -/
def fltliveLive (b : Nat) : Fld := ⟨b, 0xF004, 0, 32, 0⟩
/-- FLTFORCE.FORCE, bits 31:0, W1S. -/
def fltforceForce (b : Nat) : Fld := ⟨b, 0xF008, 0, 32, 0⟩
/-- FLTPERSIST.PERSIST, bits 31:0, W1C. -/
def fltpersistPersist (b : Nat) : Fld := ⟨b, 0xF00C, 0, 32, 0⟩
/-- FLTFORCEINST.INST, bits 5:0, RW. -/
def fltforceinstInst (b : Nat) : Fld := ⟨b, 0xF010, 0, 6, 0⟩
/-- FLTPEND.PEND, bits 31:0, W1C. -/
def fltpendPend (b : Nat) : Fld := ⟨b, 0xF014, 0, 32, 0⟩
/-- FLTHISTSTAT.LOST, bits 15:8, RC. -/
def flthiststatLost (b : Nat) : Fld := ⟨b, 0xF018, 8, 8, 0⟩
/-- FLTHISTSTAT.DEPTH, bits 3:0, RO. -/
def flthiststatDepth (b : Nat) : Fld := ⟨b, 0xF018, 0, 4, 0⟩
/-- FLTHISTPOP.POP, bits 0:0, W1S. -/
def flthistpopPop (b : Nat) : Fld := ⟨b, 0xF01C, 0, 1, 0⟩
/-- FLTHIST.WORD, bits 31:0, RO. -/
def flthistWord (b i : Nat) : Fld := ⟨b, 0xF020 + 4 * i, 0, 32, 0⟩
/-- FLTCFG.WEXP, bits 20:16, RW. -/
def fltcfgWexp (b i : Nat) : Fld := ⟨b, 0xF100 + 4 * i, 16, 5, (fltDefault b i 0)⟩
/-- FLTCFG.THR, bits 15:8, RW. -/
def fltcfgThr (b i : Nat) : Fld := ⟨b, 0xF100 + 4 * i, 8, 8, (fltDefault b i 1)⟩
/-- FLTCFG.PREACT, bits 6:4, RW. -/
def fltcfgPreact (b i : Nat) : Fld := ⟨b, 0xF100 + 4 * i, 4, 3, (fltDefault b i 2)⟩
/-- FLTCFG.REACT, bits 2:0, RW. -/
def fltcfgReact (b i : Nat) : Fld := ⟨b, 0xF100 + 4 * i, 0, 3, (fltDefault b i 3)⟩
/-- FLTCNT.WCOUNT, bits 31:24, RO. -/
def fltcntWcount (b i : Nat) : Fld := ⟨b, 0xF200 + 4 * i, 24, 8, 0⟩
/-- FLTCNT.TOTAL, bits 23:0, RC. -/
def fltcntTotal (b i : Nat) : Fld := ⟨b, 0xF200 + 4 * i, 0, 24, 0⟩
/-- FLTINSTLO.INST, bits 31:0, W1C. -/
def fltinstloInst (b i : Nat) : Fld := ⟨b, 0xF300 + 8 * i, 0, 32, 0⟩
/-- FLTINSTHI.INST, bits 31:0, W1C. -/
def fltinsthiInst (b i : Nat) : Fld := ⟨b, 0xF304 + 8 * i, 0, 32, 0⟩
/-- FLTCAUSE.WEXP, bits 20:16, RW. -/
def fltcauseWexp (b i : Nat) : Fld := ⟨b, 0xF400 + 4 * i, 16, 5, (causeDefault b i 0)⟩
/-- FLTCAUSE.THR, bits 15:8, RW. -/
def fltcauseThr (b i : Nat) : Fld := ⟨b, 0xF400 + 4 * i, 8, 8, (causeDefault b i 1)⟩
/-- FLTCAUSE.PREACT, bits 6:4, RW. -/
def fltcausePreact (b i : Nat) : Fld := ⟨b, 0xF400 + 4 * i, 4, 3, (causeDefault b i 2)⟩
/-- FLTCAUSE.REACT, bits 2:0, RW. -/
def fltcauseReact (b i : Nat) : Fld := ⟨b, 0xF400 + 4 * i, 0, 3, (causeDefault b i 3)⟩

end F

end Sys2Proof.Machine
end

