-- ==== Sys2Proof/Machine/State.lean ====
section
/-! DEFINITION. The state of the device: all the manual gives it, as plain data, and the state after reset. -/

namespace Sys2Proof.Machine

open Sys2Proof

/-! ### Tags, values, contexts (R38 to R50) -/

/-- A value with its type code (R42) and capability flag. -/
structure Val where
  v : Word
  ty : Nat
  cap : Bool
  deriving DecidableEq, Repr

/-- A tag (R38). -/
structure Tag where
  dev : Nat
  ctx : Nat
  iter : Nat
  ia : Nat
  /-- Logical destination: cluster × 16 + logical PE. -/
  pe : Nat
  /-- 0 L, 1 R, 2 T, 3 C. -/
  port : Nat
  pri : Nat
  phg : Bool
  deriving DecidableEq, Repr

/-- A token: tag and value. -/
structure Tok where
  tag : Tag
  val : Val
  deriving DecidableEq, Repr

/-- The states of a context (R46). -/
inductive CtxState where
  | free | creating | live | quiesced | returning
  deriving DecidableEq, Repr

/-- A scratch window of a descriptor (R47). -/
structure Win where
  base : Nat
  length : Nat
  /-- Bit 0 R, bit 1 W, bit 2 P, bit 3 B. -/
  perm : Nat
  deriving DecidableEq, Repr

/-- The fields of a context descriptor (R47) that a template or a creation command gives. -/
structure Desc where
  mode : Nat
  ring : Nat
  detonly : Bool
  farspill : Bool
  phsrc : Nat
  stallpol : Nat
  session : Nat
  fltch : Nat
  tmpl : Nat
  /-- K − 1 of the loops 0 to 7. -/
  kbound : List Nat
  mquota : Nat
  squota : Nat
  drvfirst : Nat
  drvcount : Nat
  /-- In the layout of R38. -/
  rettag : Nat
  w0 : Win
  w1 : Win
  w2 : Win
  fhpe : Nat
  fhia : Nat
  fhv : Bool
  deriving DecidableEq, Repr

/-- An ITERRET that waits at the slice (R64): iteration, and the PE and IA of its firing. -/
structure IterReq where
  iter : Nat
  loop : Nat
  pe : Nat
  ia : Nat
  deriving DecidableEq, Repr

/-- What the slice does when a context it creates becomes LIVE (R50). -/
inductive OnLive where
  /-- Nothing waits. -/
  | nothing
  /-- The firing with this outstanding request at (cluster × 17 + physical PE) receives the CTXREF. -/
  | firing (pe txn : Nat) (ref : Nat)
  /-- The session command waiting under this number completes. -/
  | command (cmd : Nat)
  deriving DecidableEq, Repr

/-- The progress of an orphan census (R142, R143). -/
structure Census where
  /-- etu of step 1: the last cluster reached. -/
  start : Option Nat
  /-- Last completed step, 0 before step 1. -/
  step : Nat
  oper : Nat
  ready : Nat
  held : Nat
  arrived : Nat
  defer : Nat
  answ : Nat
  /-- Clusters that the start has reached, and PEs (cluster × 16 + logical PE) that completed their scan. -/
  reached : List Nat
  scanned : List Nat
  /-- Clusters whose flush marker has returned, banks and gates that have been purged. -/
  flushed : List Nat
  spillDone : List Nat
  banks : List Nat
  gates : List Nat
  /-- CENSUSTO has been raised. -/
  overTime : Bool
  deriving DecidableEq, Repr

/-- A context slot: descriptor, loop state (R48), quota counters (R134) and what the slice is doing with it. -/
structure Ctx where
  state : CtxState
  gen : Nat
  d : Desc
  /-- HEADn and DONEn of the eight loops. -/
  head : List Nat
  done : List Nat
  mcount : Int
  scount : Int
  /-- Throttled by MQUOTA, by SQUOTA (R135). -/
  thrM : Bool
  thrS : Bool
  /-- (loop, cluster) of every loop window query (R136). -/
  queried : List (Nat × Nat)
  iterReqs : List IterReq
  /-- RETURN with END = 1 received and not yet applied. -/
  retPending : Bool
  /-- A quiesce has been raised and has not yet taken effect (R76, R77). -/
  quiescing : Bool
  /-- A quiesce has taken effect and the context has not resumed: its PEs fire nothing and the CTXQ cause of its
  channels is active (R76, R207). -/
  ctxq : Bool
  /-- Constant loads not yet acknowledged: the tokens that carry them (R50). -/
  loads : List Tok
  onLive : OnLive
  census : Option Census
  /-- PHSTALL has been raised in the present stall episode (R168). -/
  phStalled : Bool
  deriving DecidableEq, Repr

/-! ### Processing elements (R84 to R137) -/

/-- The kinds of matching store entries (R120). -/
inductive EKind where
  | operand | ready | const | counter
  deriving DecidableEq, Repr

/-- A matching store entry (R120). A constant or counter entry holds its value in `l`. -/
structure Entry where
  kind : EKind
  pri : Nat
  ctx : Nat
  iter : Nat
  ia : Nat
  l : Option Val
  r : Option Val
  t : Option Val
  /-- Insertion stamp, kept outside the entry (R120). -/
  stamp : Nat
  /-- The order in which ready entries became ready (R118). -/
  order : Nat
  deriving DecidableEq, Repr

/-- An operand set in the pipe. -/
structure Firing where
  ctx : Nat
  iter : Nat
  ia : Nat
  pri : Nat
  /-- Port of the completing token. -/
  port : Nat
  l : Option Val
  r : Option Val
  t : Option Val
  deriving DecidableEq, Repr

/-- Where a result goes: a destination of R85 or R86. -/
structure Dest where
  pe : Nat
  ia : Nat
  port : Nat
  top : Nat
  neg : Bool
  /-- PRI from the destination's flags when PRISET = 1. -/
  pri : Option Nat
  deriving DecidableEq, Repr

/-- A NEXTn result, or a PHREL result with its release phase, held by the throttle (R62, R111). -/
structure Held where
  tok : Tok
  loop : Nat
  rel : Option Nat
  /-- IA, completing port and ITER of the firing, for fault records. -/
  fia : Nat
  fport : Nat
  fiter : Nat
  deriving DecidableEq, Repr

/-- What a token in the pending-refill table waits for. -/
inductive ParkWhy where
  /-- The lookup of an operand entry, or of a constant, with the set index; whether the token's partner entry is known to be
  absent. -/
  | entry (set : Nat)
  | const (set : Nat) (entryDone : Bool)
  /-- The loop window query of a NEXTn result (R136). -/
  | loop (h : Held)
  deriving DecidableEq, Repr

/-- A token in the pending-refill table. -/
structure Parked where
  tok : Tok
  why : ParkWhy
  /-- The lookup or query has been issued. -/
  asked : Bool
  deriving DecidableEq, Repr

/-- A loop window query of a PE that its home slice has not answered: its transaction, context, loop and etu (R136, R231). -/
structure Query where
  txn : Nat
  ctx : Nat
  loop : Nat
  sent : Nat
  deriving DecidableEq, Repr

/-- An entry of the loop window cache (R136). -/
structure Lwc where
  ctx : Nat
  loop : Nat
  head : Nat
  k : Nat
  throttled : Bool
  deriving DecidableEq, Repr

/-- An entry of the delta cache (R134). -/
structure Delta where
  ctx : Nat
  dm : Int
  ds : Int
  deriving DecidableEq, Repr

/-- A request of a firing that waits for its answer (R108, R61, R50). -/
structure OutReq where
  txn : Nat
  ctx : Nat
  iter : Nat
  ia : Nat
  pri : Nat
  /-- Port of the token that completed the firing's set. -/
  port : Nat
  /-- The command sent (R224). -/
  cmd : Nat
  addr : Nat
  typex : Nat
  /-- Value that an ITERENTER sends on. -/
  val : Val
  dests : List Dest
  /-- Answered DEFERRED; DEFDATA is awaited. -/
  deferred : Bool
  station : Nat
  sent : Nat
  deriving DecidableEq, Repr

/-- An answer kept while its context is QUIESCED (R76): status and value. -/
structure Kept where
  req : OutReq
  status : Nat
  val : Val
  deriving DecidableEq, Repr

/-- A record to be written by the spill agent, or read back from it. -/
inductive Rec where
  | entry (e : Entry)
  | held (h : Held)
  deriving DecidableEq, Repr

/-- A record in the eviction buffer, with the always-on tick and the GEN of its context at eviction (R126). -/
structure Evicted where
  r : Rec
  tick : Nat
  gen : Nat
  deriving DecidableEq, Repr

/-- The token in the overflow hold, and which of its lookups, of its partner entry and of its constant, need no repetition
(R122, R129). -/
structure HoldTok where
  tok : Tok
  entryDone : Bool
  constDone : Bool
  deriving DecidableEq, Repr

/-- An answer of the spill agent to a PE (R127, R128): the set; how many records fewer the set has with it, taken back or
abandoned; for a lookup the key looked up, the record found, and the cause and DETAIL of a walk that failed. -/
structure SpAns where
  set : Nat
  less : Nat
  /-- A lookup or read answer; otherwise a write or unlink acknowledgement. -/
  look : Bool
  ctx : Nat
  iter : Nat
  ia : Nat
  isConst : Bool
  found : Option Rec
  /-- The record came from far spill. -/
  far : Bool
  fail : Option (Nat × Nat)
  deriving DecidableEq, Repr

/-- A physical PE. -/
structure Pe where
  imem : FMap Nat
  inq : List Tok
  outq : List Tok
  store : List Entry
  stamp : Nat
  pipe : Option Firing
  evict : List Evicted
  refill : List Parked
  /-- The overflow hold register: a token, or a held token that found no room (R129, R137). -/
  hold : Option Rec
  holdTok : Option HoldTok
  throttle : List Held
  lwc : List Lwc
  /-- Loop window queries not answered (R136). -/
  queries : List Query
  /-- Windows of the notices for which the agent has been asked to walk the held chain (R137). -/
  asks : List Lwc
  /-- Entries that a forced spill still owes, as the eviction buffer takes eight (R141). -/
  forced : Nat
  delta : List Delta
  filter : FMap Nat
  /-- Consecutive reads that passed over a waiting lower priority (R119). -/
  passed : Nat
  scan : Nat
  reqs : List OutReq
  nextTxn : Nat
  kept : List Kept
  /-- Results of a FORK, or of a firing whose table is full, that wait for room (R119, R136). -/
  outWait : List Tok
  loopWait : List Held
  /-- Lookups sent and not yet walked, and answers on their way. -/
  spAns : List SpAns
  /-- Stopped by a retirement (R394) or failed. -/
  stopped : Bool
  deriving DecidableEq, Repr

/-- A phase gate entry (R165). -/
structure GateE where
  tok : Tok
  rel : Nat
  src : Nat
  /-- Direction recorded at entry: forward. -/
  fwd : Bool
  late : Bool
  /-- Leaves in the next release pass, by STALLPOL or REVPOL (R168, R169). -/
  free : Bool
  deriving DecidableEq, Repr

/-- What a context table slice is asked, and the bodies of answers whose bits the manual does not lay out
(log entry 6). -/
inductive Body where
  | units (us : List Nat)
  /-- CTXNEW and GATECALL: descriptor ring, template, continuation, and the CTXREF bits to answer with. -/
  | create (tmpl ring rettag gate : Nat) (gated : Bool)
  | iterEnter (ctx loop : Nat)
  | query (ctx loop : Nat)
  | iterRet (ctx : Nat) (r : IterReq)
  | ret (ctx : Nat)
  /-- Answers and notices: HEADn, K and the throttled flag (R136). -/
  | window (ctx loop head k : Nat) (throttled : Bool)
  | census (ctx : Nat)
  deriving DecidableEq, Repr

/-- Who waits for the answer of a request: the firing of a PE (cluster × 17 + physical PE), or another agent
with the purpose of the request. -/
inductive Asker where
  | nobody
  | pe (idx : Nat)
  /-- A load, a store and a presence instruction of a supervisor thread. -/
  | core (thread addr reg size : Nat) (signedLoad : Bool)
  | coreStore (thread addr : Nat)
  | corePres (thread addr reg box : Nat)
  /-- The next word of the frame of RETE or GRET, and the words that it has read. -/
  | coreFrame (thread : Nat) (rete : Bool) (got : List Nat)
  | host (cmd : Nat)
  | ring (r : Nat)
  | log (stream : Nat)
  | sdp
  /-- A read of BAR0 whose register slept (R457). -/
  | bar
  deriving DecidableEq, Repr

/-- A packet in flight (R223): the header's fields, F, the data units and what the header does not carry. -/
structure Packet where
  src : Nat
  dstn : Nat
  dstp : Nat
  ring : Nat
  cmd : Nat
  vn : Nat
  epoch : Nat
  init : Nat
  /-- F[87:0]. -/
  f : Nat
  body : Body
  /-- CTX, ITER, PE and IA of a PE request, for a deferred entry (R265). -/
  who : Option (Nat × Nat × Nat × Nat)
  asker : Asker
  /-- The station whose input buffer holds it; and etu at which it began to wait to be injected (R228, R229). -/
  at_ : Nat := 0
  since : Nat := 0
  /-- Of a remote token: the span port of its route when it was queued (R253). -/
  via : Nat := 0
  /-- etu at which it reached its station; and whether its bank had accepted it when the fence was raised (R264, R267). -/
  came : Nat := 0
  acc : Bool := false
  deriving DecidableEq, Repr

/-- What travels on a cluster ring: a token as one short unit (R227), or a packet of header and data units. -/
inductive CBody where
  | short (u : Nat)
  | packet (p : Packet)
  deriving DecidableEq, Repr

/-- A unit or packet on a cluster ring: direction, the stop whose input buffer holds it, DSTOP, and whether it has entered the
ring or waits at its own stop to enter it (R221, R228, R229). -/
structure CUnit where
  body : CBody
  cw : Bool
  at_ : Nat
  dstop : Nat
  entered : Bool
  deriving DecidableEq, Repr

/-- The state of a cluster beside its PEs and registers. -/
structure Cluster where
  /-- Spill agent: near free list as the records freed, and the first near record never used, per window. -/
  nearUsed : FMap Bool
  farFree : List Nat
  farBump : Nat
  far : FMap Nat
  /-- Spilled-ready and held chains of each logical PE: record pointers, near below 2^20, far from 2^32. -/
  readyChain : FMap (List Nat)
  heldChain : FMap (List Nat)
  /-- Records unlinked and not yet freed. -/
  toFree : List Nat
  /-- CLn_NSWINk as it stood before the commit that made window k draining. -/
  oldWin : FMap Nat
  gate : List GateE
  reserved : Nat
  /-- The debugger has halted the cluster (R447). -/
  halted : Bool
  /-- Units on the cluster rings, and those that wait at a stop to enter them, in order (R221, R227 to R229). -/
  units : List CUnit
  deriving DecidableEq, Repr

/-! ### Phase engine (R147 to R178) -/

/-- What a receiver of the phase bus holds of one source (R148). Words and velocities are 64-bit patterns. -/
structure BusSrc where
  pb : Nat
  v : Nat
  /-- Bits 2:0 the state, bit 3 the direction (1 reverse). -/
  status : Nat
  /-- The limit of R154 that holds for the word, in a LOCKED source of a count type. -/
  lim : Option Nat
  /-- A reversal was declared in the tick of the word (R156, R169). -/
  turned : Bool
  deriving DecidableEq, Repr

/-- An event of the estimator: measured phase in pu and etu (R154). -/
structure PhEvent where
  pm : Int
  te : Nat
  deriving DecidableEq, Repr

/-- The machinery of one phase source beside its registers. Positions are in pu, not yet reduced modulo 2^64. -/
structure PhSrc where
  turns : Int
  k : Nat
  hist : List PhEvent
  p0 : Int
  t0 : Nat
  pi : Int
  v : Int
  /-- What the source publishes: word, velocity, and status as the bus carries it. -/
  pb : Nat
  pv : Int
  pst : Nat
  /-- Run of opposite-direction events (R156). -/
  run : Nat
  lim : Int
  /-- etu of the last event and of the entry to COASTING. -/
  lastEvent : Nat
  coastAt : Nat
  /-- Events since the source started, and since the last timeout of the primary. -/
  events : Nat
  sinceTimeout : Nat
  /-- State and direction (reverse) as tracked on the primary input. -/
  state : Nat
  rev : Bool
  homed : Bool
  /-- Homing, the entry to LOCKED from ACQUIRING, a declared reversal: pb = pi at the next tick (R155). -/
  homePending : Bool
  enterLocked : Bool
  reversed : Bool
  /-- The word last published carries a declared reversal. -/
  turned : Bool
  /-- The alternative is published, with its offset (R161). -/
  switched : Bool
  swOffs : Nat
  /-- First event after a stall has been seen, at this etu. -/
  stallFirst : Option Nat
  /-- Tachometer: armed below −H, last sample and its time (R152), and a crossing. -/
  tachArmed : Bool
  tachLast : Option (Int × Nat)
  /-- Time of the zero crossing whose +H has not yet been reached. -/
  tachCross : Option Nat
  /-- Status of the remote source in the last frame (R178). -/
  remote : Nat
  deriving DecidableEq, Repr

/-! ### Converter complex (R181 to R218) -/

/-- An output frame strobe: frame sequence, source and stamp with its phase status (R190), and stamp instant in etu. -/
structure Strobe where
  seq : Nat
  src : Nat
  stamp : Nat
  st : Nat
  at_ : Int
  /-- Sample words and MODFAULT of the frame accepted for it, and whether the frame has been processed: frames are
  processed in the order of their strobes (R192). -/
  got : Option (List (Nat × Nat) × Bool)
  done : Bool
  deriving DecidableEq, Repr

/-- A converter port beside its registers. -/
structure Port where
  /-- Number of OSTB edges since framing started; the last sequence is `ostbs − 1`. -/
  ostbs : Nat
  /-- The strobes that no edge OSTB(s + 2) has closed, oldest first. -/
  strobes : List Strobe
  /-- Last accepted sample word of each port channel (R189). -/
  lastWord : FMap Nat
  okRun : Nat
  missRun : Nat
  frameMiss : Bool
  smpLost : Bool
  modFault : Bool
  /-- SYNC has been lost by missing frames and has not set again (R218, R380). -/
  lostSync : Bool
  /-- Input channels in an OVERRANGE episode. -/
  ovr : List Nat
  deriving DecidableEq, Repr

/-- A capture ring beside its registers (R195 to R200). -/
structure Ring where
  avail : Nat
  since : Nat
  trig : Nat
  left : Nat
  armRev : Bool
  trigPh : Nat
  swTrig : Bool
  /-- Device-wide causes taken, as counted when the last record was written. -/
  abortSeen : Nat
  trigCode : Nat
  trigSeq : Nat
  trigStamp : Nat
  /-- Records written since, and with, the last one that has SUBST. -/
  substAge : Option Nat
  /-- Sample of the level channel in the last record, unless substituted. -/
  prev : Option Int
  deriving DecidableEq, Repr

/-- A drive channel beside its registers (R201 to R208). -/
structure Chan where
  /-- Codes waiting, oldest first. -/
  q : List Int
  /-- Code sent in the last output frame, and code last applied by the module. -/
  last : Int
  applied : Int
  /-- Codes of the frames closed and not yet applied, oldest first. -/
  sent : List Int
  /-- Ramp values sent, and the code that the ramp started from. -/
  rampK : Nat
  rampY : Int
  /-- In an episode of DRVUNDER, of DRVLATE. -/
  underEp : Bool
  lateEp : Bool
  deriving DecidableEq, Repr

/-! ### Ring network and span links (R221 to R254) -/

/-- A request outstanding at a station for an agent other than a PE. -/
structure Pending where
  init : Nat
  txn : Nat
  asker : Asker
  dstn : Nat
  deferred : Bool
  /-- etu of the injection. -/
  sent : Nat
  /-- Units of a ring read that have arrived, after TOTAL. -/
  got : List Nat
  deriving DecidableEq, Repr

/-- A station (R228 to R241): parked packets and the outstanding-response count of its domain. -/
structure Station where
  parkTok : List Packet
  parkReq : List Packet
  parkMgt : List Packet
  pend : List Pending
  nextTxn : Nat
  /-- (initiator, packets, units, waits, responses, latency sum, latency maximum), live, of the readable shadow half and of the other. -/
  stats : List (Nat × List Nat)
  shadow : List (Nat × List Nat)
  latched : List (Nat × List Nat)
  /-- 16-packet remote queue of a cluster station (R247). -/
  remoteQ : List Packet
  deriving DecidableEq, Repr

/-- A span port beside its registers (R243 to R251). -/
structure Span where
  /-- SEQ of the next sequenced codeword, and the sequenced codewords not acknowledged: SEQ, FHO and units (R244, R245). -/
  txSeq : Nat
  replay : List (Nat × Nat × List Nat)
  /-- Units still to be sent of a packet that a codeword has begun, and units received of one that a codeword has not ended. -/
  txPart : List Nat
  rxPart : List Nat
  /-- SEQ expected next, and a NAK owed to the peer. -/
  rxSeq : Nat
  nakOwed : Bool
  /-- etu of the replays of the last millisecond. -/
  replays : List Nat
  /-- Credits for TOK class 0 and 1, MGT class 0 and 1, in units; whether the peer has granted its buffers. -/
  credits : List Nat
  granted : Bool
  /-- Packets that wait to be sent, and TOK packets held in the receive buffer by a full quiesce (R253). -/
  sendQ : List Packet
  recvQ : List Packet
  /-- Link delays of the last 16 probes: round trip less holding time, in etu. -/
  samples : List Nat
  /-- The peer before a retrain: DEV, port, and etu of the loss. -/
  oldPeer : Option (Nat × Nat × Nat)
  deriving DecidableEq, Repr

/-- An MGT request mapped onto a span TXN (R247). -/
structure SpanTxn where
  txn : Nat
  src : Nat
  init : Nat
  origTxn : Nat
  asker : Asker
  port : Nat
  deriving DecidableEq, Repr

/-! ### Scratch banks and locks (R256 to R281) -/

/-- A deferred entry (R265). -/
structure DefE where
  addr : Nat
  take : Bool
  init : Nat
  station : Nat
  rstop : Nat
  txn : Nat
  who : Option (Nat × Nat × Nat × Nat)
  /-- Destination fields of a PE request. -/
  dests : List Dest
  asker : Asker
  deriving DecidableEq, Repr

/-- A lock cell (R275). -/
structure Lock where
  held : Bool
  holder : Nat
  abandoned : Bool
  deriving DecidableEq, Repr

/-- The row the sweep tests next, and the rows interrupted in this pass with their counts (R271). -/
structure Sweep where
  bank : Nat
  row : Nat
  interrupted : List (Nat × Nat)
  /-- Columns found failing in the present bank in this pass, with their rows. -/
  weakCols : List (Nat × Nat)
  deriving DecidableEq, Repr

/-! ### Fault groups, observation queues, sessions (R311 to R348, R379 to R390) -/

/-- A fault history entry (R383). -/
structure HistE where
  source : Nat
  inst : Nat
  forced : Bool
  persist : Bool
  react : Nat
  fallback : Bool
  /-- CTX and GEN, when the event names a context. -/
  ctx : Option (Nat × Nat)
  detail : Nat
  phase : Nat
  tick : Nat
  deriving DecidableEq, Repr

/-- An item of an observation queue (R341): kind, priority, channel, sequence number, tick, phase word of
source 0, and the 40 bytes of payload as one number. -/
structure Item where
  kind : Nat
  pri : Nat
  chan : Nat
  seq : Nat
  tick : Nat
  phase : Nat
  payload : Nat
  deriving DecidableEq, Repr

/-- The marker slot of an observation queue (R342). -/
structure Marker where
  first : Nat
  last : Nat
  count : Nat
  pri : Nat
  tick : Nat
  phase : Nat
  deriving DecidableEq, Repr

/-- An observation queue (R340 to R344). -/
structure Queue where
  items : List Item
  marker : Option Marker
  next : Nat
  attached : Option Nat
  deriving DecidableEq, Repr

/-- A command of a session: fetched and waiting, or started and not completed. -/
structure Cmd where
  /-- Number given at fetch, and the session. -/
  id : Nat
  sess : Nat
  e : SqEntry
  sqhead : Nat
  started : Bool
  /-- What the command still waits for: a context, a count of answers, bytes collected. -/
  ctx : Nat
  left : Nat
  acc : List Nat
  status : Nat
  deriving DecidableEq, Repr

/-- A completion not yet written (R321, R327). -/
structure Compl where
  cid : Nat
  sqhead : Nat
  status : Nat
  detail : Nat
  r0 : Nat
  r1 : Nat
  deriving DecidableEq, Repr

/-- The states of a session (R316). -/
inductive SessState where
  | free | active | error | closing
  deriving DecidableEq, Repr

/-- A session (R316 to R324). -/
structure Sess where
  st : SessState
  fn : Nat
  slot : Nat
  group : Nat
  sqBase : Nat
  cqBase : Nat
  evBase : Nat
  sqLog : Nat
  cqLog : Nat
  evLog : Nat
  vec : Nat
  evVec : Nat
  coalN : Nat
  coalUs : Nat
  sqTail : Nat
  sqHead : Nat
  cqTail : Nat
  cqHead : Nat
  cqPass : Nat
  evTail : Nat
  evHead : Nat
  evPass : Nat
  cmds : List Cmd
  held : List Compl
  /-- Completions and events not yet signalled, and etu of the first. -/
  cqUns : Nat
  cqSince : Nat
  evUns : Nat
  evSince : Nat
  /-- Host writes are suppressed (function-level reset, R339). -/
  mute : Bool
  /-- The command of session 0 that destroys this session, and the contexts it killed. -/
  destroyer : Option Nat
  killed : Nat
  /-- Last queue served by the courier. -/
  rot : Nat
  deriving DecidableEq, Repr

/-- An argument slot or fault handler (R336). -/
structure ArgSlot where
  pe : Nat
  ia : Nat
  port : Nat
  deriving DecidableEq, Repr

/-- A template constant (R336). -/
structure TConst where
  val : Nat
  ty : Nat
  kind : Nat
  pe : Nat
  ia : Nat
  deriving DecidableEq, Repr

/-- A loaded template (R336). -/
structure Template where
  handle : Nat
  image : Nat
  d : Desc
  args : List ArgSlot
  consts : List TConst
  deriving DecidableEq, Repr

/-- A placed range of a loaded image (R336): logical PE, first IA, words, and the extension marks. -/
structure Placed where
  pe : Nat
  first : Nat
  words : List Nat
  ext : List Bool
  deriving DecidableEq, Repr

/-- A loaded image (R337): id, loading session, places, bytes. -/
structure Image where
  id : Nat
  sess : Nat
  places : List Placed
  bytes : List Nat
  deriving DecidableEq, Repr

/-! ### Supervisor cores (R283 to R310) -/

/-- A hardware thread. -/
structure Thread where
  /-- g1 to g30; g31 is the stack pointer of the current ring. -/
  g : FMap Word
  pc : Nat
  sp : List Nat
  ring : Nat
  mask : Nat
  inRescue : Bool
  vbase : Nat
  gtbase : Nat
  gtcount : Nat
  lstart : Nat
  lend : Nat
  lcount : Nat
  matIdx : Nat
  wdog : Nat
  wdogSince : Nat
  /-- etu of the core's last reset, from which CYCLE counts. -/
  cycle : Nat
  /-- Interrupt sources pending (PEND). -/
  pend : Nat
  /-- Pending asynchronous causes: imprecise store BUSERR (address), WATCHDOG, PEERHALT mask. -/
  busErr : Option Nat
  wdogPend : Bool
  peerHalt : Nat
  /-- The instruction at pc is a delay slot: address of the branch, target, taken. -/
  slot : Option (Nat × Nat × Bool)
  /-- Held by WAIT until an event is pending. -/
  waiting : Bool
  /-- The instruction at pc awaits the answer of its access; stores not yet answered. -/
  loading : Bool
  stores : Nat
  /-- The next instruction boundary ignores breakpoints (R446). -/
  skipBreak : Bool
  /-- The debug port steps this thread (R445). -/
  stepping : Bool
  /-- etu at which the debug port halted the core: WDOG does not count from then on. -/
  haltAt : Nat
  deriving DecidableEq, Repr

/-- A memory attribute entry (R290). -/
structure Mat where
  base : Nat
  lim : Nat
  attr : Nat
  deriving DecidableEq, Repr

/-! ### Log engine (R349 to R378) -/

/-- A formed record (R361). -/
structure LogRec where
  kind : Nat
  stream : Nat
  seq : Nat
  tick : Nat
  bytes : List Nat
  /-- Session command that completes when the record is durable (LOG_APPEND). -/
  cmd : Option Nat
  /-- Formed from its ring again after a rewind (R368), and where its stream then stands. -/
  again : Bool
  pos : Nat
  expect : Option Nat
  deriving DecidableEq, Repr

/-- A stream's decimation state (R350, R351). -/
structure Stream where
  /-- Next ring record to be read, counted as the ring's TOTAL, and the sequence expected. -/
  pos : Nat
  expect : Option Nat
  /-- Samples of the block being formed: frame sequence and words. -/
  block : List (Nat × List Nat)
  /-- Outputs held, each a list of lane words; the first frame they cover. -/
  outs : List (List Nat)
  firstSeq : Nat
  firstStamp : Nat
  /-- Read position and expected sequence at the last durable chunk (R368). -/
  durable : Nat × Option Nat
  /-- The read on its way: its position, plus 2^32 for one of an event capture. -/
  reading : Option Nat
  /-- An event capture being read: next ring index, records left (R349). -/
  event : Option (Nat × Nat)
  deriving DecidableEq, Repr

/-- What an NVMe command does for the engine. -/
inductive NvPurpose where
  | write (chunk : Nat)
  | flush (chunk : Nat)
  | trailer
  | sealFlush
  | directory
  | dirFlush
  | label
  | deallocate
  | reclaim
  | resumeRead
  deriving DecidableEq, Repr

/-- An NVMe command, outstanding or waiting for its queue (R355, R358). -/
structure NvCmd where
  cid : Nat
  opc : Nat
  purpose : NvPurpose
  slot : Nat
  off : Nat
  len : Nat
  data : List Nat
  fails : Nat
  sent : Nat
  deriving DecidableEq, Repr

/-- The open segment of a namespace (R359 to R367). -/
structure Segment where
  seq : Nat
  slot : Nat
  opened : Nat
  /-- Chunks filled with their hashes, and those that are durable. -/
  taken : List (Nat × List Nat)
  durable : List Nat
  /-- By chunk: records not yet durable, index entries, end of the last record. -/
  recs : List (Nat × LogRec)
  index : List (Nat × List Nat)
  ends : List (Nat × Nat)
  header : List Nat
  /-- To be sealed before it is full; the tick of an earlier sealing that a resume repeats. -/
  early : Bool
  closedAt : Option Nat
  /-- Being sealed: tick, H_s. -/
  sealing : Option (Nat × List Nat)
  deriving DecidableEq, Repr

/-- A sealed segment, as its directory entry has it (R364). -/
structure SealedSeg where
  slot : Nat
  seq : Nat
  opened : Nat
  closed : Nat
  hash : List Nat
  deriving DecidableEq, Repr

/-- An attached namespace (R356, R357). -/
structure Ns where
  nsid : Nat
  qid : Nat
  qsize : Nat
  sqBase : Nat
  cqBase : Nat
  sqDb : Nat
  cqDb : Nat
  stBase : Nat
  stSize : Nat
  lbads : Nat
  mdts : Nat
  slots : Nat
  sealedSegs : List SealedSeg
  seg : Option Segment
  /-- Commands outstanding, and commands that wait for room in the queue. -/
  cmds : List NvCmd
  wait : List NvCmd
  nextCid : Nat
  sqTail : Nat
  cqHead : Nat
  failed : Bool
  deriving DecidableEq, Repr

/-- A journal entry (R366); TYPE 0 stands for the writing of a state record. -/
structure JEntry where
  jseq : Nat
  typ : Nat
  ns : Nat
  chunk : Nat
  slot : Nat
  seq : Nat
  hash : List Nat
  deriving DecidableEq, Repr

/-- A state record (R366): namespaces as index, NSID, SLOTS and H_0 of the label. -/
structure JState where
  jseq : Nat
  logId : Nat
  h0 : List Nat
  lastSealed : Nat
  chain : List Nat
  nss : List (Nat × Nat × Nat × List Nat)
  deriving DecidableEq, Repr

/-- The log engine beside its registers. -/
structure LogSt where
  nss : FMap (Option Ns)
  streams : FMap Stream
  logId : Nat
  jseq : Nat
  nextSeq : Nat
  lastSealed : Nat
  chain : List Nat
  h0 : List Nat
  /-- Journal writes that the MRAM has not completed, and records formed and not yet in a chunk. -/
  jq : List JEntry
  staged : List LogRec
  /-- Namespace and number of the chunk being filled, and its bytes. -/
  cur : Option (Nat × Nat)
  fill : List Nat
  /-- The engine is stopping (R371, R372), and the session commands in progress: LOG_STOP, LOG_CREATE,
  LOG_RESUME; a reclaim with its command, its sequence and the segments that it frees. -/
  stopping : Bool
  stopCmd : Option Nat
  createCmd : Option Nat
  reclaim : Option (Option Nat × Nat × Nat)
  resumeCmd : Option Nat
  /-- LOG_RESUME: 1 reading the directories, 2 reading segments, 3 sealing again; and what has been read, by namespace,
  slot and offset. -/
  resumeStep : Nat
  rdata : List (Nat × Nat × Nat × List Nat)
  /-- Causes of PAUSED: bit 0 link, bit 1 host memory, bit 2 retries (R370). -/
  pause : Nat
  /-- The journal in MRAM: entries written, the entries it holds with the latest last, and state records. -/
  jcount : Nat
  jlog : List JEntry
  jstates : List JState
  deriving DecidableEq, Repr

/-! ### Power, clocks, reset, security, debug (R402 to R451) -/

/-- A request in the wake ledger (R411). -/
structure WakeReq where
  dom : Nat
  /-- Event time in etu; the request itself at its entry. -/
  at_ : Nat
  entered : Nat
  /-- Current step in 0.1 A × 10^9, ramp in ns, charge in 0.1 µC. -/
  di : Nat
  ramp : Nat
  q : Nat
  /-- A rise of the operating point of a cluster, not a wake. -/
  dvfs : Bool
  counted : Bool
  deriving DecidableEq, Repr

/-- An admitted wake: its step while it ramps, and its charge until it leaves the twilight window. -/
structure Admitted where
  dom : Nat
  at_ : Nat
  di : Nat
  ramp : Nat
  q : Nat
  dvfs : Bool
  deriving DecidableEq, Repr

/-- The transition a domain is in. -/
inductive DomPhase where
  | steady
  /-- Fence raised, closing begun: target state. -/
  | fenced (target : Nat)
  | closing (target : Nat)
  | waking
  /-- After a cluster MIDNIGHT: the filters are being reloaded. -/
  | refilling
  deriving DecidableEq, Repr

/-- A change of operating point under way (R415). -/
inductive OpPhase where
  | none
  | ledger
  | volt
  | relock
  | lower
  | lowerVolt
  deriving DecidableEq, Repr

/-- What a pin of the device does (R15, R421): high impedance, driven low by an open drain, electrical idle, an input, or driven. -/
inductive PinState where
  | highZ | low | idle | input | driven
  deriving DecidableEq, Repr

/-- Where the Dawn sequence stands (R418). -/
inductive Dawn where
  | unpowered
  /-- In reset: held by RESET_N. -/
  | held
  /-- Step `n` has completed, 1 to 7. -/
  | step (n : Nat)
  deriving DecidableEq, Repr

/-- The device configuration record (R430). -/
structure CfgRec where
  prefer : Nat
  trial : Bool
  trials : Nat
  profDef : Nat
  keySlots : List (Option (List Nat))
  seqNo : Nat
  deriving DecidableEq, Repr

/-- A retirement, running or queued (R391 to R400). -/
structure Retire where
  kind : Nat
  array : Nat
  unit : Nat
  index : Nat
  deriving DecidableEq, Repr

/-- What leaves the device (R312 to R345, R177, R355, R440). -/
inductive Output where
  /-- Completion entry `i` of a session: bytes. -/
  | completion (sess index : Nat) (bytes : List Nat)
  | event (sess index : Nat) (bytes : List Nat)
  | msix (fn vec : Nat)
  /-- Data written to host memory. -/
  | host (fn addr : Nat) (bytes : List Nat)
  | hostRead (fn addr len : Nat)
  /-- An output frame of a port: the words of its lanes. -/
  | frame (port : Nat) (lane0 lane1 : List Nat)
  /-- The message of a codeword sent on a span port (R244). -/
  | span (port msg : Nat)
  /-- An NVMe command: namespace, CID, opcode, slot of 64 MB and offset in it, length and data (R355, R357). -/
  | nvme (ns cid opc slot offset len : Nat) (data : List Nat)
  | sdp (ack : Nat) (rdata : Option Nat)
  | config (status data : Nat)
  | barData (status data : Nat)
  /-- Bits shifted out of the TAP (R451). -/
  | tap (data : Nat)
  deriving DecidableEq, Repr

/-! ### The device -/

/-- Why a step can stop the block. No command of the device stops it: a condition that the manual refuses is
answered by the device itself (a status, CFGERR, a fault event), which is a next state. -/
inductive Fault where
  /-- Raised by nothing: kept so that the type has a value to name. Safe. -/
  | none
  deriving DecidableEq, Repr

/-- Why a command is refused. -/
inductive Refusal where
  /-- The command has no meaning yet. Raised by `exec`'s own arms only. Safe: the run ends there. -/
  | notModelled (mnemonic : String)
  deriving DecidableEq, Repr

/-- The device: every register, store, queue, counter, mode and pin of the manual as plain data. -/
structure State where
  /-- Register fields by (BAR0 offset × 32 + lowest bit); a field not listed holds its reset value. -/
  regs : FMap Nat
  /-- Shadow copies of RWP fields that differ from the values in force (R12). -/
  shadow : FMap Nat
  /-- Blocks whose RWL fields are locked (R10). -/
  locked : List Nat
  /-- Fuses: variant, stepping, lifecycle, security version floor, firmware key hash. -/
  variant : Nat
  stepping : Nat
  lifecycle : Nat
  svnFloor : Nat
  fwKeyHash : List Nat
  identityOk : Bool
  /-- Engine time in etu of 625 ps since power-on (R147); the always-on tick is one part in 64 of it (R403). -/
  now : Nat
  /-- Progress of the Dawn sequence, and the device halt (R387). -/
  dawn : Dawn
  deviceHalted : Bool
  /-- Injection stopped by a full quiesce (R34), and the quiesce's step. -/
  injectStop : Bool
  quiesceStep : Nat
  pins : FMap Nat
  ctxs : FMap Ctx
  templates : List Template
  images : List Image
  stored : FMap (List Nat)
  gateTable : FMap Nat
  pes : FMap Pe
  clusters : FMap Cluster
  phs : FMap PhSrc
  /-- Words in force at the receivers: receiver × 16 + source (receivers 0 to 15 the clusters, 16 CNV, 17 PWR,
  18 SPN, 19 LOG, 20 STAT). -/
  bus : FMap BusSrc
  /-- Sets published and not yet applied, oldest first, and the set applied last (R148). -/
  phQueue : List (List BusSrc)
  phNow : List BusSrc
  /-- Sets that the converter complex applied before the present one, newest first, as far back as a stamp offset reaches
  (R190). -/
  phPast : List (List BusSrc)
  /-- etu at which phase frames were last exported (R177). -/
  exportAt : Nat
  /-- Filtered input levels: triplet × 4 + (A, B, Z, M). -/
  inputs : FMap Nat
  held : FMap Nat
  ports : FMap Port
  rings : FMap Ring
  chans : FMap Chan
  /-- Update counter of each PHASE schedule, and etu of its last due close (R204). -/
  schedU : FMap Nat
  schedAt : FMap Nat
  /-- Bits of DRV_ABORTSTAT.CAUSE whose pin or supply condition is active now (PIN, SUPPLY). -/
  activeCauses : List Nat
  /-- Groups whose DRIVE_EN_N is released when their ramps end (R210). -/
  offPending : List Nat
  /-- Device-wide abort causes taken so far (R199). -/
  abortCount : Nat
  /-- etu of the start of the heartbeat timer while it runs. -/
  heartbeatAt : Option Nat
  net : List Packet
  stations : FMap Station
  /-- etu at which the changeover under way began to drain, until EPOCHTO (R235). -/
  epochAt : Option Nat
  spans : FMap Span
  spanTxns : List SpanTxn
  /-- Byte-addressed memory by device address (R454); an unlisted byte reads as zero. -/
  mem : List Host.Cell
  /-- Presence of a scratch word by word number: 0 EMPTY, 1 FULL, 2 DEFERRED (R65). -/
  presence : FMap Nat
  /-- Words held uncorrectable (R269). -/
  bad : FMap Bool
  defers : FMap (List DefE)
  /-- The background sweep of the scratch banks (R271). -/
  sweep : Sweep
  locks : FMap Lock
  flt : FMap (List HistE)
  /-- Window starts and private counts of the classifiers: block × 128 + source, or + 64 + cause. -/
  wstart : FMap Nat
  causeCnt : FMap Nat
  causePersist : FMap Bool
  census : FMap Nat
  censusSeen : FMap Nat
  lifetime : FMap Nat
  retQueue : List Retire
  running : Option (Retire × Nat)
  copied : Bool
  /-- Firmware has committed the running PE retirement, whose copy is not complete (R394). -/
  committed : Bool
  spareRows : FMap Nat
  mapRecs : List (List Nat)
  queues : FMap Queue
  sessions : FMap Sess
  nextCmd : Nat
  msixMask : FMap Nat
  fnState : FMap Nat
  grants : FMap Nat
  linkState : Nat
  crsWindow : Bool
  /-- Functions whose function-level reset is in progress (R339). -/
  flrFns : List Nat
  threads : FMap Thread
  mats : FMap Mat
  log : LogSt
  doms : FMap DomPhase
  ledger : List WakeReq
  admitted : List Admitted
  opPhase : FMap OpPhase
  /-- Counters of the physical PEs (R144): PE key × 8 + 0 evictions, 1 near refills, 2 far refills, 3 lookups
  skipped by the filter, 4 tokens held, 5 forced-spill evictions. -/
  ctrs : FMap Nat
  /-- The snapshot under way (R417): 0 none, 1 launched at `snapAt`, 2 latched; counters of the readable half, and of the
  other. -/
  snapStep : Nat
  snapAt : Nat
  snapshot : FMap Nat
  latched : FMap Nat
  /-- Next known event of a domain in etu, as last computed, and what it was computed from (R409, R410). -/
  pwrE : FMap (Option Nat)
  pwrSig : FMap (List (List Int))
  cfgRec : Option CfgRec
  cfgPending : Option CfgRec
  idxL : Nat
  idxRseq : Nat
  idxLow : Bool
  mlog : List (List Nat)
  mAcc : List Nat
  fwInfo : List Nat
  quoteCmd : Option (Nat × Nat × List Nat)
  hashReq : Option (Nat × Nat)
  recovery : Bool
  dbgData : Nat
  dbgBusy : Nat
  authBuf : FMap Nat
  authBusy : Bool
  challengeNo : Nat
  tap : Nat
  /-- The model's own: the number of free values taken so far (log entry 3). -/
  free : Nat
  /-- The model's own: what has left the device, latest last (log entry 4). -/
  out : List Output
  /-- The commands that wait, first in first out. -/
  pending : List Instr
  deriving DecidableEq, Repr

/-! ### The state after reset -/

def Val.zero : Val := ⟨0, 0, false⟩

def Win.off : Win := ⟨0, 0, 0⟩

/-- RETTAG bit 0 = 1 marks no continuation (R47). -/
def Desc.init : Desc :=
  { mode := 0, ring := 0, detonly := false, farspill := false, phsrc := 0, stallpol := 0, session := 0, fltch := 0,
    tmpl := 0, kbound := [0, 0, 0, 0, 0, 0, 0, 0], mquota := 0, squota := 0, drvfirst := 0, drvcount := 0, rettag := 1,
    w0 := .off, w1 := .off, w2 := .off, fhpe := 0, fhia := 0, fhv := false }

/-- A context slot that has not been used since the device reset (R46). -/
def Ctx.init : Ctx :=
  { state := .free, gen := 0, d := .init, head := [0, 0, 0, 0, 0, 0, 0, 0], done := [0, 0, 0, 0, 0, 0, 0, 0],
    mcount := 0, scount := 0, thrM := false, thrS := false, queried := [], iterReqs := [], retPending := false,
    quiescing := false, ctxq := false, loads := [], onLive := .nothing, census := none, phStalled := false }

def Pe.init : Pe :=
  { imem := [], inq := [], outq := [], store := [], stamp := 0, pipe := none, evict := [], refill := [], hold := none,
    holdTok := none, throttle := [], lwc := [], queries := [], asks := [], forced := 0, delta := [], filter := [], passed := 0, scan := 0, reqs := [],
    nextTxn := 0, kept := [], outWait := [], loopWait := [], spAns := [], stopped := false }

def Cluster.init : Cluster :=
  { nearUsed := [], farFree := [], farBump := 0, far := [], readyChain := [], heldChain := [],
    toFree := [], oldWin := [], gate := [], reserved := 0, halted := false, units := [] }

def BusSrc.init : BusSrc := ⟨0, 0, 0, none, false⟩

def PhSrc.init : PhSrc :=
  { turns := 0, k := 0, hist := [], p0 := 0, t0 := 0, pi := 0, v := 0, pb := 0, pv := 0, pst := 0, run := 0, lim := 0,
    lastEvent := 0, coastAt := 0, events := 0, sinceTimeout := 0, state := 0, rev := false, homed := false,
    homePending := false, enterLocked := false, reversed := false, turned := false, switched := false, swOffs := 0, stallFirst := none,
    tachArmed := false, tachLast := none, tachCross := none, remote := 0 }

def Port.init : Port :=
  { ostbs := 0, strobes := [], lastWord := [], okRun := 0, missRun := 0, frameMiss := false,
    smpLost := false, modFault := false, lostSync := false, ovr := [] }

def Ring.init : Ring :=
  { avail := 0, since := 0, trig := 0, left := 0, armRev := false, trigPh := 0, swTrig := false, abortSeen := 0,
    trigCode := 0, trigSeq := 0, trigStamp := 0, substAge := none, prev := none }

def Chan.init : Chan := { q := [], last := 0, applied := 0, sent := [], rampK := 0, rampY := 0, underEp := false, lateEp := false }

def Station.init : Station :=
  { parkTok := [], parkReq := [], parkMgt := [], pend := [], nextTxn := 0, stats := [], shadow := [],
    latched := [], remoteQ := [] }

def Span.init : Span :=
  { txSeq := 0, replay := [], txPart := [], rxPart := [], rxSeq := 0, nakOwed := false, replays := [], credits := [0, 0, 0, 0], granted := false,
    sendQ := [], recvQ := [], samples := [], oldPeer := none }

def Lock.init : Lock := ⟨false, 0, false⟩

def Queue.init : Queue := ⟨[], none, 0, none⟩

def Sess.init : Sess :=
  { st := .free, fn := 0, slot := 0, group := 0, sqBase := 0, cqBase := 0, evBase := 0, sqLog := 0, cqLog := 0,
    evLog := 0, vec := 0, evVec := 0, coalN := 0, coalUs := 0, sqTail := 0, sqHead := 0, cqTail := 0, cqHead := 0,
    cqPass := 1, evTail := 0, evHead := 0, evPass := 1, cmds := [], held := [], cqUns := 0, cqSince := 0, evUns := 0,
    evSince := 0, mute := false, destroyer := none, killed := 0, rot := 0 }

/-- The reset values of R287 and R288. -/
def Thread.init : Thread :=
  { g := [], pc := 0x0E000000, sp := [0, 0, 0, 0], ring := 0, mask := 14, inRescue := false, vbase := 0x0E00F800,
    gtbase := 0, gtcount := 0, lstart := 0, lend := 0, lcount := 0, matIdx := 0, wdog := 0, wdogSince := 0, cycle := 0,
    pend := 0, busErr := none, wdogPend := false, peerHalt := 0, slot := none, waiting := false,
    loading := false, stores := 0, skipBreak := false, stepping := false, haltAt := 0 }

/-- MATBASE and MATLIM are zero; RMAX, WMAX and XMAX are 0b111 and the other bits of MATATTR zero (R290). -/
def Mat.init : Mat := ⟨0, 0, 0x7770⟩

def Stream.init : Stream :=
  { pos := 0, expect := none, block := [], outs := [], firstSeq := 0, firstStamp := 0, durable := (0, none),
    reading := none, event := none }

def LogSt.init : LogSt :=
  { nss := [], streams := [], logId := 0, jseq := 0, nextSeq := 1, lastSealed := 0, chain := [], h0 := [], jq := [],
    staged := [], cur := none, fill := [], stopping := false, stopCmd := none, createCmd := none, reclaim := none,
    resumeCmd := none, resumeStep := 0, rdata := [], pause := 0, jcount := 0, jlog := [], jstates := [] }

/-- The record of a part as shipped (R430). -/
def CfgRec.shipped : CfgRec :=
  { prefer := 0, trial := false, trials := 0, profDef := 0, keySlots := [none, none, none, none], seqNo := 1 }

/-- The device held in reset before the Dawn sequence: every register at the value the manual gives for reset
(`regs` lists only departures from it), every store and queue empty, memory with nothing listed. The fused values
are those of log entry 12. -/
def State.reset : State :=
  { regs := [], shadow := [], locked := [], variant := 1, stepping := 0, lifecycle := 0, svnFloor := 0,
    fwKeyHash := [], identityOk := true, now := 0, dawn := .unpowered, deviceHalted := false,
    injectStop := false, quiesceStep := 0, pins := [], ctxs := [], templates := [], images := [],
    stored := [], gateTable := [], pes := [], clusters := [], phs := [], phQueue := [], phNow := [], phPast := [], exportAt := 0, bus := [], inputs := [],
    held := [], ports := [], rings := [], chans := [], schedU := [], schedAt := [], activeCauses := [], offPending := [], abortCount := 0,
    heartbeatAt := none, net := [], stations := [], epochAt := none, spans := [], spanTxns := [], mem := [], presence := [], bad := [],
    defers := [], sweep := ⟨0, 0, [], []⟩, locks := [], flt := [], wstart := [], causeCnt := [],
    causePersist := [], census := [], censusSeen := [], lifetime := [], retQueue := [], running := none, copied := false, committed := false,
    spareRows := [], mapRecs := [], queues := [], sessions := [], nextCmd := 0, msixMask := [], fnState := [],
    grants := [], linkState := 0, crsWindow := false, flrFns := [], threads := [], mats := [], log := .init, doms := [],
    ledger := [], admitted := [], opPhase := [], ctrs := [], snapStep := 0, snapAt := 0, snapshot := [], latched := [],
    pwrE := [], pwrSig := [], cfgRec := some .shipped,
    cfgPending := none, idxL := 0, idxRseq := 0, idxLow := false, mlog := [], mAcc := List.replicate 32 0, fwInfo := [],
    quoteCmd := none, hashReq := none, recovery := false, dbgData := 0, dbgBusy := 0,
    authBuf := [], authBusy := false, challengeNo := 0, tap := 1, free := 0, out := [],
    pending := [] }

end Sys2Proof.Machine
end

