-- ==== Sys2Proof/Machine/Regs.lean ====
section
/-! DEFINITION. Register fields: reading, writing, shadows and the reading of an offset of BAR0 against the register
index (R7 to R13, R31, R452, R461). -/

namespace Sys2Proof.Machine

open Sys2Proof

/-- BAR0 offset of block `b`'s region (R452). -/
def blkBase (b : Nat) : Nat :=
  if b = 33 then 0x400000
  else if 17 ≤ b then 0x200000 + (b - 17) * 0x10000
  else ([0, 1, 2, 4, 5, 6, 8, 9, 10, 11, 12, 13, 14, 15, 16, 17, 18].getD b 0) * 0x10000

/-- The block whose region holds a BAR0 offset; none in the gap rows of R452. -/
def blkOf (off : Nat) : Option Nat :=
  let r := off / 0x10000
  if 0x20 ≤ r ∧ r ≤ 0x2F then some (17 + (r - 0x20))
  else if r = 0x40 then some 33
  else [some 0, some 1, some 2, none, some 3, some 4, some 5, none, some 6, some 7, some 8, some 9, some 10,
    some 11, some 12, some 13, some 14, some 15, some 16].getD r none

/-- Where a field is kept. -/
def fkey (b off lo : Nat) : Nat := (blkBase b + off) * 32 + lo

def Fld.key (f : Fld) : Nat := fkey f.blk f.off f.lo

/-- The value in force of a field. -/
def rd (s : State) (f : Fld) : Nat := mget f.rst s.regs f.key

/-- A one-bit field read as a truth value. -/
def rdB (s : State) (f : Fld) : Bool := rd s f == 1

/-- The field with `v`, cut to its width, in force. -/
def put (s : State) (f : Fld) (v : Nat) : State :=
  { s with regs := mset f.rst s.regs f.key (v % 2 ^ f.width) }

/-- `n` added to a count that saturates at all ones. -/
def putSat (s : State) (f : Fld) (n : Nat) : State := put s f (min (rd s f + n) (2 ^ f.width - 1))

/-- A mask ORed into a field. -/
def putOr (s : State) (f : Fld) (m : Nat) : State := put s f (rd s f ||| m)

/-- The shadow copy of an RWP field (R12). -/
def rdSh (s : State) (f : Fld) : Nat := mget (rd s f) s.shadow f.key

def rdShB (s : State) (f : Fld) : Bool := rdSh s f == 1

/-- The indices of a register's row at a distance from the row's offset. -/
def regIdx : List (Nat × Nat) → Nat → Option (List Nat)
  | [], 0 => some []
  | [], _ + 1 => none
  | (st, n) :: ds, rel =>
    if rel / st < n then
      match regIdx ds (rel % st) with
      | some is => some (rel / st :: is)
      | none => none
    else none

/-- The register at an offset of a block's region: its row and its indices. -/
def findReg (b off : Nat) : Option (RegD × List Nat) :=
  (regsOf b).findSome? fun r =>
    if r.off ≤ off then
      match regIdx r.dims (off - r.off) with
      | some is => some (r, is)
      | none => none
    else none

/-- The reset value of a field of the register with indices `is`. -/
def fieldRst (b lo : Nat) (is : List Nat) : Rst → Nat
  | .const n => n
  | .regIdx => is.headD 0
  | .route => routeDefault (is.headD 0) (is.getD 2 0)
  | .coreRun => if is.headD 0 = 0 then 1 else 0
  | .fltCfg => fltDefault b (is.headD 0) (if lo = 16 then 0 else if lo = 8 then 1 else if lo = 4 then 2 else 3)
  | .fltCause => causeDefault b (is.headD 0 + (if 17 ≤ b then 1 else 0)) (if lo = 16 then 0 else if lo = 8 then 1 else if lo = 4 then 2 else 3)

/-- The named field of a row of the register index. -/
def fldAt (b off : Nat) (is : List Nat) (fd : FieldD) : Fld :=
  ⟨b, off, fd.lo, fd.hi - fd.lo + 1, fieldRst b fd.lo is fd.rst⟩

/-- Whether a field accepts a value (R8). -/
def Valid.holds (v : Valid) (n : Nat) : Bool :=
  match v with
  | .any => true
  | .range lo hi => lo ≤ n && n ≤ hi
  | .zeroOr lo hi => n == 0 || (lo ≤ n && n ≤ hi)

/-- Profile A is in force (R32). -/
def profA (s : State) : Bool := rdB s F.genProfstatActive

/-- The Profile L value of a field that the profile governs (R31). -/
def governed (b off lo : Nat) : Option Nat :=
  if 17 ≤ b ∧ b ≤ 32 then
    (if off = 0x800 ∧ lo = 8 then some 40
     else if off = 0x800 ∧ lo = 0 then some 64
     else if off = 0x410 ∧ lo = 0 then some 0
     else if off = 0x600 ∧ lo = 0 then some 0
     else none)
  else if b = 1 ∧ 0x100 ≤ off ∧ off < 0x140 ∧ lo = 0 then some 1
  else if b = 1 ∧ 0x140 ≤ off ∧ off < 0x150 ∧ lo = 0 then some 0
  else if b = 12 ∧ off = 0x8 ∧ lo = 0 then some 2
  else none

/-- A write reaching one field: the new state, and whether it sets CFGERR (R8, R10, R31). -/
def writeField (s : State) (f : Fld) (fd : FieldD) (new : Nat) : State × Bool :=
  let gov := !profA s && (governed f.blk f.off f.lo).isSome
  match fd.acc with
  | .ro | .rc | .wo | .w1s => (s, false)
  | .w1c => (put s f (rd s f - (rd s f &&& new)), false)
  | .rw =>
    if gov then (s, governed f.blk f.off f.lo != some new)
    else if fd.ok.holds new then (put s f new, false) else (s, true)
  | .rwl =>
    if s.locked.contains f.blk then (s, false)
    else if fd.ok.holds new then (put s f new, false) else (s, true)
  | .rwp =>
    if gov then (s, governed f.blk f.off f.lo != some new)
    else if fd.ok.holds new then
      ({ s with shadow := mset (rd s f) s.shadow f.key new }, false)
    else (s, true)

/-- A write of a register's fields in turn; the remaining fields of a refused one take effect (R8). -/
def writeFields (s : State) (b off : Nat) (is : List Nat) (val : Nat) : List FieldD → State × Bool
  | [] => (s, false)
  | fd :: fds =>
    let f := fldAt b off is fd
    let (s1, e1) := writeField s f fd (bits val fd.lo (fd.hi - fd.lo + 1))
    let (s2, e2) := writeFields s1 b off is val fds
    (s2, e1 || e2)

/-- A write at an offset of a block with no effect but those of the access codes; an undefined offset discards it
(R9). -/
def writePlain (s : State) (b off val : Nat) : State × Bool :=
  match findReg b off with
  | some (r, is) => writeFields s b off is val r.fields
  | none => (s, false)

/-- Clears the RC fields of a register after their values were returned (R10). -/
def clearRc (s : State) (b off : Nat) (is : List Nat) : List FieldD → State
  | [] => s
  | fd :: fds =>
    clearRc (match fd.acc with | .rc => put s (fldAt b off is fd) 0 | _ => s) b off is fds

/-- The shadows of the fields of a block: keys in its region. -/
def inBlk (b k : Nat) : Bool := blkBase b * 32 ≤ k && k < (blkBase b + 0x10000) * 32

/-- All shadows of block `b` take effect together (R12). The reset value of a key is found in the index. -/
def rstOfKey (b k : Nat) : Nat :=
  let off := k / 32 - blkBase b
  match findReg b off with
  | some (r, is) => match r.fields.find? (fun fd => fd.lo == k % 32) with
    | some fd => fieldRst b fd.lo is fd.rst
    | none => 0
  | none => 0

def applyShadow (s : State) (b : Nat) : FMap Nat → State
  | [] => s
  | (k, v) :: m =>
    applyShadow (if inBlk b k then { s with regs := mset (rstOfKey b k) s.regs k v } else s) b m

/-- The shadows of block `b` reloaded from the values in force. -/
def dropShadow (s : State) (b : Nat) : State := { s with shadow := s.shadow.filter fun e => !inBlk b e.1 }

/-- A commit of block `b` that is not refused: the shadows take effect, and the RWL fields lock (R10, R12). -/
def commitOk (s : State) (b : Nat) : State :=
  let s1 := dropShadow (applyShadow s b s.shadow) b
  if s1.locked.contains b then s1 else { s1 with locked := b :: s1.locked }

end Sys2Proof.Machine
end

