-- ==== Sys2Proof/Machine/Access.lean ====
section
/-! DEFINITION. Reading and writing one entry of each table of the state, the up-guard of a meaning, time, and the
packing of tags and fault values. -/

namespace Sys2Proof.Machine

open Sys2Proof

/-- The slot of context number `k` (R46 to R48). -/
def State.ctx (s : State) (k : Nat) : Ctx := mget Ctx.init s.ctxs k

def State.setCtx (s : State) (k : Nat) (x : Ctx) : State := { s with ctxs := mset Ctx.init s.ctxs k x }

def State.updCtx (s : State) (k : Nat) (f : Ctx → Ctx) : State := s.setCtx k (f (s.ctx k))

/-- Physical PE `k` = cluster × 17 + PE. -/
def State.pe (s : State) (k : Nat) : Pe := mget Pe.init s.pes k

def State.setPe (s : State) (k : Nat) (x : Pe) : State := { s with pes := mset Pe.init s.pes k x }

def State.updPe (s : State) (k : Nat) (f : Pe → Pe) : State := s.setPe k (f (s.pe k))

/-- Cluster `k`. -/
def State.cl (s : State) (k : Nat) : Cluster := mget Cluster.init s.clusters k

def State.setCl (s : State) (k : Nat) (x : Cluster) : State := { s with clusters := mset Cluster.init s.clusters k x }

def State.updCl (s : State) (k : Nat) (f : Cluster → Cluster) : State := s.setCl k (f (s.cl k))

/-- Phase source `k`. -/
def State.ph (s : State) (k : Nat) : PhSrc := mget PhSrc.init s.phs k

def State.setPh (s : State) (k : Nat) (x : PhSrc) : State := { s with phs := mset PhSrc.init s.phs k x }

def State.updPh (s : State) (k : Nat) (f : PhSrc → PhSrc) : State := s.setPh k (f (s.ph k))

/-- What receiver × 16 + source = `k` holds (R148). -/
def State.bs (s : State) (k : Nat) : BusSrc := mget BusSrc.init s.bus k

def State.setBs (s : State) (k : Nat) (x : BusSrc) : State := { s with bus := mset BusSrc.init s.bus k x }

def State.updBs (s : State) (k : Nat) (f : BusSrc → BusSrc) : State := s.setBs k (f (s.bs k))

/-- Converter port `k`. -/
def State.port (s : State) (k : Nat) : Port := mget Port.init s.ports k

def State.setPort (s : State) (k : Nat) (x : Port) : State := { s with ports := mset Port.init s.ports k x }

def State.updPort (s : State) (k : Nat) (f : Port → Port) : State := s.setPort k (f (s.port k))

/-- Capture ring `k`. -/
def State.ring (s : State) (k : Nat) : Ring := mget Ring.init s.rings k

def State.setRing (s : State) (k : Nat) (x : Ring) : State := { s with rings := mset Ring.init s.rings k x }

def State.updRing (s : State) (k : Nat) (f : Ring → Ring) : State := s.setRing k (f (s.ring k))

/-- Drive channel `k`. -/
def State.chan (s : State) (k : Nat) : Chan := mget Chan.init s.chans k

def State.setChan (s : State) (k : Nat) (x : Chan) : State := { s with chans := mset Chan.init s.chans k x }

def State.updChan (s : State) (k : Nat) (f : Chan → Chan) : State := s.setChan k (f (s.chan k))

/-- Station `k`. -/
def State.stn (s : State) (k : Nat) : Station := mget Station.init s.stations k

def State.setStn (s : State) (k : Nat) (x : Station) : State := { s with stations := mset Station.init s.stations k x }

def State.updStn (s : State) (k : Nat) (f : Station → Station) : State := s.setStn k (f (s.stn k))

/-- Span port `k`. -/
def State.span (s : State) (k : Nat) : Span := mget Span.init s.spans k

def State.setSpan (s : State) (k : Nat) (x : Span) : State := { s with spans := mset Span.init s.spans k x }

def State.updSpan (s : State) (k : Nat) (f : Span → Span) : State := s.setSpan k (f (s.span k))

/-- Lock cell `k`. -/
def State.lock (s : State) (k : Nat) : Lock := mget Lock.init s.locks k

def State.setLock (s : State) (k : Nat) (x : Lock) : State := { s with locks := mset Lock.init s.locks k x }

def State.updLock (s : State) (k : Nat) (f : Lock → Lock) : State := s.setLock k (f (s.lock k))

/-- Observation queue `k`. -/
def State.queue (s : State) (k : Nat) : Queue := mget Queue.init s.queues k

def State.setQueue (s : State) (k : Nat) (x : Queue) : State := { s with queues := mset Queue.init s.queues k x }

def State.updQueue (s : State) (k : Nat) (f : Queue → Queue) : State := s.setQueue k (f (s.queue k))

/-- Session `k`. -/
def State.sess (s : State) (k : Nat) : Sess := mget Sess.init s.sessions k

def State.setSess (s : State) (k : Nat) (x : Sess) : State := { s with sessions := mset Sess.init s.sessions k x }

def State.updSess (s : State) (k : Nat) (f : Sess → Sess) : State := s.setSess k (f (s.sess k))

/-- Thread `k` = core × 2 + thread. -/
def State.thr (s : State) (k : Nat) : Thread := mget Thread.init s.threads k

def State.setThr (s : State) (k : Nat) (x : Thread) : State := { s with threads := mset Thread.init s.threads k x }

def State.updThr (s : State) (k : Nat) (f : Thread → Thread) : State := s.setThr k (f (s.thr k))

/-- Memory attribute entry `k` = core × 32 + index. -/
def State.mat (s : State) (k : Nat) : Mat := mget Mat.init s.mats k

def State.setMat (s : State) (k : Nat) (x : Mat) : State := { s with mats := mset Mat.init s.mats k x }

def State.updMat (s : State) (k : Nat) (f : Mat → Mat) : State := s.setMat k (f (s.mat k))

/-- How far the Dawn sequence has come (R418): 0 before step 1. -/
def Dawn.rank : Dawn → Nat
  | .unpowered => 0
  | .held => 0
  | .step n => n

/-- The blocks that leave reset with Dawn step `n` are running (R418). -/
def State.up (s : State) (n : Nat) : Bool := n ≤ s.dawn.rank

/-- A command whose block is running has its effect; at a block in reset it changes nothing (log entry 1). -/
def act (n : Nat) (s : State) (f : State → State) : Host.Outcome State Fault Refusal :=
  .next (if s.up n then f s else s)

/-- The effect of a command under the condition that its row states; elsewhere it changes nothing (log entry 1). -/
def whenS (c : Bool) (f : State → State) (s : State) : State := if c then f s else s

/-- The always-on tick: one tick is 40 ns, 64 etu (R147, R403). -/
def tick (s : State) : Nat := s.now / 64 % 2 ^ 64

/-- Microseconds and milliseconds in etu. -/
def usEtu (n : Nat) : Nat := n * 1600

def msEtu (n : Nat) : Nat := n * 1600000

/-- The next value that the manual leaves open (log entry 3). -/
def State.takeFree (s : State) : Word × State := (Config.freeValue s.free, { s with free := s.free + 1 })

/-- Something leaves the device (log entry 4). -/
def emitOut (o : Output) (s : State) : State := { s with out := s.out ++ [o] }

/-- An effect for every element of a list in turn. -/
def forAll {α : Type} (l : List α) (f : α → State → State) (s : State) : State := l.foldl (fun s a => f a s) s

/-- A tag as its 64 bits (R38). -/
def Tag.pack (t : Tag) : Nat :=
  (t.dev % 2 ^ 12) * 2 ^ 52 + (t.ctx % 2 ^ 14) * 2 ^ 38 + (t.iter % 2 ^ 12) * 2 ^ 26 + (t.ia % 2 ^ 12) * 2 ^ 14
    + (t.pe % 2 ^ 8) * 2 ^ 6 + (t.port % 4) * 2 ^ 4 + (t.pri % 8) * 2 + bit t.phg

/-- The tag that 64 bits hold (R38). -/
def Tag.unpack (n : Nat) : Tag :=
  { dev := bits n 52 12, ctx := bits n 38 14, iter := bits n 26 12, ia := bits n 14 12, pe := bits n 6 8,
    port := bits n 4 2, pri := bits n 1 3, phg := bits n 0 1 == 1 }

/-- A CTXREF value (R49). -/
def ctxref (ctx gen dev : Nat) (gate : Option Nat) : Nat :=
  ctx % 2 ^ 14 + (gen % 2 ^ 8) * 2 ^ 14 + (match gate with | some g => 2 ^ 22 + (g % 2 ^ 8) * 2 ^ 23 | none => 0)
    + (dev % 2 ^ 12) * 2 ^ 31

/-- A FAULT value (R79). -/
def faultValue (cause port ia pe ty iter detail : Nat) : Nat :=
  cause % 2 ^ 8 + (port % 4) * 2 ^ 8 + (ia % 2 ^ 12) * 2 ^ 10 + (pe % 2 ^ 8) * 2 ^ 22 + (ty % 16) * 2 ^ 30
    + (iter % 2 ^ 12) * 2 ^ 34 + (detail % 2 ^ 16) * 2 ^ 46

/-- GEN_DEVNUM. -/
def devnum (s : State) : Nat := rd s F.genDevnumDev

/-- The physical PE of a cluster that serves a logical PE (R400). -/
def physPe (s : State) (cl lpe : Nat) : Nat :=
  if rdB s (F.clRemapSubst cl) && rd s (F.clRemapLpe cl) == lpe then 16 else lpe

/-- The logical PE that a physical PE serves (R400); none for the spare when it is free and for a PE it has
replaced. -/
def logPe (s : State) (cl p : Nat) : Option Nat :=
  if p = 16 then (if rdB s (F.clRemapSubst cl) then some (rd s (F.clRemapLpe cl)) else none)
  else if rdB s (F.clRemapSubst cl) && rd s (F.clRemapLpe cl) == p then none
  else some p

/-- The key of the physical PE that serves the logical destination `d` = cluster × 16 + logical PE. -/
def peKey (s : State) (d : Nat) : Nat := d / 16 * 17 + physPe s (d / 16) (d % 16)

/-- The station of cluster `c` (R22). -/
def clStation (c : Nat) : Nat := [2, 3, 4, 5, 7, 8, 9, 10, 14, 15, 16, 17, 19, 20, 21, 22].getD c 0

/-- The cluster at a station. -/
def stationCl (d : Nat) : Option Nat := [2, 3, 4, 5, 7, 8, 9, 10, 14, 15, 16, 17, 19, 20, 21, 22].findIdx? (· == d)

/-- The station of the bank group of bank `b` (R22). -/
def bgStation (b : Nat) : Nat := [6, 11, 18, 23].getD (b / 8) 0

/-- The station of a block (R22). -/
def blkStation (b : Nat) : Nat :=
  if 17 ≤ b ∧ b ≤ 32 then clStation (b - 17)
  else if b = 10 ∨ b = 11 then 1
  else if b = 4 ∨ b = 5 then 12
  else if b = 12 then 13
  else if b = 15 ∨ b = 14 then 24
  else if b = 13 then 25
  else if b = 8 then 6
  else 0

/-- The station of the register at a BAR0 offset: SB_OWNERb and SB_DEFb lie at the station of their bank, the other registers of SB
at BG0 (R20; log entry 81). -/
def regStation (off : Nat) : Nat :=
  let o := off % 0x10000
  match blkOf off with
  | some b =>
    if b = 8 ∧ ((0x100 ≤ o ∧ o < 0x180) ∨ (0x200 ≤ o ∧ o < 0x280)) then bgStation (o % 0x100 / 4) else blkStation b
  | none => 0

/-- The phase word of source 0 as applied at this time (R341, R383). -/
def phase0 (s : State) : Nat := (s.phNow.getD 0 BusSrc.init).pb

/-- A context that exists and runs or waits: LIVE or QUIESCED. -/
def Ctx.liveOrQuiesced (c : Ctx) : Bool := c.state == .live || c.state == .quiesced

/-- The drive channels bound to a descriptor (R29, R47). -/
def Desc.channels (d : Desc) : List Nat := (List.range d.drvcount).map (· + d.drvfirst)

/-- The initiator of a function (R26). -/
def fnInit (fn : Nat) : Nat := 0x10 + fn

/-- Context numbers that are not FREE. -/
def busyCtxs (s : State) : List Nat := (s.ctxs.filter (fun e => e.2.state != .free)).map (·.1)

/-- While its PLL relocks, a cluster is held as in DOZE (R415). -/
def relocking (s : State) (cl : Nat) : Bool :=
  match mget OpPhase.none s.opPhase cl with
  | .relock | .lower => true
  | _ => false

/-- The clock of a domain runs, or does not: of a cluster in NAP and below, whose PLL is off (R402, R405, R423). -/
def clockBit (k : Nat) (on : Bool) (s : State) : State :=
  let m := rd s F.clkLockLock
  put s F.clkLockLock (if on then m ||| 2 ^ k else m - (m &&& 2 ^ k))

end Sys2Proof.Machine
end

