-- ==== Sys2Proof/Machine/Ledger.lean ====
section
/-! DEFINITION. Power domains and requests for the wake ledger (R239, R404, R405, R408, R411). -/

namespace Sys2Proof.Machine

open Sys2Proof

/-- The power domain behind a station (R22, R404). -/
def domOfStation (st : Nat) : Option Nat :=
  match stationCl st with
  | some c => some c
  | none =>
    if st = 6 then some 16 else if st = 11 then some 17 else if st = 18 then some 18 else if st = 23 then some 19
    else if st = 12 then some 20 else if st = 13 then some 21 else if st = 25 then some 22 else none

/-- The station of a power domain. -/
def stationOfDom (d : Nat) : Nat :=
  if d < 16 then clStation d else [6, 11, 18, 23, 12, 13, 25, 1].getD (d - 16) 0

/-- The state of a power domain: 0 RUN, 1 DOZE, 2 NAP, 3 DUSK, 4 MIDNIGHT (R405). -/
def domState (s : State) (d : Nat) : Nat := rd s (F.pwrDomstatState d)

/-- A domain's phase of transition. -/
def domPhase (s : State) (d : Nat) : DomPhase := mget .steady s.doms d

def setDomPhase (d : Nat) (p : DomPhase) (s : State) : State := { s with doms := mset .steady s.doms d p }

/-- The block behind a station works: its domain is in RUN. -/
def stationRuns (s : State) (st : Nat) : Bool :=
  match domOfStation st with
  | some d => domState s d == 0 && !relocking s d
  | none => true

/-- Wake time in etu of a domain from a state (R405). -/
def wakeTime (d st : Nat) : Nat :=
  if 20 ≤ d then usEtu 400
  else if st = 1 then 32 else if st = 2 then usEtu 2 else if st = 3 then usEtu 40 else if st = 4 then usEtu 400 else 0

/-- The ramp in ns of a wake (R405); domains 20 to 23 take MIDNIGHT's. -/
def wakeRamp (st : Nat) : Nat := [0, 80, 1000, 4000, 10000].getD st 10000

/-- The inrush charge in 0.1 µC of a wake (R405). -/
def wakeCharge (d st : Nat) : Nat :=
  if 20 ≤ d then 10
  else if d < 16 then [0, 0, 0, 10, 20].getD st 0
  else [0, 0, 0, 5, 10].getD st 0

/-- The unit of a current step: 0.1 A / 2,312,000, so that FREQ / 80 × ((110 + VOLT) / 170)² is a whole number. -/
def diUnit : Nat := 80 * 28900

/-- The current step of a domain's wake (R411). -/
def wakeStep (s : State) (d : Nat) : Nat :=
  if d < 16 then rd s F.pwrStepCl * rd s (F.clClkcfgFreq d) * (110 + rd s (F.clClkcfgVolt d)) ^ 2
  else if d < 20 then rd s F.pwrStepBg * diUnit
  else rd s F.pwrStepAux * diUnit

/-- The state that a domain is in, or that its closing will leave it in. -/
def sleepState (s : State) (d : Nat) : Nat :=
  match domPhase s d with
  | .closing t => t
  | _ => domState s d

/-- A request for a wake in the ledger, also while the domain still closes (R240); a second request of a domain moves the event time of the first to the earlier
(R411). -/
def requestWake (d at_ : Nat) (s : State) : State :=
  if s.deviceHalted || sleepState s d == 0 || domPhase s d == .waking then s
  else
    match s.ledger.find? (fun r => r.dom == d && !r.dvfs) with
    | some _ => { s with ledger := s.ledger.map fun r =>
        if r.dom = d ∧ r.dvfs = false then { r with at_ := min r.at_ at_ } else r }
    | none =>
      let st := sleepState s d
      { s with ledger := s.ledger ++ [⟨d, at_, s.now, wakeStep s d, wakeRamp st, wakeCharge d st, false, false⟩] }

/-- An arrival for a domain that sleeps: a request with event time now (R408, R239). -/
def wakeNow (d : Nat) (s : State) : State := requestWake d s.now s

/-- An arrival at a station for a domain that is not in RUN. -/
def wakeStation (st : Nat) (s : State) : State :=
  match domOfStation st with
  | some d => wakeNow d s
  | none => s

end Sys2Proof.Machine
end

