-- ==== Sys2Proof/Machine/Faults.lean ====
section
/-! DEFINITION. Raising a fault event: the fault register group, its classifier, the reactions and their fallbacks,
the history, the fault record in an observation queue, and the abort causes of the drive (R74 to R79, R201, R207,
R340 to R344, R379 to R390). -/

namespace Sys2Proof.Machine

open Sys2Proof

/-- An event of a fault source. -/
structure FEv where
  blk : Nat
  src : Nat
  inst : Nat
  /-- The context that the event names. -/
  ctx : Option Nat
  /-- DETAIL; for a context cause the FAULT value (R79, R383). -/
  detail : Nat
  forced : Bool
  /-- A context cause, classified under its FLTCAUSEc (R381). -/
  cause : Bool
  /-- The retire target of the event (R389, R392). -/
  tgt : Option Retire
  /-- The event is a fault of a firing at a PE, whose IA and PE its FAULT value names. -/
  firing : Bool
  deriving DecidableEq, Repr

/-- An event with no context, no detail and no retire target. -/
def FEv.plain (blk src inst : Nat) : FEv := ⟨blk, src, inst, none, 0, false, false, none, false⟩

/-! ### Observation queues -/

/-- The pushed item stored, or dropped into the marker when 1,023 items are stored (R342); the flag tells that this
creates the marker (R348). -/
def Queue.push (q : Queue) (it : Item) : Queue × Bool :=
  let q1 := { q with next := (q.next + 1) % 2 ^ 32 }
  if q.items.length < 1023 then ({ q1 with items := q.items ++ [it] }, false)
  else
    ({ q1 with marker := some (match q.marker with
      | none => ⟨it.seq, it.seq, 1, it.pri, it.tick, it.phase⟩
      | some m => { m with last := it.seq, count := m.count + 1, pri := max m.pri it.pri }) }, q.marker.isNone)

/-! ### Drive channels entering the ramp -/

/-- The state of a drive channel (R202): 0 IDLE, 1 RUN, 2 RAMP, 3 ABORTED. -/
def chState (s : State) (c : Nat) : Nat := rd s (F.drvChstatState c)

/-- A RUN channel enters RAMP: its queue is emptied and the ramp starts from the last applied code (R202, R208). -/
def enterRamp (c : Nat) (s : State) : State :=
  put (put (s.updChan c fun ch => { ch with q := [], rampK := 0, rampY := ch.applied }) (F.drvChstatState c) 2)
    (F.drvChstatQdepth c) 0

/-- The RUN channels among those that `scope` selects. -/
def runChans (s : State) (scope : Nat → Bool) : List Nat :=
  (List.range 256).filter fun c => chState s c == 1 && scope c

/-- The enabled channels of an enable group (R210). -/
def grpChans (s : State) (g : Nat) : List Nat :=
  (List.range 256).filter fun c => rdB s (F.drvChcfgEn c) && rd s (F.drvChcfgGrp c) == g

/-- DRIVE_EN_N of group `g` is released: its enabled channels are all ABORTED, or none of them ramps and the group's
release waits for its ramps (R210). -/
def releases (s : State) (g : Nat) : Bool :=
  let cs := grpChans s g
  (!cs.isEmpty && cs.all fun c => chState s c == 3) || (s.offPending.contains g && cs.all fun c => chState s c != 2)

/-- The groups whose release is due are released (R209, R210). -/
def releaseGroups (s : State) : State :=
  let a := rd s F.drvEnableAsserted
  let gs := (List.range 8).filter fun g => a.testBit g && releases s g
  { put s F.drvEnableAsserted (gs.foldl (fun m g => m - (m &&& 2 ^ g)) a) with
    offPending := s.offPending.filter fun g => !gs.contains g }

/-- The groups asserted now wait for the end of their ramps. -/
def stopGroups (s : State) : State :=
  let gs := (List.range 8).filter fun g => (rd s F.drvEnableAsserted).testBit g && !s.offPending.contains g
  releaseGroups { s with offPending := s.offPending ++ gs, abortCount := s.abortCount + 1 }

/-- The device-wide causes FAULT, HALT, PIN, HB and SUPPLY as a mask of DRV_ABORTSTAT.CAUSE (R207). -/
def deviceWide : Nat := 0b11111

/-! ### Classification and history -/

/-- The configuration of an event: THR, WEXP, REACT, PREACT (R381, R382). -/
def evCfg (s : State) (e : FEv) : Nat × Nat × Nat × Nat :=
  if e.cause then
    (rd s (F.fltcauseThr e.blk e.inst), rd s (F.fltcauseWexp e.blk e.inst), rd s (F.fltcauseReact e.blk e.inst),
      rd s (F.fltcausePreact e.blk e.inst))
  else
    (rd s (F.fltcfgThr e.blk e.src), rd s (F.fltcfgWexp e.blk e.src), rd s (F.fltcfgReact e.blk e.src),
      rd s (F.fltcfgPreact e.blk e.src))

/-- Where the classifier of an event keeps its window. -/
def evKey (e : FEv) : Nat := e.blk * 128 + (if e.cause then 64 + e.inst else e.src)

/-- The count of the current window (R381, R382). -/
def evCount (s : State) (e : FEv) : Nat :=
  if e.cause then mget 0 s.causeCnt (evKey e) else rd s (F.fltcntWcount e.blk e.src)

/-- The count of the current window replaced; it saturates at 0xFF. -/
def setEvCount (s : State) (e : FEv) (n : Nat) : State :=
  let n := min n 255
  if e.cause then { s with causeCnt := mset 0 s.causeCnt (evKey e) n } else put s (F.fltcntWcount e.blk e.src) n

/-- Whether the source, or the cause, is classed persistent. -/
def evPersist (s : State) (e : FEv) : Bool :=
  if e.cause then mget false s.causePersist (evKey e) else (rd s (F.fltpersistPersist e.blk)).testBit e.src

/-- The source, or the cause, classed persistent. For CTXFAULT the bit of the source shows it (R381). -/
def setEvPersist (s : State) (e : FEv) : State :=
  putOr (if e.cause then { s with causePersist := mset false s.causePersist (evKey e) true } else s)
    (F.fltpersistPersist e.blk) (2 ^ e.src)

/-- STAT, the instance mask, TOTAL and the census count of an event (R382, R399). -/
def recordEv (s : State) (e : FEv) : State :=
  let s := putOr s (F.fltstatStat e.blk) (2 ^ e.src)
  let s := if e.inst < 32 then putOr s (F.fltinstloInst e.blk e.src) (2 ^ e.inst)
    else putOr s (F.fltinsthiInst e.blk e.src) (2 ^ (e.inst - 32))
  let s := putSat s (F.fltcntTotal e.blk e.src) 1
  let k := e.blk * 32 + e.src
  { s with census := mset 0 s.census k ((mget 0 s.census k + 1) % 2 ^ 48) }

/-- The classifier of R382. -/
def classify (s : State) (e : FEv) : State :=
  match evCfg s e with
  | (thr, wexp, _, _) =>
    if thr = 0 then s
    else
      let fresh := evCount s e == 0 || usEtu (2 ^ wexp) ≤ s.now - mget 0 s.wstart (evKey e)
      let s1 := if fresh then { s with wstart := mset 0 s.wstart (evKey e) s.now } else s
      let n := (if fresh then 0 else evCount s e) + 1
      let s2 := setEvCount s1 e n
      if thr ≤ n then setEvPersist s2 e else s2

/-- A history entry stored, or counted as lost when eight are stored (R383, R388). -/
def pushHist (s : State) (b : Nat) (h : HistE) : State :=
  let l := mget [] s.flt b
  if l.length < 8 then
    put { s with flt := mset [] s.flt b (l ++ [h]) } (F.flthiststatDepth b) (l.length + 1)
  else putSat s (F.flthiststatLost b) 1

/-- The reaction byte of a FAULT item (R384). -/
def reactByte (r : Nat) (persist fallback forced : Bool) : Nat :=
  r + 8 * bit persist + 16 * bit fallback + 32 * bit forced

/-! ### Retirement targets -/

/-- Spare rows of an array (R391). -/
def spareRowsOf : Nat → Nat
  | 0 => 8
  | 1 => 8
  | 2 => 16
  | 3 => 16
  | 4 => 4
  | _ => 0

/-- Spare columns of an array (R391). -/
def spareColsOf : Nat → Nat
  | 0 => 2
  | 1 => 2
  | 2 => 4
  | 3 => 2
  | 4 => 1
  | _ => 0

/-- Where the use of an array's spares is counted. -/
def spareKey (kind array unit : Nat) : Nat := (kind * 8 + array) * 65536 + unit

/-- A row or column target with no spare becomes the whole unit (R392). -/
def widen (s : State) (r : Retire) : Option Retire :=
  if r.kind = 1 ∨ r.kind = 2 then
    let lim := if r.kind = 1 then spareRowsOf r.array else spareColsOf r.array
    if mget 0 s.spareRows (spareKey r.kind r.array r.unit) < lim then some r
    else if r.array = 0 ∨ r.array = 1 then some ⟨3, 0, r.unit, 0⟩
    else if r.array = 2 then some ⟨4, 0, r.unit, 0⟩
    else none
  else some r

/-- The retirement of a PE of cluster `cl` runs. -/
def peRuns (s : State) (cl : Nat) : Bool :=
  match s.running with | some (r, _) => r.kind == 3 && r.unit / 32 == cl | none => false

/-- The retirement of a PE that runs or waits for cluster `cl`. -/
def peRetiring (s : State) (cl : Nat) : Bool :=
  peRuns s cl || s.retQueue.any (fun r => r.kind == 3 && r.unit / 32 == cl)

/-- The retirement of this unit runs or waits already: a further fault of a PE is recorded, and no second retirement is queued
(R395). -/
def retires (s : State) (t : Retire) : Bool :=
  let same (r : Retire) : Bool := r.kind == t.kind && r.unit == t.unit
  (match s.running with | some (r, _) => same r | none => false) || s.retQueue.any same

/-- A spare remains for a target (R386, R391, R400). -/
def spareLeft (s : State) (r : Retire) : Bool :=
  if r.kind = 3 then
    let cl := r.unit / 32
    !rdB s (F.clRemapSubst cl) && !(rd s (F.clRemapFailed cl)).testBit 16 && !peRetiring s cl
  else if r.kind = 4 then
    rd s F.sbSpareState == 0
  else true

/-- A window of a descriptor overlaps bank `b`. -/
def Win.inBank (w : Win) (b : Nat) : Bool :=
  w.length != 0 && w.base < (b + 1) * 2 ^ 20 && b * 2 ^ 20 < w.base + w.length

/-- The template places instructions on logical destination `d` = cluster × 16 + logical PE. -/
def templateOn (s : State) (h d : Nat) : Bool :=
  match s.templates.find? (·.handle == h) with
  | some t => match s.images.find? (·.id == t.image) with
    | some im => im.places.any (·.pe == d)
    | none => false
  | none => false

/-- An enabled or draining near-spill window of cluster `cl` lies in bank `b`. -/
def clWinInBank (s : State) (cl b : Nat) : Bool :=
  (List.range 8).any fun w => (rdB s (F.clNswinEn cl w) && rd s (F.clNswinBank cl w) == b)
    || ((rd s (F.clNsstatDraining cl)).testBit w && bits (mget 0 (s.cl cl).oldWin w) 10 5 == b)

/-- A context of cluster `cl`: its slot lies there, or its template places instructions there. -/
def ctxOfCl (s : State) (cl c : Nat) : Bool :=
  c / 1024 == cl || (List.range 16).any fun l => templateOn s (s.ctx c).d.tmpl (cl * 16 + l)

/-- The target is a bank, or a row or column of one. -/
def Retire.ofBank (r : Retire) : Bool := r.kind == 4 || ((r.kind == 1 || r.kind == 2) && r.array == 2)

/-- The target is a PE, or a row or column of one of its stores. -/
def Retire.ofPe (r : Retire) : Bool := r.kind == 3 || ((r.kind == 1 || r.kind == 2) && r.array < 2)

/-- The contexts that a retirement without a spare quiesces (R386). -/
def affected (s : State) (r : Retire) : List Nat :=
  (busyCtxs s).filter fun c =>
    let x := s.ctx c
    x.liveOrQuiesced &&
      (if r.ofBank then
        x.d.w0.inBank r.unit || x.d.w1.inBank r.unit || x.d.w2.inBank r.unit ||
          (List.range 16).any fun cl => clWinInBank s cl r.unit && ctxOfCl s cl c
      else
        match logPe s (r.unit / 32) (r.unit % 32) with
        | some l => r.ofPe && templateOn s x.d.tmpl (r.unit / 32 * 16 + l)
        | none => false)

/-- A quiesce raised against a context: it takes effect at the PEs and the converter complex later (R76). -/
def quiesceCtx (c : Nat) (s : State) : State :=
  if (s.ctx c).state == .live then s.updCtx c fun x => { x with quiescing := true } else s

/-- What a device halt stops beside the drive: waiting wakes are discarded, and a quiesce under way is abandoned (R34,
R387, R413). The manual does not say whether injection, which the quiesce has stopped, reopens: it stays stopped
(DESIGN CHOICE, log entry 74). -/
def haltStops (s : State) : State :=
  let s1 := { s with deviceHalted := true, ledger := [] }
  if rdB s1 F.genQuiesceBusy then
    { put (put s1 F.genQuiesceBusy 0) F.genQuiesceRefuse 5 with quiesceStep := 0 }
  else s1

/-! ### The event -/

/-- What a reaction becomes: the reaction taken, whether it fell back, the retirement to queue, the contexts to
quiesce, and whether REP raises NOSPARE (R384, R386). -/
structure Taken where
  r : Nat
  fallback : Bool
  retire : Option Retire
  quiesce : List Nat
  nospare : Option Nat
  deriving DecidableEq, Repr

/-- The fallbacks of R386. -/
def settle (s : State) (e : FEv) (r : Nat) : Taken :=
  if r = 2 then
    match e.ctx with
    | some c => if (s.ctx c).liveOrQuiesced then ⟨2, false, none, [c], none⟩ else ⟨1, true, none, [], none⟩
    | none => ⟨1, true, none, [], none⟩
  else if r = 3 then
    match e.tgt with
    | none => ⟨1, true, none, [], none⟩
    | some t =>
      if t.kind = 5 ∧ (t.unit = 0 ∨ t.unit = 1 ∨ t.unit = 24) then ⟨5, true, none, [], none⟩
      else if t.kind = 3 ∧ retires s t = true then ⟨3, false, none, [], none⟩
      else
        let free := decide (s.retQueue.length < 8)
        match widen s t with
        | some t' =>
          if free && spareLeft s t' then ⟨3, false, some t', [], none⟩
          else if affected s t' = [] then ⟨1, true, none, [], some t'.kind⟩
          else ⟨2, true, none, affected s t', some t'.kind⟩
        | none => ⟨1, true, none, [], some t.kind⟩
  else ⟨r, false, none, [], none⟩

/-- The history entry of an event (R383). -/
def histOf (s : State) (e : FEv) (persist : Bool) (k : Taken) : HistE :=
  { source := e.src, inst := e.inst, forced := e.forced, persist := persist, react := k.r, fallback := k.fallback,
    ctx := e.ctx.map fun c => (c, (s.ctx c).gen), detail := e.detail, phase := phase0 s, tick := tick s }

/-- The FAULT item of a context cause (R75, R341): payload bytes 24 to 63 as one number. -/
def faultPayload (s : State) (e : FEv) (c : Nat) (persist : Bool) (k : Taken) : Nat :=
  e.detail % 2 ^ 64 + (c % 2 ^ 16) * 2 ^ 64 + ((s.ctx c).gen % 2 ^ 8) * 2 ^ 80
    + reactByte k.r persist k.fallback e.forced * 2 ^ 88 + ((s.ctx c).d.session % 2 ^ 16) * 2 ^ 96

/-- The token of R78 for the handler of the context. -/
def handlerTok (s : State) (e : FEv) (c : Nat) : Tok :=
  let d := (s.ctx c).d
  ⟨{ dev := devnum s, ctx := c, iter := bits e.detail 34 12, ia := d.fhia, pe := d.fhpe, port := 0, pri := 7,
     phg := false }, ⟨BitVec.ofNat 64 e.detail, 0xB, false⟩⟩

/-- R78: the reaction taken is NOTE or INTERRUPT, a handler is named, and the fault is not one of the handler's own
firing. -/
def wantsHandler (s : State) (e : FEv) (r : Nat) : Option Nat :=
  match e.ctx with
  | some c =>
    let d := (s.ctx c).d
    let own := e.firing && bits e.detail 22 8 == d.fhpe && bits e.detail 10 12 == d.fhia
    if e.cause && d.fhv && (r == 0 || r == 1) && !own then some c else none
  | none => none

/-- A token injected at a station towards the destination that its tag names. -/
def tokPacket (src dstn init : Nat) (t : Tok) : Packet :=
  { src := src, dstn := dstn, dstp := 0, ring := 0, cmd := 0x01, vn := 0, epoch := 0, init := init,
    f := t.tag.pack + t.val.ty % 16 * 2 ^ 64 + bit t.val.cap * 2 ^ 68, body := .units [t.val.v.toNat], who := none,
    asker := .nobody }

/-- The mark in EPOCH of a packet that waits in its agent's queue, not yet on a ring. -/
def waiting : Nat := 2

/-- The handler's token leaves: from the output queue of the PE that the FAULT value names, or from the station of the block,
in whose queue it waits to be injected (R78). For a cause that names no PE (MQUOTA, SQUOTA, ORPHAN, CENSUSTO, PHSTALL, PHREV),
whose PE field is zero, the manual does not say which PE sends it: the model takes that of the field, logical PE 0 of
cluster 0 (DESIGN CHOICE, log entry 73). -/
def sendHandler (e : FEv) (t : Tok) (s : State) : State :=
  if 17 ≤ e.blk then s.updPe (peKey s (bits e.detail 22 8)) fun p => { p with outq := p.outq ++ [t] }
  else
    { s with net := s.net ++ [{ tokPacket (blkStation e.blk) (clStation (t.tag.pe / 16)) 0x59 t with
        epoch := waiting, since := s.now }] }

mutual

/-- An event raised: recorded, classified, its reaction taken, and the history entry stored, in the order of R382.
`n` bounds the events that reactions raise in turn; a chain of them is never as long (each sets a latch that
starts no second event). -/
def raise : Nat → FEv → State → State
  | 0, _, s => s
  | n + 1, e, s =>
    let s1 := classify (recordEv s e) e
    let persist := evPersist s1 e
    let r0 := match evCfg s e with | (_, _, react, preact) => if persist then preact else react
    let k := settle s1 e r0
    let s2 := if k.r = 0 then s1 else putOr s1 (F.fltpendPend e.blk) (2 ^ e.src)
    let s3 := pushHist s2 e.blk (histOf s1 e persist k)
    let s4 := forAll k.quiesce quiesceCtx s3
    let s5 := match k.retire with | some t => { s4 with retQueue := s4.retQueue ++ [t] } | none => s4
    let s6 := if k.r = 4 then abortCause n 0 (fun _ => true) s5 else s5
    let s7 := if k.r = 5 then abortCause n 1 (fun _ => true) (haltStops s6) else s6
    let s8 := match k.nospare with | some kd => raise n (.plain 33 2 kd) s7 | none => s7
    let s9 := match e.cause, e.ctx with
      | true, some c => pushChan n ((s1.ctx c).d.fltch) 0x01 (faultPayload s1 e c persist k) s8
      | _, _ => s8
    match wantsHandler s1 e k.r with
    | some c => sendHandler e (handlerTok s1 e c) s9
    | none => s9

/-- A cause taken at the converter complex: its bit is set in DRV_ABORTSTAT, every RUN channel in its scope starts
the ramp, a device-wide cause stops every group, and a ramp start raises ABORT with the bit as instance (R207, R210,
R218). -/
def abortCause : Nat → Nat → (Nat → Bool) → State → State
  | 0, _, _, s => s
  | n + 1, b, scope, s =>
    let s1 := if b < 16 then putOr s F.drvAbortstatCause (2 ^ b) else putOr s F.drvAbortstatStall (2 ^ (b - 16))
    let cs := runChans s1 scope
    let s2 := releaseGroups (forAll cs enterRamp s1)
    let s3 := if b < 5 then stopGroups s2 else s2
    if cs = [] then s3 else raise n (.plain 5 0 b) s3

/-- An item pushed on an observation channel: to the queue the channel is mapped to, or discarded and counted
(R340, R342). -/
def pushChan : Nat → Nat → Nat → Nat → State → State
  | 0, _, _, _, s => s
  | n + 1, ch, kind, payload, s =>
    if rdB s (F.obqChmapValid ch) then
      let qn := rd s (F.obqChmapQueue ch)
      let q := s.queue qn
      let it : Item := ⟨kind, rd s (F.obqChmapPri ch), ch, q.next, tick s, phase0 s, payload⟩
      match q.push it with
      | (q', created) =>
        let s1 := s.setQueue qn q'
        if created then raise n (.plain 11 1 qn) s1 else s1
    else raise n (.plain 11 2 0) (putSat s F.obqUnmappedCount 1)

end

/-- Events raised by reactions stop within this depth: a queue drop or a fallback, an abort or a halt, and the ramp
starts that follow. -/
def depth : Nat := 8

/-- A fault event. -/
def fault (e : FEv) (s : State) : State := raise depth e s

/-- An event of a source with an instance. -/
def event (blk src inst : Nat) (s : State) : State := fault (.plain blk src inst) s

/-- CFGERR of a block (R8, R12). -/
def cfgErr (b : Nat) (s : State) : State := event b 31 0 s

/-- An abort cause of R207. -/
def abortBy (b : Nat) (scope : Nat → Bool) (s : State) : State := abortCause depth b scope s

/-- An item on an observation channel. -/
def push (ch kind payload : Nat) (s : State) : State := pushChan depth ch kind payload s

/-- A context cause of a cluster with its FAULT value (R75); STRAY and GATEERR name no context. -/
def clFault (cl : Nat) (ctx : Option Nat) (fv : Nat) (s : State) : State :=
  fault ⟨17 + cl, 5, fv % 2 ^ 6, ctx, fv, false, true, none, false⟩ s

/-- A context cause that a firing at a PE of a cluster raises (R57, R75, R78). -/
def firingEvent (cl ctx fv : Nat) (s : State) : State :=
  fault ⟨17 + cl, 5, fv % 2 ^ 6, some ctx, fv, false, true, none, true⟩ s

/-- A context cause of the converter complex (R217). -/
def cnvFault (ctx : Nat) (cause ty detail : Nat) (s : State) : State :=
  fault ⟨4, 5, cause - 0x40, some ctx, faultValue cause 0 0 0 ty 0 detail, false, true, none, false⟩ s

/-- A condition of a source begins or ends (R379, R380). -/
def setLive (b src : Nat) (on : Bool) (s : State) : State :=
  let m := rd s (F.fltliveLive b)
  put s (F.fltliveLive b) (if on then m ||| 2 ^ src else m - (m &&& 2 ^ src))

/-- A condition begins in an instance: the live bit, and one event (R380). -/
def condition (b src inst : Nat) (s : State) : State := event b src inst (setLive b src true s)

end Sys2Proof.Machine
end

