-- ==== Sys2Proof/Machine/Inject.lean ====
section
/-! DEFINITION. The rings: units, packets and their headers, input buffers and credits, entry and movement, route, epoch,
fences, the answers a station gives itself, and the forming of requests and answers (R221 to R242).

No command of the table moves a packet from stop to stop or from station to station: what moves does so when a command offers a
packet or delivers one, as far as the credits let it (log entry 75). -/

namespace Sys2Proof.Machine

open Sys2Proof

/-! ### Commands and statuses (R224, R225) -/

def vnTok : Nat := 0
def vnReq : Nat := 1
def vnRsp : Nat := 2
def vnSpl : Nat := 3
def vnMgt : Nat := 4
def vnLink : Nat := 7

/-- The virtual network of a command; none for a reserved code (R224). -/
def cmdVn (c : Nat) : Option Nat :=
  if 0x01 ≤ c ∧ c ≤ 0x03 then some vnTok
  else if 0x10 ≤ c ∧ c ≤ 0x1C then some vnReq
  else if 0x20 ≤ c ∧ c ≤ 0x23 then some vnRsp
  else if 0x30 ≤ c ∧ c ≤ 0x35 then some vnSpl
  else if 0x40 ≤ c ∧ c ≤ 0x45 then some vnMgt
  else if 0x70 ≤ c ∧ c ≤ 0x74 then some vnLink
  else none

def stOK : Nat := 0
def stREFUSED : Nat := 1
def stUNCORR : Nat := 2
def stNOTARGET : Nat := 3
def stDEFERRED : Nat := 4
def stLOST : Nat := 5
def stBADCMD : Nat := 6
def stNOROUTE : Nat := 7
def stDEFFULL : Nat := 8
def stISFULL : Nat := 9

/-- A packet that asks for an answer: REQ, SPL requests, MGT register requests. -/
def Packet.isRequest (p : Packet) : Bool :=
  p.vn == vnReq || (p.vn == vnSpl && p.cmd < 0x34) || (p.vn == vnMgt && (p.cmd == 0x40 || p.cmd == 0x41))

/-- Fields of F of a REQ, SPL or RSP packet. -/
def Packet.addr (p : Packet) : Nat := bits p.f 0 64
def Packet.txn (p : Packet) : Nat := if p.vn = vnMgt then bits p.f 64 8 else bits p.f 64 12
def Packet.status (p : Packet) : Nat := if p.vn = vnMgt then bits p.f 0 4 else bits p.f 76 4
def Packet.rstop (p : Packet) : Nat := bits p.f 80 5
/-- Fields of F of an MGT packet. -/
def Packet.mgtAddr (p : Packet) : Nat := bits p.f 0 52
def Packet.mgtDev (p : Packet) : Nat := bits p.f 52 12
def Packet.sphops (p : Packet) : Nat := bits p.f 72 4
def Packet.mgtSdev (p : Packet) : Nat := bits p.f 76 12

/-- The data units of a packet. -/
def Packet.units (p : Packet) : List Nat :=
  match p.body with
  | .units us => us
  | _ => []

/-- F of a REQ or SPL request. -/
def reqF (addr txn rstop : Nat) : Nat := addr % 2 ^ 64 + txn % 2 ^ 12 * 2 ^ 64 + rstop % 32 * 2 ^ 80

/-- F of an RSP or SPL answer. -/
def rspF (txn status rstop : Nat) : Nat := txn % 2 ^ 12 * 2 ^ 64 + status % 16 * 2 ^ 76 + rstop % 32 * 2 ^ 80

/-- F of an MGT request. -/
def mgtF (addr dev txn sphops sdev : Nat) : Nat :=
  addr % 2 ^ 52 + dev % 2 ^ 12 * 2 ^ 52 + txn % 2 ^ 8 * 2 ^ 64 + sphops % 16 * 2 ^ 72 + sdev % 2 ^ 12 * 2 ^ 76

/-- F of an MGT answer. -/
def mgtAnsF (status sdev txn sphops dev : Nat) : Nat :=
  status % 16 + sdev % 2 ^ 12 * 2 ^ 52 + txn % 2 ^ 8 * 2 ^ 64 + sphops % 16 * 2 ^ 72 + dev % 2 ^ 12 * 2 ^ 76

/-- The answer to a request: it travels to the requester's station, with DSTP equal to RSTOP (R225). -/
def answerTo (s : State) (q : Packet) (cmd status : Nat) (body : Body) : Packet :=
  if q.vn = vnMgt then
    { src := q.dstn, dstn := q.src, dstp := 0, ring := 0, cmd := cmd, vn := vnMgt, epoch := 0, init := q.init,
      f := mgtAnsF status q.mgtSdev q.txn 0 (devnum s), body := body, who := none, asker := q.asker }
  else
    { src := q.dstn, dstn := q.src, dstp := q.rstop, ring := 0, cmd := cmd, vn := if q.vn = vnSpl then vnSpl else vnRsp,
      epoch := 0, init := q.init, f := rspF q.txn status q.rstop, body := body, who := none, asker := q.asker }

/-- The answer without data: ACK, SPACK or REGACK. -/
def ackCmd (q : Packet) : Nat := if q.vn = vnMgt then 0x43 else if q.vn = vnSpl then 0x35 else 0x21

/-! ### Statistics (R241) -/

/-- One counter of an initiator at a station: 0 packets, 1 units, 2 waits, 3 responses, 4 latency sum, 5 latency
maximum. -/
def bumpStat (st init which n : Nat) (s : State) : State :=
  s.updStn st fun x =>
    let row := match x.stats.find? (·.1 == init) with | some (_, r) => r | none => [0, 0, 0, 0, 0, 0]
    let row' := row.set which (min (row.getD which 0 + n) (2 ^ 32 - 1))
    { x with stats := (x.stats.filter (·.1 != init)) ++ [(init, row')] }

/-- A request answered at a station: its latency in cycles of 2.0 GHz, five to four etu, in the sum and the maximum. -/
def latency (st init sent : Nat) (s : State) : State :=
  let n := (s.now - sent) * 5 / 4
  let old := match (s.stn st).stats.find? (·.1 == init) with | some (_, r) => r.getD 5 0 | none => 0
  bumpStat st init 5 (n - old) (bumpStat st init 4 n s)

/-- A packet's LEN: 1 for a body that the manual gives as one unit (R224). The count that a READ or REGRD asks for is
no data unit (log entry 6). -/
def Packet.len (p : Packet) : Nat :=
  if p.cmd = 0x19 ∨ p.cmd = 0x40 then 0 else match p.body with | .units us => us.length | _ => 1

/-! ### Headers, short units and sidebands (R223, R227) -/

/-- The header unit of a packet. -/
def Packet.header (p : Packet) : Nat :=
  p.dstn % 2 ^ 5 + p.dstp % 2 ^ 5 * 2 ^ 5 + p.ring % 2 ^ 2 * 2 ^ 10 + p.cmd % 2 ^ 8 * 2 ^ 16 + p.vn % 2 ^ 3 * 2 ^ 24
    + p.epoch % 2 * 2 ^ 27 + p.init % 2 ^ 8 * 2 ^ 28 + p.len % 2 ^ 4 * 2 ^ 36 + p.f % 2 ^ 88 * 2 ^ 40

/-- LEN of a header. -/
def headerLen (h : Nat) : Nat := bits h 36 4

/-- A header without a reserved value: DSTN 26 to 31, LEN 9 to 15, and VN 5 and 6 are reserved. -/
def headerOk (h : Nat) : Bool := bits h 0 5 < 26 && headerLen h < 9 && bits h 24 3 != 5 && bits h 24 3 != 6

/-- The packet of a header and its data units. -/
def ofHeader (h : Nat) (us : List Nat) : Packet :=
  { src := 25, dstn := bits h 0 5, dstp := bits h 5 5, ring := bits h 10 2, cmd := bits h 16 8, vn := bits h 24 3,
    epoch := bits h 27 1, init := bits h 28 8, f := bits h 40 88, body := .units us, who := none, asker := .nobody }

/-- A token as one short unit (R227). -/
def shortUnit (t : Tok) : Nat :=
  let n := t.tag.pack
  bits n 0 10 + bits n 14 38 * 2 ^ 10 + t.val.v.toNat % 2 ^ 64 * 2 ^ 48 + t.val.ty % 16 * 2 ^ 112 + bit t.val.cap * 2 ^ 116

/-- The token of a short unit that arrives in cluster `cl` of device `dev`. -/
def ofShort (dev cl u : Nat) : Tok :=
  ⟨Tag.unpack (bits u 0 10 + cl % 16 * 2 ^ 10 + bits u 10 38 * 2 ^ 14 + dev % 2 ^ 12 * 2 ^ 52),
    ⟨BitVec.ofNat 64 (bits u 48 64), bits u 112 4, bits u 116 1 == 1⟩⟩

/-- The sideband of the first unit of what travels on a cluster ring: DSTOP, FIRST, SHORT. -/
def sideband (u : CUnit) : Nat := u.dstop % 32 + 32 + (match u.body with | .short _ => 64 | .packet _ => 0)

/-- The sideband as received, true and complement: the two copies agree. -/
def sidebandOk (t c : Nat) : Bool := t % 128 + c % 128 == 127

/-! ### Buffers and credits of the global rings (R221, R228) -/

/-- Units of a packet. -/
def Packet.size (p : Packet) : Nat := 1 + p.len

/-- The input buffer of a virtual network at a station, in units. -/
def bufSize (vn : Nat) : Nat := if vn = vnSpl ∨ vn = vnMgt then 18 else 36

/-- The packet is on a global ring: not in its agent's queue, not inside its own station, and not parked. -/
def Packet.onRing (p : Packet) : Bool := p.epoch < 2 && p.src != p.dstn

/-- The packet lies in the input buffer of station `st` for ring `r` and virtual network `vn`. -/
def Packet.inBuf (p : Packet) (st r vn : Nat) : Bool := p.onRing && p.at_ == st && p.ring == r && p.vn == vn

/-- Units used in an input buffer. -/
def bufUnits (s : State) (st r vn : Nat) : Nat := ((s.net.filter fun p => p.inBuf st r vn).map Packet.size).sum

/-- The input buffer has credits for `n` units. -/
def hasRoom (s : State) (st r vn n : Nat) : Bool := bufUnits s st r vn + n ≤ bufSize vn

/-- A ring moves clockwise: G0 and G1 (R22). -/
def ringCw (r : Nat) : Bool := r < 2

/-- The station after `a` in a direction that is not bypassed: a passive path joins its neighbours (R237). -/
def nextStn (s : State) (cw : Bool) : Nat → Nat → Nat
  | 0, a => a
  | n + 1, a =>
    let b := if cw then (a + 1) % 26 else (a + 25) % 26
    if (rd s F.rngBypassByp).testBit b then nextStn s cw n b else b

/-- The next station from `a` on ring `r`. -/
def nextOn (s : State) (r a : Nat) : Nat := nextStn s (ringCw r) 26 a

/-! ### Entry (R229, R233, R239) -/

/-- The epoch under which a station injects towards another (R233, R235); none while the station or its destination
is held by a changeover. -/
def injectEpoch (s : State) (src dst : Nat) : Option Nat :=
  let cur := rd s F.rngEpochCur
  if rd s F.rngEpochState = 0 ∨ rd s F.rngEpochState = 3 then some cur
  else
    let m := rd s F.rngChgmaskMask
    if m.testBit src || m.testBit dst then none else some (1 - cur)

/-- A fence of the station holds the packet: it injects nothing more on behalf of the domain (R239). -/
def fenced (s : State) (p : Packet) : Bool := rdB s (F.rngParkFence p.src)

/-- The epoch of a packet that nothing but room can hold at its station; none for one that a changeover, a fence, a full
quiesce or a bypass holds. -/
def mayInject (s : State) (p : Packet) : Option Nat :=
  if fenced s p || (s.injectStop && p.vn != vnRsp && p.vn != vnMgt) || (rd s F.rngBypassByp).testBit p.src then none
  else injectEpoch s p.src p.dstn

/-- Cycles of 2.0 GHz, five to four etu. -/
def ringCycles (etu : Nat) : Nat := etu * 5 / 4

/-- A packet that waits at station `st` for room on ring `r` in its virtual network, since 64 cycles or longer (R229). -/
def starved (s : State) (st r vn : Nat) : Bool :=
  s.net.any fun p => p.epoch == waiting && p.src == st && p.vn == vn && p.src != p.dstn && 64 ≤ ringCycles (s.now - p.since) &&
    match mayInject s p with
    | some e => rdB s (F.rngRtValid st e p.dstn) && rd s (F.rngRtRing st e p.dstn) == r
    | none => false

/-- Where the packet at index `i` goes next: the head of its input buffer continues on the ring that its station's own entry
gives in the packet's epoch, in the same direction, when the next buffer has room for it and no starved injection holds it
back. -/
def hopTo (s : State) (i : Nat) (p : Packet) : Option (Nat × Nat) :=
  let a := p.at_
  if !p.onRing || a == p.dstn || (s.net.take i).any (fun q => q.inBuf a p.ring p.vn) then none
  else
    let r := rd s (F.rngRtRing a p.epoch p.dstn)
    let b := nextOn s r a
    if rdB s (F.rngRtValid a p.epoch p.dstn) && ringCw r == ringCw p.ring && hasRoom s b r p.vn p.size
        && !starved s a r p.vn then some (b, r) else none

/-- The packet at index `i` advances one station when it can. -/
def hop (i : Nat) (s : State) : State :=
  match s.net[i]? with
  | some p =>
    match hopTo s i p with
    | some (b, r) => { s with net := s.net.set i { p with at_ := b, ring := r, came := s.now } }
    | none => s
  | none => s

/-- Some packet on a ring has not reached its station. -/
def onWay (s : State) : Bool := s.net.any fun p => p.onRing && p.at_ != p.dstn

/-- The packets on the global rings advance, for `n` rounds or until all have reached their stations. -/
def ringRun : Nat → State → State
  | 0, s => s
  | n + 1, s => if onWay s then ringRun n (forAll (List.range s.net.length) hop s) else s

/-- The global rings come to rest: thirty rounds take a packet from any station to any other. -/
def ringFlow (s : State) : State := ringRun 30 s

/-- NOROUTE of a token that its cluster station cannot send towards a device (R24, R233). -/
def tokNoRoute (src f dev : Nat) (s : State) : State :=
  match stationCl src with
  | some cl =>
    let t := Tag.unpack (bits f 0 64)
    clFault cl (some t.ctx) (faultValue 0x0D t.port t.ia t.pe (bits f 64 4) t.iter dev) s
  | none => s

/-- A packet whose destination the station cannot reach (R233): a request is answered NOTARGET at once, a token is
discarded and recorded as UNREACH. -/
def unreachable (p : Packet) (s : State) : State :=
  if p.isRequest then
    { s with net := s.net ++ [{ answerTo s p (ackCmd p) stNOTARGET (.units []) with src := p.src, at_ := p.src }] }
  else if p.vn = vnTok then tokNoRoute p.src p.f (devnum s) (event 6 2 p.src s)
  else s

/-- A packet on the way through its station would take the next buffer of ring `r` first: passing packets have precedence over
injection (R229). -/
def passing (s : State) (st r vn : Nat) : Bool :=
  (List.range s.net.length).any fun i =>
    match s.net[i]? with
    | some p => p.at_ == st && p.vn == vn && (match hopTo s i p with | some (_, r') => r' == r | none => false)
    | none => false

/-- A packet of its flow waits already at the station (R230). -/
def behind (s : State) (p : Packet) : Bool :=
  s.net.any fun q => q.epoch == waiting && q.src == p.src && q.dstn == p.dstn && q.vn == p.vn && q.init == p.init

/-- A packet injected, or none while it must wait: it enters the next buffer of its virtual network on its ring, which must have
room for it and 9 units more, and no packet passes before it (R229). A packet for its own station is delivered inside the
station, without entering a ring (R233). -/
def tryInject (p : Packet) (s : State) : Option State :=
  if p.src = p.dstn then some { s with net := s.net ++ [{ p with epoch := rd s F.rngEpochCur, at_ := p.dstn, came := s.now }] }
  else if behind s p then none
  else
    match mayInject s p with
    | none => none
    | some e =>
      if rdB s (F.rngRtValid p.src e p.dstn) then
        let r := rd s (F.rngRtRing p.src e p.dstn)
        let b := nextOn s r p.src
        if hasRoom s b r p.vn (p.size + 9) && !passing s p.src r p.vn then
          some <| bumpStat p.src p.init 2 (if p.epoch = waiting then ringCycles (s.now - p.since) else 0) <|
            bumpStat p.src p.init 1 p.size <| bumpStat p.src p.init 0 1
              { s with net := s.net ++ [{ p with epoch := e, ring := r, at_ := b, came := s.now }] }
        else none
      else some (unreachable p s)

/-- A packet offered by its agent for injection: at once, or once the rings have come to rest, or it waits in the agent's
queue. -/
def inject (p : Packet) (s : State) : State :=
  match tryInject p s with
  | some s' => s'
  | none =>
    let s1 := ringFlow s
    match tryInject p s1 with
    | some s' => s'
    | none => { s1 with net := s1.net ++ [{ p with epoch := waiting, since := if p.epoch = waiting then p.since else s1.now }] }

/-- Every packet that waits in an agent's queue is offered again, in order. -/
def reinject (s : State) : State :=
  let ws := s.net.filter (·.epoch == waiting)
  forAll ws inject { s with net := s.net.filter (·.epoch != waiting) }

/-- A port has credit of class 0 for a token (R246). -/
def tokCredit (s : State) (port : Nat) : Bool := 2 ≤ (s.span port).credits.headD 0

/-- The remote queue of a station has room (R247). -/
def remoteRoom (s : State) (src : Nat) : Bool := decide ((s.stn src).remoteQ.length < 16)

/-- A remote token at a station: on its way to the span complex when the port of its route has credit and none waits before it,
or into the station's remote queue (R247). -/
def offerRemote (p : Packet) (s : State) : State :=
  let p' := { p with via := rd s (F.spnRoutePort (bits p.f 52 12)) }
  if (s.stn p.src).remoteQ = [] && tokCredit s p'.via then inject p' s
  else s.updStn p.src fun x => { x with remoteQ := x.remoteQ ++ [p'] }

/-- A token leaves a station towards its destination: the cluster its tag names, or the span complex when its device is
remote. Without a route it is not injected (R24, R39). -/
def injectTok (src init : Nat) (t : Tok) (s : State) : State :=
  if t.tag.dev = devnum s then inject (tokPacket src (clStation (t.tag.pe / 16)) init t) s
  else
    let p := tokPacket src 25 init t
    if rdB s (F.spnRouteValid t.tag.dev) then offerRemote p s else tokNoRoute src p.f t.tag.dev s

/-- A TOK packet that has come over the cluster ring to its station enters the global rings, or a remote queue with room; none
while it must wait on the ring. -/
def stationTok (p : Packet) (s : State) : Option State :=
  let dev := bits p.f 52 12
  if dev = devnum s then tryInject p s
  else if !rdB s (F.spnRouteValid dev) then some (tokNoRoute p.src p.f dev s)
  else if remoteRoom s p.src then some (offerRemote p s)
  else none

/-- The packets at the head of a remote queue whose ports have credit leave. -/
def drainRemote (src : Nat) : List Packet → State → State
  | [], s => s
  | p :: ps, s =>
    if tokCredit s p.via then drainRemote src ps (inject p (s.updStn src fun x => { x with remoteQ := ps })) else s

/-- The remote queues of all stations are looked at again. -/
def drainRemotes (s : State) : State :=
  forAll (List.range 26) (fun st s => drainRemote st (s.stn st).remoteQ s) s

/-- The answer to a request, injected by the station that serves it. -/
def reply (q : Packet) (cmd status : Nat) (us : List Nat) (s : State) : State :=
  inject (answerTo s q cmd status (.units us)) s

/-! ### Requests of agents other than PEs -/

/-- A request of an agent at a station: its transaction is remembered until it is answered (R231). -/
def request (src dst dstp cmd init addr : Nat) (us : List Nat) (asker : Asker) (s : State) : State :=
  let st := s.stn src
  let txn := st.nextTxn
  let vn := (cmdVn cmd).getD vnReq
  let mgt := decide (vn = vnMgt)
  let f := if mgt then mgtF addr (devnum s) txn 0 (devnum s) else reqF addr txn 0
  let s1 := s.setStn src { st with
    nextTxn := (txn + 1) % (if mgt then 256 else 4096), pend := st.pend ++ [⟨init, txn, asker, dst, false, s.now, []⟩] }
  inject { src := src, dstn := dst, dstp := dstp, ring := 0, cmd := cmd, vn := vn, epoch := 0, init := init, f := f,
           body := .units us, who := none, asker := asker } s1

/-- The pending request of a station that an answer closes. -/
def takePend (st txn : Nat) (asker : Asker) (s : State) : Option Pending × State :=
  let x := s.stn st
  match x.pend.find? (fun q => q.txn == txn && q.asker == asker) with
  | some q => (some q, s.setStn st { x with pend := x.pend.filter (· != q) })
  | none => (none, s)

end Sys2Proof.Machine
end

