-- ==== Sys2Proof/Machine/PeWord.lean ====
section
/-! DEFINITION. The PE instruction word (R84 to R88): its fields, their reading and writing as 128 bits, the opcode
tables (R89, R93 to R111), and the rules a placed word must keep. -/

namespace Sys2Proof.Machine

open Sys2Proof

/-- A destination of 34 bits (R85). -/
structure Dst where
  pe : Nat
  ia : Nat
  port : Nat
  top : Nat
  en : Bool
  neg : Bool
  rsv : Nat
  pri : Nat
  priset : Bool
  deriving DecidableEq, Repr

/-- An instruction word (R84). -/
structure Insn where
  opcode : Nat
  src : Nat
  w3m : Nat
  typex : Nat
  rsv : Nat
  d1 : Dst
  d2 : Dst
  w3 : Nat
  deriving DecidableEq, Repr

/-- A destination read from its 34 bits (R85). -/
def Dst.decode (n : Nat) : Dst :=
  { pe := bits n 0 8, ia := bits n 8 12, port := bits n 20 2, top := bits n 22 4, en := bits n 26 1 == 1,
    neg := bits n 27 1 == 1, rsv := bits n 28 2, pri := bits n 30 3, priset := bits n 33 1 == 1 }

/-- A destination as its 34 bits (R85). -/
def Dst.encode (d : Dst) : Nat :=
  d.pe + d.ia * 2 ^ 8 + d.port * 2 ^ 20 + d.top * 2 ^ 22 + bit d.en * 2 ^ 26 + bit d.neg * 2 ^ 27 + d.rsv * 2 ^ 28
    + d.pri * 2 ^ 30 + bit d.priset * 2 ^ 33

/-- Every field of a destination within its width. -/
def Dst.wf (d : Dst) : Bool :=
  d.pe < 2 ^ 8 && d.ia < 2 ^ 12 && d.port < 4 && d.top < 16 && d.rsv < 4 && d.pri < 8

/-- A word read from its 128 bits (R84). -/
def Insn.decode (n : Nat) : Insn :=
  { opcode := bits n 0 10, src := bits n 10 2, w3m := bits n 12 2, typex := bits n 14 4, rsv := bits n 18 10,
    d1 := Dst.decode (bits n 28 34), d2 := Dst.decode (bits n 62 34), w3 := bits n 96 32 }

/-- A word as its 128 bits (R84). -/
def Insn.encode (i : Insn) : Nat :=
  i.opcode + i.src * 2 ^ 10 + i.w3m * 2 ^ 12 + i.typex * 2 ^ 14 + i.rsv * 2 ^ 18 + i.d1.encode * 2 ^ 28
    + i.d2.encode * 2 ^ 62 + i.w3 * 2 ^ 96

/-- Every field of a word within its width. -/
def Insn.wf (i : Insn) : Bool :=
  i.opcode < 2 ^ 10 && i.src < 4 && i.w3m < 4 && i.typex < 16 && i.rsv < 2 ^ 10 && i.d1.wf && i.d2.wf
    && i.w3 < 2 ^ 32

/-- Destination 3 in its 32-bit form (R86). -/
def Dst.decode3 (n : Nat) : Dst :=
  { pe := bits n 0 8, ia := bits n 8 12, port := bits n 20 2, top := bits n 22 4, en := bits n 26 1 == 1,
    neg := bits n 27 1 == 1, rsv := 0, pri := bits n 28 3, priset := bits n 31 1 == 1 }

/-- Destination 3 of a word; none unless W3M is 0b10. -/
def Insn.d3 (i : Insn) : Option Dst := if i.w3m = 2 then some (Dst.decode3 i.w3) else none

/-- The three destinations of an extension word (R101). -/
def extDests (n : Nat) : List Dst := [Dst.decode (bits n 0 34), Dst.decode (bits n 34 34), Dst.decode (bits n 68 34)]

/-! ### Types -/

def tyI64 : Nat := 0
def tyF64 : Nat := 1
def tyF32X2 : Nat := 2
def tyC32 : Nat := 3
def tyBool : Nat := 4
def tyPhase : Nat := 5
def tyVel : Nat := 6
def tyTag : Nat := 7
def tyCtxref : Nat := 8
def tySaddr : Nat := 9
def tySample : Nat := 0xA
def tyFault : Nat := 0xB
def tyPoison : Nat := 0xF

/-- The mask of a type code. -/
def tm (t : Nat) : Nat := 2 ^ t

/-- "any" (R90). -/
def tAny : Nat := 0xFFF

/-! ### Opcode tables -/

/-- The Dest column (R88). -/
inductive DestKind where
  | all | d1 | d1d2 | none | allKeep
  /-- D1 with a third destination that only supplies a place (MKCONT, R104). -/
  | mkcont
  deriving DecidableEq, Repr

/-- What a row of a class table fixes. -/
structure OpInfo where
  /-- Accepted types of the operand positions L, R, T. -/
  pos : List Nat
  /-- R must have the type of L. -/
  same : Bool
  /-- Largest value of the immediate parameter, for an opcode that takes one. -/
  param : Option Nat
  dest : DestKind
  /-- Type codes allowed in TYPEX, as a mask. -/
  typex : Nat
  /-- "SRC 0b00 only". -/
  tokOnly : Bool
  /-- A merge-form instruction (R100). -/
  merge : Bool
  deriving DecidableEq, Repr

/-- A row with operands only, destinations "all" and no TYPEX. -/
def op (pos : List Nat) : OpInfo := ⟨pos, false, none, .all, 1, false, false⟩

/-- TYPEX codes of LOAD, IREAD and MTAKE (R108). -/
def tyxLoad : Nat := 0x67F

/-- TYPEX codes of RETYPE (R103). -/
def tyxRetype : Nat := 0x7FF

def i64 : Nat := tm tyI64
def f64 : Nat := tm tyF64
def f32x2 : Nat := tm tyF32X2
def c32 : Nat := tm tyC32
def bool : Nat := tm tyBool
def phase : Nat := tm tyPhase

/-- The base position of a scratch operation in a native context (R107). -/
def base : Nat := tm tySaddr ||| i64

def opsInt : List OpInfo := [
  op [i64, i64], op [i64, i64], op [i64, i64], op [i64, i64], op [i64, i64], op [i64, i64, i64],
  { op [i64 ||| bool, i64 ||| bool] with same := true }, { op [i64 ||| bool, i64 ||| bool] with same := true },
  { op [i64 ||| bool, i64 ||| bool] with same := true }, op [i64 ||| bool],
  op [i64, i64], op [i64, i64], op [i64, i64], op [i64], op [i64],
  op [i64, i64], op [i64, i64], op [i64, i64], op [i64, i64], op [i64], op [i64]]

def opsF64 : List OpInfo := [
  op [f64, f64], op [f64, f64], op [f64, f64], op [f64, f64], op [f64], op [f64, f64, f64], op [f64, f64],
  op [f64, f64], op [f64], op [f64]]

def opsPair : List OpInfo := [
  op [f32x2, f32x2], op [f32x2, f32x2], op [f32x2, f32x2], op [f32x2, f32x2, f32x2], op [f32x2, f32x2], op [f32x2],
  op [f32x2, f32x2], op [f32x2, f32x2], op [f32x2], op [f32x2], op [f32x2], op [f32x2]]

def opsCplx : List OpInfo := [
  op [c32, c32], op [c32, c32], op [c32, c32], op [c32, c32], op [c32, c32, c32], op [c32, c32, c32], op [c32],
  op [c32], op [c32], op [c32, f32x2]]

def opsCmp : List OpInfo := [
  { op [tAny, tAny] with same := true }, { op [tAny, tAny] with same := true }, op [i64, i64], op [i64, i64],
  op [i64, i64], op [i64, i64], op [f64, f64], op [f64, f64], op [f64, f64], op [f64, f64], op [phase, phase]]

def opsSteer : List OpInfo := [
  op [tAny],
  { op [tAny] with param := some 15, dest := .d1d2, tokOnly := true },
  { op [tAny, bool] with dest := .d1d2 },
  { op [tAny, tAny] with tokOnly := true, merge := true },
  { op [tAny, tAny] with dest := .allKeep, tokOnly := true, merge := true },
  op [tAny, tAny, bool],
  op [tAny, tAny],
  { op [tAny] with dest := .none }]

def opsConv : List OpInfo := [
  op [i64], op [f64], op [f64], op [f32x2], op [i64], op [tm tySample], op [tm tySample], op [tm tySample],
  op [tm tySample], op [f32x2, f32x2], op [f32x2], { op [tAny] with typex := tyxRetype }, op [tAny], op [tAny]]

def opsTag : List OpInfo := [
  { op [tAny] with dest := .mkcont },
  op [i64, tm tyTag],
  op [i64 ||| tm tySaddr, tm tyTag],
  { op [tAny, tm tyCtxref] with param := some 15, dest := .none },
  { op [tAny] with param := some 1, dest := .none },
  { op [tAny, i64] with dest := .d1 },
  { op [tAny, i64] with dest := .d1 },
  { op [tAny] with param := some 7, dest := .allKeep },
  { op [tAny] with param := some 7, dest := .none },
  { op [tAny, tm tyTag] with dest := .none },
  op [tAny]]

def opsMem : List OpInfo := [
  { op [base, i64] with typex := tyxLoad },
  op [tAny, base, i64],
  op [i64, base, i64],
  op [i64, base, i64],
  { op [base, i64] with typex := tyxLoad },
  op [tAny, base, i64],
  op [base, i64],
  { op [base, i64] with typex := tyxLoad },
  op [tAny, base, i64],
  { op [tm tySaddr, i64, i64] with param := some 7 }]

def opsPhase : List OpInfo := [
  { op [tAny] with dest := .d1d2 },
  { op [tAny, phase ||| i64] with dest := .d1 },
  op [phase, i64], op [phase, phase], op [phase], op [phase], op [i64, tm tyVel],
  { op [f32x2 ||| tm tySample] with param := some 255, dest := .none }]

/-- The row of an opcode; none for a reserved code (R89). -/
def opInfo (c : Nat) : Option OpInfo :=
  if c < 0x40 then opsInt[c]?
  else if c < 0x80 then opsF64[c - 0x40]?
  else if c < 0xC0 then opsPair[c - 0x80]?
  else if c < 0x100 then opsCplx[c - 0xC0]?
  else if c < 0x110 then opsCmp[c - 0x100]?
  else if c < 0x140 then opsSteer[c - 0x110]?
  else if c < 0x180 then opsConv[c - 0x140]?
  else if c < 0x1C0 then opsTag[c - 0x180]?
  else if c < 0x200 then opsMem[c - 0x1C0]?
  else opsPhase[c - 0x200]?

/-! ### The rules of R87 and R88 -/

/-- The type that an immediate takes for a list of accepted types (R87): the first of the position's list, in the order
the rows write it. Only PHREL's "PHASE or I64" departs from the order of R87's table. -/
def immType (mask : Nat) : Option Nat :=
  if mask = phase ||| i64 then some tyPhase
  else [tyI64, tyF64, tyF32X2, tyC32, tyBool, tyPhase, tySaddr].find? (fun t => mask.testBit t)

/-- The immediate form of a word is allowed for the accepted types of the last position. -/
def immOk (mask w3 : Nat) : Bool :=
  match immType mask with
  | none => false
  | some t => if t = tyBool then w3 < 2 else if t = tySaddr then w3 < 2 ^ 25 else true

/-- TOP is not reserved, and the reserved flag bits are zero. -/
def Dst.ok (d : Dst) : Bool := !d.en || ((d.top < 2 || 8 ≤ d.top) && d.rsv == 0)

/-- An extension word keeps R88 and R101. -/
def extWordOk (n : Nat) : Bool := bits n 102 26 == 0 && (extDests n).all Dst.ok

/-- A present destination uses KEEP. -/
def Dst.keep (d : Dst) : Bool := !d.en || d.top == 0

/-- The third destination is absent. -/
def noD3 (i : Insn) : Bool := match i.d3 with | some d => !d.en | none => true

/-- The Dest column (R88, R104). -/
def destsOk (i : Insn) : DestKind → Bool
  | .all => true
  | .d1 => !i.d2.en && noD3 i
  | .d1d2 => i.w3m != 2
  | .none => !i.d1.en && !i.d2.en && noD3 i
  | .allKeep => i.d1.keep && i.d2.keep && (match i.d3 with | some d => d.keep | none => true)
  | .mkcont => !i.d2.en && (match i.d3 with
      | some d => d.en && d.top == 0 && !d.neg && d.pri == 0 && !d.priset
      | none => false)

/-- A word keeps the rules of R88. -/
def Insn.ok (i : Insn) : Bool :=
  match opInfo i.opcode with
  | none => false
  | some o =>
    i.src < 3 && i.w3m < 3 && o.typex.testBit i.typex && i.rsv == 0
      && (i.src == 0 || (1 < o.pos.length && !o.tokOnly))
      && (i.src != 1 || (o.param.isNone && immOk (o.pos.getLastD 0) i.w3))
      && ((i.w3m == 1) == (i.src == 1 || o.param.isSome))
      && (i.w3m != 0 || i.w3 == 0)
      && (match o.param with | some m => i.w3 ≤ m | none => true)
      && i.d1.ok && i.d2.ok && (match i.d3 with | some d => d.ok | none => true)
      && destsOk i o.dest

/-- The number of token positions of a word (R51). -/
def Insn.tokens (i : Insn) : Nat :=
  match opInfo i.opcode with
  | none => 0
  | some o => if i.src = 0 then o.pos.length else o.pos.length - 1

/-- A merge-form instruction (R100). -/
def Insn.mergeForm (i : Insn) : Bool := match opInfo i.opcode with | some o => o.merge | none => false

end Sys2Proof.Machine
end

