-- ==== Sys2Proof/Machine/Tokens.lean ====
section
/-! DEFINITION. Tokens at a PE: the cluster rings, counts and quotas of a context, the phase gate's entry, the loop throttle,
and the sending of results (R39 to R45, R56, R62, R111, R119, R134 to R137, R165, R221, R227 to R229). -/

namespace Sys2Proof.Machine

open Sys2Proof

/-! ### Whose tokens a PE processes -/

/-- The home cluster of a context (R38). -/
def homeCl (ctx : Nat) : Nat := ctx / 1024

/-- The census of a RETURNING context has reached cluster `cl` (R142). -/
def censusAt (x : Ctx) (cl : Nat) : Bool :=
  x.state == .returning && (match x.census with | some c => c.reached.contains cl | none => false)

/-- A PE of cluster `cl` fires instructions of the context: it is LIVE, or RETURNING before the census start has
reached the cluster, and no quiesce is in effect (R46, R76, R142, R144). -/
def firesAt (s : State) (cl ctx : Nat) : Bool :=
  let x := s.ctx ctx
  !x.ctxq && (x.state == .live || (x.state == .returning && !censusAt x cl))

/-- Counts added to the census of a context. -/
def countCensus (ctx : Nat) (f : Census → Census) (s : State) : State :=
  s.updCtx ctx fun x => { x with census := x.census.map f }

/-- A context cause against a firing or a token of a PE with key `k` = cluster × 17 + PE (R79). -/
def peFault (k : Nat) (ctx port ia lpe ty iter cause detail : Nat) (s : State) : State :=
  clFault (k / 17) (some ctx) (faultValue cause port ia lpe ty iter detail) s

/-- A context cause of a firing of the PE with key `k` (R57, R75, R78, R79). -/
def peFiringFault (k : Nat) (ctx port ia lpe ty iter cause detail : Nat) (s : State) : State :=
  firingEvent (k / 17) ctx (faultValue cause port ia lpe ty iter detail) s

/-- A context cause raised against an arriving token. -/
def tokFault (k : Nat) (t : Tok) (cause detail : Nat) (s : State) : State :=
  peFault k t.tag.ctx t.tag.port t.tag.ia t.tag.pe 0 t.tag.iter cause detail s

/-- STRAY: recorded without a context (R75). -/
def stray (cl : Nat) (t : Tag) (s : State) : State :=
  clFault cl none (faultValue 0x14 t.port t.ia t.pe 0 t.iter t.ctx) s

/-! ### Tag comparators (R448) -/

/-- A comparator of cluster `cl` is enabled for the point of comparison and matches a tag. -/
def tbpHit (s : State) (cl j w tag : Nat) : Bool :=
  let en := if j = 0 then rdB s (F.dbgCltbpcfgEn0 cl) else rdB s (F.dbgCltbpcfgEn1 cl)
  let wh := if j = 0 then rd s (F.dbgCltbpcfgWhen0 cl) else rd s (F.dbgCltbpcfgWhen1 cl)
  let v := rd s (F.dbgCltbpvalloVal cl j) + rd s (F.dbgCltbpvalhiVal cl j) * 2 ^ 32
  let m := rd s (F.dbgCltbpmaskloMask cl j) + rd s (F.dbgCltbpmaskhiMask cl j) * 2 ^ 32
  en && wh == w && (tag ^^^ v) &&& m == 0

/-- A tag at an arrival (`w` = 0) or of a firing (`w` = 1): a match halts the cluster and records the tag (R448). -/
def tagBreak (cl w : Nat) (t : Tag) (s : State) : State :=
  let n := t.pack
  if !(s.cl cl).halted && (tbpHit s cl 0 w n || tbpHit s cl 1 w n) then
    put (put (s.updCl cl fun c => { c with halted := true }) (F.dbgClhitloTag cl) (n % 2 ^ 32)) (F.dbgClhithiTag cl)
      (n / 2 ^ 32)
  else s

/-- A token enters the input queue of the physical PE with key `k`. -/
def enterInq (k : Nat) (t : Tok) (s : State) : State :=
  tagBreak (k / 17) 0 t.tag (s.updPe k fun p => { p with inq := p.inq ++ [t] })

/-! ### The cluster rings (R221, R227 to R229) -/

/-- Virtual network and units of what travels on a cluster ring. -/
def CUnit.vn (u : CUnit) : Nat := match u.body with | .short _ => vnTok | .packet p => p.vn

def CUnit.size (u : CUnit) : Nat := match u.body with | .short _ => 1 | .packet p => p.size

/-- The direction with fewer hops, clockwise at a distance of 9. -/
def goesCw (a b : Nat) : Bool := (b + 18 - a) % 18 ≤ 9

/-- The stop after one in a direction. -/
def nextStop (cw : Bool) (a : Nat) : Nat := if cw then (a + 1) % 18 else (a + 17) % 18

/-- The input buffer of a stop, 10 units per virtual network and direction, has credits for `n` units. -/
def stopRoom (s : State) (cl : Nat) (cw : Bool) (a vn n : Nat) : Bool :=
  (((s.cl cl).units.filter fun u => u.entered && u.cw == cw && u.at_ == a && u.vn == vn).map CUnit.size).sum + n ≤ 10

/-- What is at its stop leaves the ring: a short unit for the input queue of its PE, which has room and is not being retired
(R116, R394); a packet through the cluster station. -/
def ejectUnit (cl : Nat) (u : CUnit) (s : State) : Option State :=
  match u.body with
  | .short n =>
    let k := cl * 17 + u.dstop
    if (s.pe k).inq.length < 128 && !(s.pe k).stopped then some (enterInq k (ofShort (devnum s) cl n) s) else none
  | .packet p => if p.vn = vnTok ∧ p.cmd = 0x01 then stationTok p s else tryInject p s

/-- The units of a ring with one replaced, or removed. -/
def replaceUnit (cl : Nat) (u : CUnit) (v : List CUnit) (s : State) : State :=
  s.updCl cl fun c => { c with units := c.units.takeWhile (· != u) ++ v ++ (c.units.dropWhile (· != u)).drop 1 }

/-- One unit or packet of a cluster ring acts once when it is the first of its buffer: it leaves at its stop, advances one stop
when the next buffer has credits for it, or enters the ring when that has room for it and 5 units more and nothing passes. -/
def stepUnit (cl : Nat) (u : CUnit) (s : State) : State :=
  let same (v : CUnit) : Bool := v.cw == u.cw && v.at_ == u.at_ && v.vn == u.vn
  let us := (s.cl cl).units
  if (us.takeWhile (· != u)).any (fun v => v.entered == u.entered && same v) then s
  else if u.entered && u.at_ == u.dstop then
    match ejectUnit cl u s with
    | some s' => replaceUnit cl u [] s'
    | none => s
  else
    let b := nextStop u.cw u.at_
    let margin := if u.entered then 0 else 5
    if stopRoom s cl u.cw b u.vn (u.size + margin)
        && (u.entered || !us.any fun v => v.entered && same v && v.at_ != v.dstop) then
      replaceUnit cl u [{ u with at_ := b, entered := true }] s
    else s

/-- The cluster rings run for `n` rounds, or until they are empty. -/
def clRun (cl : Nat) : Nat → State → State
  | 0, s => s
  | n + 1, s => if (s.cl cl).units = [] then s else clRun cl n (forAll (s.cl cl).units (stepUnit cl) s)

/-- The cluster rings come to rest: a unit is at most nine stops from its own. -/
def clFlow (cl : Nat) (s : State) : State := clRun cl 24 s

/-- Something may enter the cluster rings at stop `a` towards stop `b` now (R229). -/
def mayEnter (s : State) (cl a b vn n : Nat) : Bool :=
  let cw := goesCw a b
  stopRoom s cl cw (nextStop cw a) vn (n + 5)
    && !(s.cl cl).units.any fun v => v.cw == cw && v.at_ == a && v.vn == vn && (!v.entered || v.at_ != v.dstop)

/-- Something is offered at stop `a` of the cluster rings for stop `b`. -/
def clPut (cl a b : Nat) (x : CBody) (s : State) : State :=
  clFlow cl (s.updCl cl fun c => { c with units := c.units ++ [⟨x, goesCw a b, a, b, false⟩] })

/-- A request of the PE with key `k` travels to its cluster station, and on (R221). -/
def peSend (k : Nat) (p : Packet) (s : State) : State := clPut (k / 17) (k % 17) 17 (.packet p) s

/-! ### Quota counters (R134, R135) -/

/-- One more of a PE's counters (R144). -/
def bumpCtr (k which : Nat) (s : State) : State :=
  { s with ctrs := mset 0 s.ctrs (k * 8 + which) (mget 0 s.ctrs (k * 8 + which) + 1) }

/-- A release notice of loop `n` to every cluster that has queried it (R136). -/
def notify (ctx n : Nat) (s : State) : State :=
  let x := s.ctx ctx
  let cls := (x.queried.filter (·.1 == n)).map (·.2)
  forAll cls (fun cl => inject {
    src := clStation (homeCl ctx), dstn := clStation cl, dstp := 17, ring := 0, cmd := 0x23, vn := vnRsp, epoch := 0,
    init := homeCl ctx, f := 0, who := none, asker := .nobody,
    body := .window ctx n (x.head.getD n 0) (x.d.kbound.getD n 0 + 1) (x.thrM || x.thrS) }) s

/-- The context of a record. -/
def Rec.ctx : Rec → Nat
  | .entry e => e.ctx
  | .held h => h.tok.tag.ctx

/-- The throttle of a context from its counters and quotas (R135). -/
def throttleOf (x : Ctx) : Bool × Bool :=
  let mOver := x.d.mquota != 0 && decide ((x.d.mquota : Int) < x.mcount)
  let sOver := x.d.squota != 0 && decide ((64 * x.d.squota : Int) < x.scount)
  let mLow := x.d.mquota == 0 || decide (8 * x.mcount ≤ 7 * (x.d.mquota : Int))
  let sLow := x.d.squota == 0 || decide (8 * x.scount ≤ 7 * (64 * x.d.squota : Int))
  if mLow && sLow then (false, false) else (x.thrM || mOver, x.thrS || sOver)

/-- A report of the delta cache applied at the home slice: counters, throttle, the first crossing of an episode, and
the notices of a changed flag (R134 to R136); an orphan census has ended the throttle (R144). PORT, IA, PE and ITER of the
records of MQUOTA and SQUOTA, which name no firing, are zero, as of ORPHAN and CENSUSTO (DESIGN CHOICE, log entry 73). -/
def applyDelta (d : Delta) (s : State) : State :=
  let x := s.ctx d.ctx
  let x1 := { x with mcount := x.mcount + d.dm, scount := x.scount + d.ds }
  match (if x.state == .returning then (false, false) else throttleOf x1) with
  | (m, q) =>
    let s1 := s.setCtx d.ctx { x1 with thrM := m, thrS := q }
    let s2 := if m && !x.thrM then clFault (homeCl d.ctx) (some d.ctx) (faultValue 0x24 0 0 0 0 0 0) s1 else s1
    let s3 := if q && !x.thrS then clFault (homeCl d.ctx) (some d.ctx) (faultValue 0x25 0 0 0 0 0 0) s2 else s2
    if (m || q) != (x.thrM || x.thrS) then forAll (List.range 8) (notify d.ctx) s3 else s3

/-- A change of a context's counts at a PE enters its delta cache of eight entries; an entry that reaches ±16 or is
displaced is flushed (R134). -/
def count (k ctx : Nat) (dm ds : Int) (s : State) : State :=
  let p := s.pe k
  match p.delta.find? (·.ctx == ctx) with
  | some d =>
    let d' : Delta := ⟨ctx, d.dm + dm, d.ds + ds⟩
    let rest := p.delta.filter (·.ctx != ctx)
    if 16 ≤ d'.dm.natAbs ∨ 16 ≤ d'.ds.natAbs then applyDelta d' (s.setPe k { p with delta := rest })
    else s.setPe k { p with delta := rest ++ [d'] }
  | none =>
    let d' : Delta := ⟨ctx, dm, ds⟩
    if 8 ≤ p.delta.length then
      match p.delta with
      | o :: rest => applyDelta o (s.setPe k { p with delta := rest ++ [d'] })
      | [] => s
    else s.setPe k { p with delta := p.delta ++ [d'] }

/-! ### Room for a spill record (R125, R128, R129) -/

/-- The first record and the record count of window `w` of cluster `cl` that may be allocated: an enabled window that
is not draining; the directory takes the first 4,096 records of window 0 (R125). -/
def winRecords (s : State) (cl w : Nat) : Nat × Nat :=
  if rdB s (F.clNswinEn cl w) && !(rd s (F.clNsstatDraining cl)).testBit w then
    let n := rd s (F.clNswinSize cl w) * 1024
    if w = 0 then (4096, n - 4096) else (0, n)
  else (0, 0)

/-- A record pointer lies where records may be allocated. -/
def recActive (s : State) (cl ptr : Nat) : Bool :=
  match winRecords s cl (ptr / 2 ^ 14) with
  | (a, n) => a ≤ ptr % 2 ^ 14 && ptr % 2 ^ 14 < a + n

/-- Free near records. -/
def nearFree (s : State) (cl : Nat) : Nat :=
  if rdB s (F.clSpillcfgNsen cl) then
    let cap := ((List.range 8).map fun w => (winRecords s cl w).2).sum
    cap - ((s.cl cl).nearUsed.filter fun e => e.2 && recActive s cl e.1).length
  else 0

/-- Records on their way to the spill agent of the cluster. -/
def spillGoing (s : State) (cl : Nat) : Nat := ((List.range 17).map fun p => (s.pe (cl * 17 + p)).evict.length).sum

/-- Far spill may take a record of the context (R128). -/
def farAllowed (s : State) (cl ctx : Nat) : Bool :=
  profA s && rdB s (F.clSpillcfgFaren cl) && (s.ctx ctx).d.farspill

/-- Free far records of the cluster's region of 64 KB units. -/
def farFree (s : State) (cl : Nat) : Nat :=
  (s.cl cl).farFree.length + (rd s (F.clFssizeSize cl) * 1024 - (s.cl cl).farBump)

/-- Whether a level takes a record of the context beside those on their way: none, or the cause that R129 raises. -/
def spillRefusal (s : State) (cl ctx : Nat) : Option Nat :=
  let near := nearFree s cl
  let going := spillGoing s cl
  if going < near then none
  else if farAllowed s cl ctx then (if going - near < farFree s cl then none else some 0x21)
  else some 0x20

/-- DETAIL of NSFULL and FSFULL (R146). -/
def spillDetail (lpe set : Nat) : Nat := lpe % 16 * 1024 + set

/-! ### The phase gate's entry (R165, R168) -/

/-- The signed difference of two phase words (R167). -/
def phDiff (a b : Nat) : Int := signed 64 ((a + 2 ^ 64 - b % 2 ^ 64) % 2 ^ 64)

/-- A difference seen in the direction of motion. -/
def along (fwd : Bool) (d : Int) : Int := if fwd then d else -d

/-- Entries of a gate in use, with reservations (CLn_GATESTAT.USED). -/
def gateUsed (s : State) (cl : Nat) : Nat := (s.cl cl).gate.length + (s.cl cl).reserved

/-- The highest occupancy of the gate since the last read. -/
def gateHwm (cl : Nat) (s : State) : State :=
  put s (F.clGatestatHwm cl) (max (rd s (F.clGatestatHwm cl)) (gateUsed s cl))

/-- A token leaves the gate with PHG cleared: on the cluster ring to a PE of its cluster, or through the cluster station
(R167). -/
def gateSend (cl : Nat) (t : Tok) (s : State) : State :=
  let t' := { t with tag := { t.tag with phg := false } }
  if t'.tag.dev = devnum s ∧ t'.tag.pe / 16 = cl then
    clPut cl 17 (peKey s t'.tag.pe % 17) (.short (shortUnit t')) s
  else injectTok (clStation cl) cl t' s

/-- A gate entry's context lets it leave: it is LIVE (R167). -/
def gateLive (s : State) (ctx : Nat) : Bool :=
  let x := s.ctx ctx
  x.state == .live && !x.ctxq

/-- A token enters the gate with its release phase; `port`, `ia`, `lpe` and `iter` name the firing that issued it. Under release
all, while the source is STALLED or ACQUIRING, it is released at once when its context is LIVE and the cluster is not halted, and
otherwise with the next pass that may release it (R168). -/
def gateEnter (cl : Nat) (t : Tok) (rel port ia lpe iter : Nat) (s : State) : State :=
  let x := s.ctx t.tag.ctx
  let src := x.d.phsrc
  let b := s.bs (cl * 16 + src)
  let fwd := bits b.status 3 1 == 0
  let st := bits b.status 0 3
  let s1 := s.updCl cl fun c => { c with reserved := c.reserved - 1 }
  let all := x.d.stallpol == 1 && (st == 4 || st == 1)
  if all && gateLive s t.tag.ctx && !(s.cl cl).halted then gateSend cl t s1
  else
    let late := decide (along fwd (phDiff rel b.pb) ≤ 0)
    let s2 := gateHwm cl <| s1.updCl cl fun c => { c with gate := c.gate ++ [⟨t, rel, src, fwd, late, all⟩] }
    if late then
      let s3 := putSat s2 (F.clGatestatLate cl) 1
      if rdB s (F.clGatecfgLateflt cl) then
        firingEvent cl t.tag.ctx (faultValue 0x32 port ia lpe 0 iter src) s3
      else s3
    else s2

/-- A token that holds a reservation in its cluster's phase gate and goes no further gives it back (R111, R166). -/
def unreserve (cl : Nat) (h : Held) (s : State) : State :=
  if h.rel.isSome then s.updCl cl fun c => { c with reserved := c.reserved - 1 } else s

/-! ### Results and the loop throttle -/

/-- A token leaves the PE's pipe: into the phase gate when it has a release phase, or else into the output queue of 32
tokens, waiting in the output stage for room (R119). -/
def sendOut (k : Nat) (h : Held) (s : State) : State :=
  match h.rel with
  | some r => gateEnter (k / 17) h.tok r h.fport h.fia (k / 17 * 16 + (logPe s (k / 17) (k % 17)).getD 0) h.fiter s
  | none => s.updPe k fun p =>
    if p.outq.length < 32 && p.outWait.isEmpty then { p with outq := p.outq ++ [h.tok] }
    else { p with outWait := p.outWait ++ [h.tok] }

/-- A record of the overflow of the throttle list, or of an eviction, joins the buffer that the spill agent takes
from, with the tick and the GEN of its context (R126). -/
def toEvict (k : Nat) (r : Rec) (s : State) : State :=
  s.updPe k fun p => { p with evict := p.evict ++ [⟨r, tick s, (s.ctx r.ctx).gen⟩] }

/-- A token held where there is room: in the throttle list of 128 tokens, or as a held record when the list is full (R136,
R137). -/
def placeHeld (k : Nat) (h : Held) (s : State) : Option State :=
  let p := s.pe k
  if p.throttle.length < 128 then some (s.setPe k { p with throttle := p.throttle ++ [h] })
  else if 8 ≤ p.evict.length then none
  else
    match spillRefusal s (k / 17) h.tok.tag.ctx with
    | none => some (count k h.tok.tag.ctx 0 1 (toEvict k (.held h) s))
    | some _ => none

/-- A token is held. When no level takes its record it stays in the overflow hold, with NSFULL or FSFULL (R129, R137), and while
that is occupied, or the eviction buffer full, in the output stage. -/
def holdHeld (k : Nat) (h : Held) (s : State) : State :=
  let p := s.pe k
  let lpe := k / 17 * 16 + (logPe s (k / 17) (k % 17)).getD 0
  match placeHeld k h s with
  | some s' => bumpCtr k 4 s'
  | none =>
    if p.hold.isSome || p.holdTok.isSome || 8 ≤ p.evict.length then s.setPe k { p with loopWait := p.loopWait ++ [h] }
    else
      peFault k h.tok.tag.ctx h.tok.tag.port h.tok.tag.ia lpe 0 h.tok.tag.iter
        ((spillRefusal s (k / 17) h.tok.tag.ctx).getD 0x20) (spillDetail lpe 0)
        (bumpCtr k 4 (s.setPe k { p with hold := some (.held h) }))

/-- What the loop window says of the result that would start the next iteration (R62, R135, R136). -/
inductive Admit where
  | send | hold | refuse | miss
  deriving DecidableEq, Repr

/-- The window of a loop against an iteration. -/
def lwcAdmit (w : Lwc) (iter : Nat) : Admit :=
  let d := (iter + 4096 - w.head) % 4096
  if w.throttled && d != 0 then (if d ≤ 64 then .hold else .refuse)
  else if d < w.k then .send
  else if d ≤ 64 then .hold
  else .refuse

/-- A loop window query of a PE for its context's home slice, remembered until it is answered (R136, R231). -/
def sendQuery (k ctx loop : Nat) (s : State) : State :=
  let txn := (s.pe k).nextTxn
  peSend k { src := clStation (k / 17), dstn := clStation (homeCl ctx), dstp := 17, ring := 0, cmd := 0x1C, vn := vnReq,
             epoch := 0, init := k / 17, f := reqF ctx txn (k % 17), body := .query ctx loop, who := none, asker := .pe k }
    (s.updPe k fun p => { p with nextTxn := (txn + 1) % 4096, queries := p.queries ++ [⟨txn, ctx, loop, s.now⟩] })

/-- A token parked behind a loop window query; when the table is full it waits in the output stage (R136). -/
def parkLoop (k : Nat) (h : Held) (s : State) : State :=
  if (s.pe k).refill.length < 16 then
    sendQuery k h.tok.tag.ctx h.loop (s.updPe k fun p => { p with refill := p.refill ++ [⟨h.tok, .loop h, true⟩] })
  else s.updPe k fun p => { p with loopWait := p.loopWait ++ [h] }

/-- A NEXTn result, its tag already advanced, is checked against the loop window cache (R62, R136). -/
def loopCheck (k : Nat) (h : Held) (s : State) : State :=
  let p := s.pe k
  match p.lwc.find? (fun w => w.ctx == h.tok.tag.ctx && w.loop == h.loop) with
  | some w =>
    let s1 := s.setPe k { p with lwc := w :: p.lwc.filter (fun v => !(v.ctx == w.ctx && v.loop == w.loop)) }
    match lwcAdmit w h.tok.tag.iter with
    | .send => sendOut k h s1
    | .hold => holdHeld k h s1
    | _ => parkLoop k h s1
  | none => parkLoop k h s

/-- A NEXTn result comes to the throttle: behind those that wait in the output stage, or checked (R119, R136). -/
def offerLoop (k : Nat) (h : Held) (s : State) : State :=
  if (s.pe k).loopWait.isEmpty then loopCheck k h s else s.updPe k fun p => { p with loopWait := p.loopWait ++ [h] }

/-- The results that wait in the output stage are offered again, in order, when the pending-refill table, the throttle list or
the overflow hold may have gained room (R136, R137). -/
def pumpLoops (k : Nat) (s : State) : State :=
  forAll (s.pe k).loopWait (offerLoop k) (s.updPe k fun p => { p with loopWait := [] })

/-- A result for one destination: the destination, the value, and what an opcode changes in the tag. -/
structure Emit where
  dst : Dest
  val : Val
  dev : Option Nat
  pe : Option Nat
  iter : Option Nat
  rel : Option Nat
  deriving DecidableEq, Repr

/-- A destination of an instruction word as a result uses it (R41, R85). -/
def Dst.toDest (d : Dst) : Dest :=
  ⟨d.pe, d.ia, d.port, d.top, d.neg, if d.priset then some d.pri else none⟩

/-- The result token of a destination, before the loop admission of its tag operation (R41, R56, R92). -/
def formTok (s : State) (f : Firing) (e : Emit) : Tok :=
  let it := e.iter.getD f.iter
  let v := if e.dst.neg && e.val.ty == tyBool then { e.val with v := e.val.v ^^^ 1#64 } else e.val
  ⟨{ dev := e.dev.getD (devnum s), ctx := f.ctx,
     iter := if e.dst.top = 1 then 0 else if 8 ≤ e.dst.top then (it + 1) % 4096 else it,
     ia := e.dst.ia, pe := e.pe.getD e.dst.pe, port := e.dst.port, pri := e.dst.pri.getD f.pri,
     phg := e.rel.isSome }, v⟩

/-- A result sent: NEXTn goes through the loop throttle (R56, R62). -/
def emit (k : Nat) (f : Firing) (e : Emit) (s : State) : State :=
  let h : Held := ⟨formTok s f e, e.dst.top - 8, e.rel, f.ia, f.port, f.iter⟩
  if 8 ≤ e.dst.top then offerLoop k h s else sendOut k h s

end Sys2Proof.Machine
end

