-- ==== Sys2Proof/Machine/Delivery.lean ====
section
/-! DEFINITION. Delivery of a packet at its destination station: its order, its header, parking, and the refusal of a
bad command (R224, R226, R228 to R231, R239, R240). -/

namespace Sys2Proof.Machine

open Sys2Proof

/-- The mark in EPOCH of a packet that was parked and is delivered now that its domain has reopened. -/
def unparked : Nat := 3

/-- No packet of the same flow was injected before it (R230), and none of its virtual network that was parked at its
station waits before it (R239). -/
def firstOfFlow (net : List Packet) (i : Nat) (p : Packet) : Bool :=
  (net.take i).all fun q =>
    !(q.src == p.src && q.dstn == p.dstn && q.dstp == p.dstp && q.vn == p.vn && q.init == p.init)
      && !(q.epoch == unparked && q.dstn == p.dstn && q.vn == p.vn)

/-- A packet whose command is reserved or does not belong to its virtual network is not delivered (R224). -/
def badPacket (p : Packet) (s : State) : State :=
  let s1 := event 6 1 p.dstn s
  if p.vn = vnReq ∨ (p.vn = vnMgt ∧ p.cmd ≠ 0x42 ∧ p.cmd ≠ 0x43) then
    reply p (if p.vn = vnMgt then 0x43 else 0x21) stBADCMD [] s1
  else s1

/-- A packet arriving for a domain that is closing or closed enters its parking buffer, which has room (R239). -/
def parkPacket (p : Packet) (s : State) : State :=
  let st := s.stn p.dstn
  let full (n lim : Nat) (s : State) : State := if n + 1 = lim then event 6 5 p.dstn s else s
  wakeStation p.dstn <|
    if p.vn = vnTok then full st.parkTok.length 256 (s.setStn p.dstn { st with parkTok := st.parkTok ++ [p] })
    else if p.vn = vnReq then full st.parkReq.length 256 (s.setStn p.dstn { st with parkReq := st.parkReq ++ [p] })
    else full st.parkMgt.length 16 (s.setStn p.dstn { st with parkMgt := st.parkMgt ++ [p] })

/-- The parking buffer of the packet's virtual network is full. -/
def parkFull (s : State) (p : Packet) : Bool :=
  let st := s.stn p.dstn
  if p.vn = vnTok then 256 ≤ st.parkTok.length
  else if p.vn = vnReq then 256 ≤ st.parkReq.length
  else 16 ≤ st.parkMgt.length

/-- The rings are at rest: every packet has reached its station, none waits to be injected, and the cluster rings are empty. -/
def atRest (s : State) : Bool :=
  s.net.all (fun p => p.epoch != waiting && (!p.onRing || p.at_ == p.dstn)) && s.clusters.all fun e => e.2.units.isEmpty

/-- The rings come to rest: packets advance as credits allow, those that wait are offered again, and what has crossed a cluster
ring enters its station. The index of a delivery counts the packets after that. -/
def rest (s : State) : State :=
  if atRest s then s else ringFlow (reinject (forAll (List.range 16) clFlow (ringFlow s)))

/-- What the arrival of a packet comes to before its command acts. -/
inductive Arrival where
  /-- Nothing arrives: no such packet, one that has not reached its station or waits behind another of its buffer or flow, or
  credit withheld. -/
  | none
  /-- The arrival ends here. -/
  | done (s : State)
  /-- The packet is delivered to the agent in this state, from which it has been taken. -/
  | deliver (p : Packet) (s : State)

/-- The packet at an index of those in flight has reached its destination, the head of its input buffer and the first of its flow
(R228, R230); a bypassed station ejects nothing (R237). -/
def arrived (s : State) (i : Nat) (p : Packet) : Bool :=
  p.epoch != waiting && firstOfFlow s.net i p
    && (!p.onRing || (p.at_ == p.dstn && !(s.net.take i).any (fun q => q.inBuf p.at_ p.ring p.vn)
      && !(rd s F.rngBypassByp).testBit p.dstn))

/-- A header unit that reads uncorrectable at a station loses its packet (R226). -/
def headerLost (i st : Nat) (s : State) : State :=
  fault { FEv.plain 6 0 st with tgt := some ⟨5, 0, st, 0⟩ } { s with net := s.net.eraseIdx i }

/-- The packet at an index of those in flight, arriving at its destination; or found with a bad header where it stands. -/
def arrive (d : Deliver) (s : State) : Arrival :=
  match s.net[d.idx]? with
  | Option.none => .none
  | some p =>
    if d.here && d.hdr == .uncorrectable && p.onRing then .done (headerLost d.idx p.at_ s)
    else if !arrived s d.idx p then .none
    else
      let s1 := { s with net := s.net.eraseIdx d.idx }
      if d.hdr = .uncorrectable then .done (headerLost d.idx p.dstn s)
      else if cmdVn p.cmd ≠ some p.vn then .done (badPacket p s1)
      else if rdB s (F.rngParkClosed p.dstn) && (p.vn == vnTok || p.vn == vnReq || (p.vn == vnMgt && p.isRequest)) then
        if parkFull s p then .none else .done (parkPacket p s1)
      else if rdB s (F.rngParkClosed p.dstn) && p.vn == vnRsp then .done (event 6 1 p.dstn s1)
      else if !stationRuns s p.dstn && p.vn != vnRsp then .done (wakeStation p.dstn s)
      else .deliver p s1

/-- A delivery row: the packet must carry one of the row's commands; `f` answers none while the agent cannot take it.
Responses are counted at the requester's station (R241). -/
def deliverAt (d : Deliver) (cmds : List Nat) (f : Packet → State → Option State) (s : State) : State :=
  match arrive d s with
  | .none => s
  | .done s' =>
    match s.net[d.idx]? with
    | some p => if cmds.contains p.cmd || cmdVn p.cmd != some p.vn then s' else s
    | none => s
  | .deliver p s1 =>
    if cmds.contains p.cmd then
      let s2 := if p.vn = vnRsp && p.status != stDEFERRED then bumpStat p.dstn p.init 3 1 s1 else s1
      (f p s2).getD s
    else s

/-- A delivery row, once the rings have come to rest. -/
def deliverEff (d : Deliver) (cmds : List Nat) (f : Packet → State → Option State) (s : State) : State :=
  deliverAt d cmds f (rest s)

/-! ### Tokens from the rings -/

/-- The token of a TOK packet; a lost data unit makes it POISON, whose content is left open (R42, R226). -/
def packetTok (p : Packet) (data : Ecc) (s : State) : Tok × State :=
  let tag := Tag.unpack (bits p.f 0 64)
  if data = .uncorrectable then
    match s.takeFree with
    | (w, s') => (⟨tag, ⟨w, tyPoison, false⟩⟩, s')
  else (⟨tag, ⟨BitVec.ofNat 64 (p.units.headD 0), bits p.f 64 4, bits p.f 68 1 == 1⟩⟩, s)

/-- A TOKEN packet at its cluster station: converted into a short unit that enters the cluster ring, when that has room, towards
the stop that CLn_REMAP gives (R116, R227, R229). -/
def tokenAt (data : Ecc) (p : Packet) (s : State) : Option State :=
  match packetTok p data s with
  | (t, s1) =>
    let cl := (stationCl p.dstn).getD 0
    let stop := peKey s t.tag.pe % 17
    if mayEnter s cl 17 stop vnTok 1 then some (clPut cl 17 stop (.short (shortUnit t)) s1) else none

end Sys2Proof.Machine
end

