-- ==== Sys2Proof/Machine/Mem.lean ====
section
/-! DEFINITION. The device's memory: bytes by address, and where the scratch words lie (R256, R258, R273, R454). -/

namespace Sys2Proof.Machine

open Sys2Proof

/-- A byte that nothing has written reads as zero (log entry 13). -/
def memGet (m : List Host.Cell) (a : Nat) : Byte := mget (0 : Byte) m a

/-- One byte written; a zero byte is not listed, so that equal memories are equal lists. -/
def memSet (m : List Host.Cell) (a : Nat) (b : Byte) : List Host.Cell := mset (0 : Byte) m a b

/-- The canonical form of memory: addresses strictly rising, no listed byte zero. -/
def Memory.wf (m : List Host.Cell) : Bool := mwf (0 : Byte) m

/-- Bytes written from an address upwards. -/
def memWrite (m : List Host.Cell) (a : Nat) : List Nat → List Host.Cell
  | [] => m
  | b :: bs => memWrite (memSet m a (BitVec.ofNat 8 b)) (a + 1) bs

/-- `n` bytes from an address upwards. -/
def memRead (m : List Host.Cell) (a n : Nat) : List Nat := (List.range n).map fun i => (memGet m (a + i)).toNat

/-- `n` bytes from an address as a number, the lowest first (R6). -/
def memNat (m : List Host.Cell) (a n : Nat) : Nat :=
  (memRead m a n).foldr (fun b acc => b + 256 * acc) 0

/-- `n` bytes of a number, the lowest first. -/
def natBytes (n v : Nat) : List Nat := (List.range n).map fun i => bits v (8 * i) 8

/-- Where the normal view of the scratch banks begins (R256). -/
def scrBase : Nat := 0x100000000

/-- The bank that holds a bank's words: the spare once it has replaced it (R273). -/
def physBank (s : State) (b : Nat) : Nat := if rd s F.sbSpareState = 2 ∧ rd s F.sbSpareBank = b then 32 else b

/-- The place of a scratch address in memory. -/
def scrPhys (s : State) (a : Nat) : Nat := scrBase + physBank s (a / 2 ^ 20) * 2 ^ 20 + a % 2 ^ 20

/-- What a write at a scratch address changes: the word's place in memory, and while its bank is being copied and the row has been
copied, its place in bank 32 too (R273). -/
def both {α : Type} (s : State) (a : Nat) (w : Nat → α → α) (x : α) : α :=
  let y := w (scrPhys s a) x
  if rd s F.sbSpareState = 1 ∧ rd s F.sbSpareBank = a / 2 ^ 20 ∧ a % 2 ^ 20 / 512 < rd s F.sbSpareCopied then
    w (scrBase + 32 * 2 ^ 20 + a % 2 ^ 20) y
  else y

/-- Bytes written from a scratch address upwards, within one row. -/
def scrWrite (s : State) (a : Nat) (bs : List Nat) : State := { s with mem := both s a (fun p m => memWrite m p bs) s.mem }

/-- The number under which the presence and the health of the word at a scratch address are kept. -/
def scrWord (s : State) (a : Nat) : Nat := scrPhys s a / 8

/-- The 64-bit word at a scratch address. -/
def scrGet (s : State) (a : Nat) : Nat := memNat s.mem (scrPhys s (a / 8 * 8)) 8

/-- The 64-bit word at a scratch address written. -/
def scrPut (s : State) (a v : Nat) : State :=
  { s with mem := both s (a / 8 * 8) (fun p m => memWrite m p (natBytes 8 v)) s.mem }

/-- The word at a scratch address is held uncorrectable (R269). -/
def scrBad (s : State) (a : Nat) : Bool := mget false s.bad (scrWord s a)

def setBad (s : State) (a : Nat) (b : Bool) : State :=
  { s with bad := both s a (fun p m => mset false m (p / 8) b) s.bad }

/-- Presence of the word at a scratch address: 0 EMPTY, 1 FULL, 2 DEFERRED (R65). -/
def presOf (s : State) (a : Nat) : Nat := mget 0 s.presence (scrWord s a)

def setPres (s : State) (a p : Nat) : State :=
  { s with presence := both s a (fun q m => mset 0 m (q / 8) p) s.presence }

/-! ### The copy to the spare bank (R273) -/

/-- The entries of a map in a range, copied `d` further up in place of those there. -/
def moveCells {α : Type} [DecidableEq α] (dflt : α) (lo n d : Nat) (m : List (Nat × α)) : List (Nat × α) :=
  (m.filter fun e => lo ≤ e.1 && e.1 < lo + n).foldl (fun acc e => mset dflt acc (e.1 + d) e.2)
    (m.filter fun e => !(lo + d ≤ e.1 && e.1 < lo + d + n))

/-- One row of the bank being replaced copied to bank 32, with presence states and lost words. -/
def copyRow (row : Nat) (s : State) : State :=
  let b := rd s F.sbSpareBank
  let lo := scrBase + b * 2 ^ 20 + row * 512
  let d := (32 - b) * 2 ^ 20
  put { s with
    mem := moveCells (0 : Byte) lo 512 d s.mem,
    presence := moveCells 0 (lo / 8) 64 (d / 8) s.presence,
    bad := moveCells false (lo / 8) 64 (d / 8) s.bad } F.sbSpareCopied (row + 1)

/-- The rows that the copy has passed by now, in order: 2,048 rows in 70 µs, the time without contention (log entry 80). -/
def copyRows (s : State) : State :=
  match s.running with
  | some (_, t) =>
    if rd s F.sbSpareState = 1 then
      let a := rd s F.sbSpareCopied
      let n := min 2048 ((s.now - t) * 2048 / usEtu 70)
      forAll ((List.range (n - a)).map (a + ·)) copyRow s
    else s
  | none => s

end Sys2Proof.Machine
end

