-- ==== Sys2Proof/Machine/Float.lean ====
section
/-! DEFINITION. IEEE 754 binary64 and binary32 arithmetic with round to nearest even, by exact integers and one
rounding (R80, R94 to R98, R102). -/

namespace Sys2Proof.Machine.Fp

open Sys2Proof

/-- A binary format: precision and width of the exponent field. -/
structure Fmt where
  p : Nat
  w : Nat
  deriving DecidableEq, Repr

def b64 : Fmt := ⟨53, 11⟩
def b32 : Fmt := ⟨24, 8⟩

/-- Position of the sign bit. -/
def Fmt.top (f : Fmt) : Nat := f.p - 1 + f.w

/-- The exponent of the last place of the subnormals. -/
def Fmt.emin (f : Fmt) : Int := 3 - (2 ^ (f.w - 1) : Nat) - f.p

def Fmt.infBits (f : Fmt) : Nat := (2 ^ f.w - 1) * 2 ^ (f.p - 1)

/-- The default NaN (R94). -/
def Fmt.nan (f : Fmt) : Nat := f.infBits + 2 ^ (f.p - 2)

/-- A datum: a NaN, an infinity, or sign, magnitude and exponent of a finite number. -/
inductive Dat where
  | nan
  | inf (neg : Bool)
  | fin (neg : Bool) (m : Nat) (e : Int)
  deriving DecidableEq, Repr

def expOf (f : Fmt) (n : Nat) : Nat := bits n (f.p - 1) f.w
def fracOf (f : Fmt) (n : Nat) : Nat := bits n 0 (f.p - 1)
def negOf (f : Fmt) (n : Nat) : Bool := bits n f.top 1 == 1

/-- What the bits of a format mean. -/
def dat (f : Fmt) (n : Nat) : Dat :=
  let x := expOf f n
  let m := fracOf f n
  if x = 2 ^ f.w - 1 then (if m = 0 then .inf (negOf f n) else .nan)
  else if x = 0 then .fin (negOf f n) m f.emin
  else .fin (negOf f n) (m + 2 ^ (f.p - 1)) (f.emin + (x - 1 : Nat))

def isNan (f : Fmt) (n : Nat) : Bool := dat f n == .nan

/-- The sign bit in place. -/
def sgn (f : Fmt) (neg : Bool) : Nat := bit neg * 2 ^ f.top

/-- `m` × 2^`e`, plus less than one unit of `m` when `sticky`, rounded to nearest even (R80). When `sticky` is set,
`m` has more bits than the precision. -/
def pack (f : Fmt) (neg : Bool) (m : Nat) (e : Int) (sticky : Bool) : Nat :=
  if m = 0 then sgn f neg
  else
    let lsb := max (e + (Nat.log2 m + 1 : Nat) - (f.p : Nat)) f.emin
    let sh := lsb - e
    let q :=
      if sh ≤ 0 then m * 2 ^ (-sh).toNat
      else
        let k := sh.toNat
        let q := m / 2 ^ k
        let r := m % 2 ^ k
        let half := 2 ^ (k - 1)
        if half < r ∨ (r = half ∧ (sticky ∨ q % 2 = 1)) then q + 1 else q
    let (q, lsb) := if q = 2 ^ f.p then (2 ^ (f.p - 1), lsb + 1) else (q, lsb)
    if q < 2 ^ (f.p - 1) then sgn f neg + q
    else
      let x := (lsb - f.emin).toNat + 1
      if 2 ^ f.w - 1 ≤ x then sgn f neg + f.infBits
      else sgn f neg + x * 2 ^ (f.p - 1) + (q - 2 ^ (f.p - 1))

/-- A NaN with its quiet bit set. -/
def quiet (f : Fmt) (n : Nat) : Nat := n ||| 2 ^ (f.p - 2)

/-- The first NaN among the operands, quieted, or else the operation's own result (R94). -/
def orNan (f : Fmt) (ops : List Nat) (r : Nat) : Nat :=
  match ops.find? (isNan f) with
  | some n => quiet f n
  | none => r

/-- A signed integer magnitude times 2^`e` rounded; an exact zero takes the sign given. -/
def packInt (f : Fmt) (zeroNeg : Bool) (i : Int) (e : Int) : Nat :=
  if i = 0 then sgn f zeroNeg else pack f (decide (i < 0)) i.natAbs e false

/-- The sum of two finite numbers with one rounding; a zero sum of unlike signs is +0. -/
def addFin (f : Fmt) (na : Bool) (ma : Nat) (ea : Int) (nb : Bool) (mb : Nat) (eb : Int) : Nat :=
  let e := min ea eb
  let s (n : Bool) (m : Nat) (x : Int) : Int := (if n then -1 else 1) * ((m * 2 ^ (x - e).toNat : Nat) : Int)
  packInt f (na && nb) (s na ma ea + s nb mb eb) e

def neg (f : Fmt) (n : Nat) : Nat := if negOf f n then n - 2 ^ f.top else n + 2 ^ f.top
def abs (f : Fmt) (n : Nat) : Nat := if negOf f n then n - 2 ^ f.top else n

/-- a + b. -/
def add (f : Fmt) (a b : Nat) : Nat :=
  orNan f [a, b] <|
    match dat f a, dat f b with
    | .inf x, .inf y => if x = y then a else f.nan
    | .inf _, _ => a
    | _, .inf _ => b
    | .fin na ma ea, .fin nb mb eb => addFin f na ma ea nb mb eb
    | _, _ => f.nan

/-- a − b. A NaN in b keeps its own sign. -/
def sub (f : Fmt) (a b : Nat) : Nat := if isNan f b then orNan f [a, b] 0 else add f a (neg f b)

/-- a × b. -/
def mul (f : Fmt) (a b : Nat) : Nat :=
  orNan f [a, b] <|
    match dat f a, dat f b with
    | .inf x, .inf y => sgn f (x != y) + f.infBits
    | .inf x, .fin y m _ => if m = 0 then f.nan else sgn f (x != y) + f.infBits
    | .fin x m _, .inf y => if m = 0 then f.nan else sgn f (x != y) + f.infBits
    | .fin na ma ea, .fin nb mb eb => pack f (na != nb) (ma * mb) (ea + eb) false
    | _, _ => f.nan

/-- a × b + c with one rounding. -/
def fma (f : Fmt) (a b c : Nat) : Nat :=
  orNan f [a, b, c] <|
    let infs (s : Bool) : Nat := match dat f c with
      | .inf z => if z = s then c else f.nan
      | _ => sgn f s + f.infBits
    match dat f a, dat f b with
    | .inf x, .inf y => infs (x != y)
    | .inf x, .fin y m _ => if m = 0 then f.nan else infs (x != y)
    | .fin x m _, .inf y => if m = 0 then f.nan else infs (x != y)
    | .fin na ma ea, .fin nb mb eb =>
      match dat f c with
      | .inf _ => c
      | .fin nc mc ec => addFin f (na != nb) (ma * mb) (ea + eb) nc mc ec
      | .nan => f.nan
    | _, _ => f.nan

/-- a ÷ b. -/
def div (f : Fmt) (a b : Nat) : Nat :=
  orNan f [a, b] <|
    match dat f a, dat f b with
    | .inf _, .inf _ => f.nan
    | .inf x, .fin y _ _ => sgn f (x != y) + f.infBits
    | .fin x _ _, .inf y => sgn f (x != y)
    | .fin na ma ea, .fin nb mb eb =>
      if mb = 0 then (if ma = 0 then f.nan else sgn f (na != nb) + f.infBits)
      else
        let k := 2 * f.p + 2
        let n := ma * 2 ^ k
        pack f (na != nb) (n / mb) (ea - eb - k) (n % mb != 0)
    | _, _ => f.nan

/-- The integer square root, found bit by bit from bit `k` − 1 down. -/
def isqrt (n : Nat) : Nat → Nat → Nat
  | 0, r => r
  | k + 1, r =>
    let t := r + 2 ^ k
    isqrt n k (if t * t ≤ n then t else r)

/-- The square root. −0 gives −0. -/
def sqrt (f : Fmt) (a : Nat) : Nat :=
  orNan f [a] <|
    match dat f a with
    | .inf x => if x then f.nan else a
    | .fin n m e =>
      if m = 0 then a
      else if n then f.nan
      else
        let k := 2 * f.p + 4
        let (m, e) := if e % 2 = 0 then (m, e) else (2 * m, e - 1)
        let s := m * 2 ^ (2 * k)
        let r := isqrt s (2 * f.p + k) 0
        pack f false r (e / 2 - k) (r * r != s)
    | .nan => f.nan

/-- a < b for two data that are no NaN, on a common scale. -/
def ltDat : Dat → Dat → Bool
  | .inf x, .inf y => x && !y
  | .inf x, _ => x
  | _, .inf y => !y
  | .fin na ma ea, .fin nb mb eb =>
    let e := min ea eb
    let s (n : Bool) (m : Nat) (x : Int) : Int := (if n then -1 else 1) * ((m * 2 ^ (x - e).toNat : Nat) : Int)
    s na ma ea < s nb mb eb
  | _, _ => false

/-- a < b under IEEE 754. -/
def lt (f : Fmt) (a b : Nat) : Bool := !isNan f a && !isNan f b && ltDat (dat f a) (dat f b)

/-- a = b under IEEE 754. -/
def eq (f : Fmt) (a b : Nat) : Bool :=
  !isNan f a && !isNan f b && !ltDat (dat f a) (dat f b) && !ltDat (dat f b) (dat f a)

def isZero (f : Fmt) (n : Nat) : Bool := abs f n == 0

/-- The lesser; −0 is less than +0; equal operands give the first (R95). -/
def fmin (f : Fmt) (a b : Nat) : Nat :=
  orNan f [a, b] (if isZero f a && isZero f b then (if negOf f a then a else b)
    else if lt f b a then b else a)

/-- The greater; +0 is greater than −0; equal operands give the first (R95). -/
def fmax (f : Fmt) (a b : Nat) : Nat :=
  orNan f [a, b] (if isZero f a && isZero f b then (if negOf f a then b else a)
    else if lt f a b then b else a)

/-- An integer times 2^`e`, rounded. -/
def ofInt (f : Fmt) (i e : Int) : Nat := packInt f false i e

/-- Truncated toward zero and limited to 64 bits; a NaN gives 0 (CVTFI, R102). -/
def toI64 (a : Nat) : Int :=
  let lim (i : Int) : Int := max (-(2 ^ 63 : Nat)) (min i ((2 ^ 63 : Nat) - 1))
  match dat b64 a with
  | .nan => 0
  | .inf n => lim (if n then -(2 ^ 64 : Nat) else (2 ^ 64 : Nat))
  | .fin n m e =>
    let v : Nat := if 0 ≤ e then m * 2 ^ (min e.toNat 64) else m / 2 ^ (-e).toNat
    lim (if n then -(v : Int) else v)

/-- Binary64 rounded to binary32; a NaN as CVTDS places it (R102). -/
def narrow (a : Nat) : Nat :=
  match dat b64 a with
  | .nan => sgn b32 (negOf b64 a) + b32.infBits + (bits a 29 23 ||| 2 ^ 22)
  | .inf n => sgn b32 n + b32.infBits
  | .fin n m e => pack b32 n m e false

/-- Binary32 widened exactly; a NaN as CVTSD places it, its quiet bit set when `q` (R87, R102). -/
def widen (q : Bool) (a : Nat) : Nat :=
  match dat b32 a with
  | .nan =>
    let r := sgn b64 (negOf b32 a) + b64.infBits + bits a 0 23 * 2 ^ 29
    if q then r ||| 2 ^ 51 else r
  | .inf n => sgn b64 n + b64.infBits
  | .fin n m e => pack b64 n m e false

/-- A binary32 value × 2^23 rounded to nearest even and limited to 24 signed bits, and whether it was above +1, below
−1 or a NaN (R203). -/
def toCode (a : Nat) : Int × Bool :=
  match dat b32 a with
  | .nan => (0, true)
  | .inf n => (if n then -(2 ^ 23 : Nat) else (2 ^ 23 : Nat) - 1, true)
  | .fin n m e =>
    let x := e + 23
    let v : Nat :=
      if 0 ≤ x then m * 2 ^ (min x.toNat 64)
      else
        let k := (-x).toNat
        let q := m / 2 ^ k
        let r := m % 2 ^ k
        if 2 ^ (k - 1) < r ∨ (r = 2 ^ (k - 1) ∧ q % 2 = 1) then q + 1 else q
    let big := if 0 ≤ x then decide (2 ^ 23 < m * 2 ^ (min x.toNat 64)) else decide (2 ^ 23 * 2 ^ (-x).toNat < m)
    let i : Int := if n then -(v : Int) else v
    (max (-(2 ^ 23 : Nat)) (min i ((2 ^ 23 : Nat) - 1)), big)

end Sys2Proof.Machine.Fp
end

