-- ==== Sys2Proof/Machine/Match.lean ====
section
/-! DEFINITION. The read stage of a PE: the choice of a token, its checks, the matching store with its overflow
filter, eviction, refill and the ready list (R46, R51 to R55, R57, R100, R115 to R124, R129). -/

namespace Sys2Proof.Machine

open Sys2Proof

/-- The set index of a key (R121). -/
def setIndex (kind : EKind) (ctx iter ia : Nat) : Nat :=
  let it := match kind with
    | .const | .counter => 0xFFF
    | _ => iter
  let b := (it * 32 ||| it / 128) % 4096
  let c := (ctx % 4096) ^^^ (ctx / 4096 * 64)
  let x := ia ^^^ b ^^^ c
  (x % 1024) ^^^ (x / 1024 * 8)

def Entry.set (e : Entry) : Nat := setIndex e.kind e.ctx e.iter e.ia

/-- A matching entry of key (kind, CTX, ITER, IA); ITER counts for operand entries only (R122). -/
def Entry.hasKey (e : Entry) (kind : EKind) (ctx iter ia : Nat) : Bool :=
  e.kind == kind && e.ctx == ctx && e.ia == ia && (kind != .operand || e.iter == iter)

/-- The record kept for a key in the eviction buffer. -/
def evictFind (p : Pe) (kind : EKind) (ctx iter ia : Nat) : Option Entry :=
  p.evict.findSome? fun x => match x.r with
    | .entry e => if e.hasKey kind ctx iter ia then some e else none
    | .held _ => none

/-- The overflow filter of a set (R127). -/
def filterOf (p : Pe) (set : Nat) : Nat := mget 0 p.filter set

def filterAdd (k set : Nat) (s : State) : State :=
  s.updPe k fun p => { p with filter := mset 0 p.filter set (min (filterOf p set + 1) 255) }

/-- A count of one record less; a filter at 255 waits for a count to re-synchronise it (R127). -/
def filterSub (k set : Nat) (s : State) : State :=
  s.updPe k fun p => { p with filter := mset 0 p.filter set (if filterOf p set = 255 then 255 else filterOf p set - 1) }

/-- The highest resident count since the last read (CLn_PEOCC). -/
def occHwm (k : Nat) (s : State) : State :=
  let f := F.clPeoccHwm (k / 17) (k % 17)
  put s f (max (rd s f) (s.pe k).store.length)

/-- A token in the overflow hold, or parked for its constant, whose partner or constant leaves the set must look it up again. -/
def forgetDone (v : Entry) (p : Pe) : Pe :=
  let partner (t : Tag) : Bool := v.hasKey .operand t.ctx t.iter t.ia
  let const (t : Tag) : Bool := v.hasKey .const t.ctx 0 t.ia || v.hasKey .counter t.ctx 0 t.ia
  { p with
    holdTok := p.holdTok.map fun h =>
      { h with entryDone := h.entryDone && !partner h.tok.tag, constDone := h.constDone && !const h.tok.tag },
    refill := p.refill.map fun q => match q.why with
      | .const set d => { q with why := .const set (d && !partner q.tok.tag) }
      | _ => q }

/-- An entry of a full set moves to the eviction buffer (R123). -/
def evictEntry (k : Nat) (v : Entry) (s : State) : State :=
  bumpCtr k 0 <| count k v.ctx (-1) 1 <| filterAdd k v.set <| toEvict k (.entry v) <|
    s.updPe k fun p => forgetDone v { p with store := p.store.filter (·.stamp != v.stamp) }

/-- The entry with the oldest insertion stamp. -/
def oldest : List Entry → Option Entry
  | [] => none
  | e :: es => match oldest es with
    | none => some e
    | some f => if f.stamp < e.stamp then some f else some e

/-- A slot whose unit is uncorrectable takes type POISON; its content is left open and its flag is clear (R42, R124). -/
def poisonSlot (v : Option Val) (s : State) : Option Val × State :=
  match v with
  | none => (none, s)
  | some _ => match s.takeFree with
    | (w, s') => (some ⟨w, tyPoison, false⟩, s')

/-- What error checking of a matching entry's halves does when it is read (R124): an entry with an uncorrectable half 0 is
discarded, and an uncorrectable half 1 poisons its R and T. -/
def readEntry (k : Nat) (e : Entry) (h0 h1 : Ecc) (s : State) : Option Entry × State :=
  let bad : FEv := { FEv.plain (17 + k / 17) 3 (k % 17) with tgt := some ⟨3, 0, k / 17 * 32 + k % 17, 0⟩ }
  let row : FEv := { FEv.plain (17 + k / 17) 2 (k % 17) with tgt := some ⟨1, 1, k / 17 * 32 + k % 17, (e.set * 4) / 8⟩ }
  match h0, h1 with
  | .uncorrectable, _ =>
    (none, count k e.ctx (-1) 0 <| fault bad <|
      s.updPe k fun p => { p with store := p.store.filter (·.stamp != e.stamp) })
  | _, .uncorrectable =>
    match poisonSlot e.r s with
    | (r, s1) => match poisonSlot e.t s1 with
      | (t, s2) =>
        let e' := { e with r := r, t := t }
        (some e', fault bad <|
          s2.updPe k fun p => { p with store := p.store.map fun x => if x.stamp = e.stamp then e' else x })
  | .ok, .ok => (some e, s)
  | _, _ => (some e, fault row s)

/-- An entry put into its set, evicting the oldest entry of a full set that is not excluded, when it `may` evict; the cause of
R129 when no level takes the victim, or none when there is none to evict. The victim is read: one whose key is unknown is
discarded, and its way is free (R123, R124). -/
def insertEntry (k : Nat) (e : Entry) (excl : List Nat) (may : Bool) (r : Reads) (s : State) : Except (Option Nat) State :=
  let p := s.pe k
  let ways := p.store.filter (fun x => x.set == e.set)
  let add (s : State) : State :=
    occHwm k <| count k e.ctx 1 0 <|
      s.updPe k fun p => { p with store := p.store ++ [{ e with stamp := p.stamp }], stamp := p.stamp + 1 }
  if ways.length < 4 then .ok (add s)
  else
    match oldest (ways.filter fun x => !excl.contains x.stamp) with
    | none => .error none
    | some v =>
      if !may || 8 ≤ p.evict.length then .error none
      else
        match spillRefusal s (k / 17) v.ctx with
        | some c => .error (some c)
        | none =>
          match readEntry k v r.victim0 r.victim1 s with
          | (some v', s1) => .ok (add (evictEntry k v' s1))
          | (none, s1) => .ok (add s1)

/-- How the look at a token goes: what error checking found, and which lookups need no repetition. -/
structure Look where
  r : Reads
  entryDone : Bool
  constDone : Bool
  deriving DecidableEq, Repr

/-- A token that found no room waits in the overflow hold, and NSFULL or FSFULL is raised against its context
(R129). -/
def overflow (k : Nat) (t : Tok) (o : Look) (set : Nat) (c : Option Nat) (s : State) : State :=
  let s1 := s.updPe k fun p => { p with holdTok := some ⟨t, o.entryDone, o.constDone⟩ }
  match c with
  | some c => tokFault k t c (spillDetail (t.tag.pe % 16) set) s1
  | none => s1

/-- A token parks in the pending-refill table of 16 tokens, behind a lookup of its own or one already under way (R122). A token
of the overflow hold that is tried again while the table is full stays there. -/
def park (k : Nat) (t : Tok) (o : Look) (why : ParkWhy) (behind : Bool) (s : State) : State :=
  if 16 ≤ (s.pe k).refill.length then s.updPe k fun p => { p with holdTok := some ⟨t, o.entryDone, o.constDone⟩ }
  else s.updPe k fun p => { p with refill := p.refill ++ [⟨t, why, behind⟩] }

/-- A token's key is being looked up. -/
def keyPending (p : Pe) (t : Tag) : Bool :=
  p.refill.any fun q => q.tok.tag.ctx == t.ctx && q.tok.tag.ia == t.ia && q.tok.tag.iter == t.iter && (match q.why with
    | .entry _ => true
    | _ => false)

/-- The constant or counter of (CTX, IA) is being looked up. -/
def constPending (p : Pe) (ctx ia : Nat) : Bool :=
  p.refill.any fun q => q.tok.tag.ctx == ctx && q.tok.tag.ia == ia && (match q.why with
    | .const _ _ => true
    | _ => false)

/-- An entry record taken out of the eviction buffer (R122, R133). -/
def takeBack (k : Nat) (e : Entry) (s : State) : State :=
  filterSub k e.set <| count k e.ctx 0 (-1) <|
    s.updPe k fun p => { p with evict := p.evict.filter fun x => x.r != .entry e }

/-- The word of a PE's instruction store (R114). -/
def word (s : State) (k ia : Nat) : Nat := mget 0 (s.pe k).imem ia

/-- Ready entries of a PE in the order in which they became ready. -/
def readyList (p : Pe) : List Entry := (p.store.filter (·.kind == .ready)).mergeSort (fun a b => a.order ≤ b.order)

/-- The destinations of a word that are present, in order (R92). -/
def Insn.dests (w : Insn) : List Dst := ([w.d1, w.d2] ++ w.d3.toList).filter (·.en)

/-- The output side has room for the results of the first two cycles, and no earlier result waits (R119). -/
def canIssue (p : Pe) (w : Insn) : Bool :=
  p.loopWait.isEmpty && p.outWait.isEmpty && p.outq.length + w.dests.length ≤ 32

/-- A complete set goes to a free pipe when it can issue, or becomes a ready entry that occupies a way of its set (R118).
`home` is the stamp of the entry the set completes, `excl` that of a constant read for it (R123), `spent` says that the token has
caused its eviction, and `back` is the state in which the token waits when the set finds no room. -/
def completeFrom (k : Nat) (t : Tok) (o : Look) (f : Firing) (home : Option Nat) (excl : List Nat) (spent : Bool)
    (back s : State) : State :=
  let p := s.pe k
  let cl := k / 17
  let gone (s : State) : State := match home with
    | some st => count k f.ctx (-1) 0 (s.updPe k fun p => { p with store := p.store.filter (·.stamp != st) })
    | none => s
  if p.pipe.isNone && !p.store.any (·.kind == .ready) && firesAt s cl f.ctx && !(s.cl cl).halted
      && canIssue p (Insn.decode (word s k f.ia)) then
    (gone s).updPe k fun p => { p with pipe := some f }
  else
    let e : Entry := ⟨.ready, f.pri, f.ctx, f.iter, f.ia, f.l, f.r, f.t, 0, p.stamp⟩
    match insertEntry k e excl (!spent) o.r (gone s) with
    | .ok s' => s'
    | .error c => overflow k t o e.set c back

/-- A complete set that read no constant. -/
def complete (k : Nat) (t : Tok) (o : Look) (f : Firing) (home : Option Nat) (s : State) : State :=
  completeFrom k t o f home [] false s s

/-- The firing that a token makes by itself. -/
def soloFiring (t : Tok) : Firing :=
  let v := some t.val
  { ctx := t.tag.ctx, iter := t.tag.iter, ia := t.tag.ia, pri := t.tag.pri, port := t.tag.port,
    l := if t.tag.port = 0 ∨ t.tag.port = 3 then v else none, r := if t.tag.port = 1 then v else none,
    t := if t.tag.port = 2 then v else none }

/-- The value of the constant or counter of (CTX, IA) at a PE (R53, R100): resident, or reclaimed from the eviction buffer with
an eviction or without; to be looked up, or looked up already. -/
inductive Fetch where
  | found (v : Val) (spent : Bool) (s : State)
  | absent (s : State)
  | lookup (set : Nat) (pending : Bool)
  | noRoom (set : Nat) (c : Option Nat)

/-- The constant or counter entry of (CTX, IA) fetched under the rules of R122, when the entries of `excl` are no victims (R123,
R124). -/
def fetch (k : Nat) (kind : EKind) (ctx ia : Nat) (o : Look) (excl : List Nat) (s : State) : Fetch :=
  let p := s.pe k
  let set := setIndex kind ctx 0 ia
  match p.store.find? (·.hasKey kind ctx 0 ia) with
  | some e => match readEntry k e o.r.const0 o.r.const1 s with
    | (some x, s') => .found (x.l.getD Val.zero) false s'
    | (none, s') => .absent s'
  | none =>
    match evictFind p kind ctx 0 ia with
    | some e =>
      let full := 4 ≤ (p.store.filter fun x => x.set == set).length
      match insertEntry k e excl true o.r (takeBack k e s) with
      | .ok s' => .found (e.l.getD Val.zero) full s'
      | .error c => .noRoom set c
    | none =>
      if o.constDone then .absent s
      else if constPending p ctx ia then .lookup set true
      else if filterOf p set != 0 then .lookup set false
      else .absent s

/-- A constant or counter entry written: replaced in place, a constant with a new stamp, or inserted (R53, R120). -/
def writeConst (k : Nat) (kind : EKind) (ctx ia : Nat) (v : Val) (r : Reads) (s : State) : Except (Option Nat) State :=
  let p := s.pe k
  match p.store.find? (·.hasKey kind ctx 0 ia) with
  | some e => .ok (s.setPe k { p with
      store := p.store.map fun x =>
        if x.stamp = e.stamp then { x with l := some v, stamp := if kind = .const then p.stamp else x.stamp } else x,
      stamp := p.stamp + 1 })
  | none => insertEntry k ⟨kind, 0, ctx, 0, ia, some v, none, none, 0, 0⟩ [] true r s

/-- A C-port token: the constant of (CTX, IA) replaced or created, whatever level holds it (R53, R122). -/
def matchConst (k : Nat) (t : Tok) (o : Look) (s : State) : State :=
  let set := setIndex .const t.tag.ctx 0 t.tag.ia
  let wr (s : State) : State := match writeConst k .const t.tag.ctx t.tag.ia t.val o.r s with
    | .ok s' => s'
    | .error c => overflow k t { o with constDone := true } set c s
  match fetch k .const t.tag.ctx t.tag.ia o [] s with
  | .found _ _ s' => wr s'
  | .absent s' => wr s'
  | .lookup set behind => park k t o (.const set o.entryDone) behind s
  | .noRoom set c => overflow k t o set c s

/-- A token of a merge-form instruction fires it by itself; NDMERGE takes the number of its sequence counter, which
then advances (R100). -/
def matchMerge (k : Nat) (t : Tok) (w : Insn) (o : Look) (s : State) : State :=
  if w.opcode = 0x114 then
    let go (n : Nat) (spent : Bool) (o : Look) (s : State) : State :=
      let full := 4 ≤ ((s.pe k).store.filter fun x => x.set == setIndex .counter t.tag.ctx 0 t.tag.ia).length
      let inserts := !(s.pe k).store.any (·.hasKey .counter t.tag.ctx 0 t.tag.ia)
      match writeConst k .counter t.tag.ctx t.tag.ia ⟨BitVec.ofNat 64 ((n + 1) % 4096), 0, false⟩ o.r s with
      | .ok s' =>
        completeFrom k t o { soloFiring t with t := some ⟨BitVec.ofNat 64 n, 0, false⟩ } none [] (spent || (inserts && full)) s s'
      | .error c => overflow k t o (setIndex .counter t.tag.ctx 0 t.tag.ia) c s
    match fetch k .counter t.tag.ctx t.tag.ia o [] s with
    | .found v spent s' => go v.v.toNat spent { o with constDone := false } s'
    | .absent s' => go 0 false { o with constDone := true } s'
    | .lookup set behind => park k t o (.const set o.entryDone) behind s
    | .noRoom set c => overflow k t o set c s
  else complete k t o (soloFiring t) none s

/-- The slots of a set with a token's value added; none when its port is occupied (R52). -/
def addSlot (f : Firing) (t : Tok) : Option Firing :=
  let g := { f with pri := max f.pri t.tag.pri, port := t.tag.port }
  match t.tag.port, f.l, f.r, f.t with
  | 0, none, _, _ => some { g with l := some t.val }
  | 1, _, none, _ => some { g with r := some t.val }
  | 2, _, _, none => some { g with t := some t.val }
  | _, _, _, _ => none

/-- The slots filled are those of the first `n` positions. -/
def Firing.full (f : Firing) (n : Nat) : Bool :=
  (n == 0 || f.l.isSome) && (n < 2 || f.r.isSome) && (n < 3 || f.t.isSome)

/-- A complete set with its constant in the last operand position, when the word takes one (R51, R53). -/
def withConst (w : Insn) (f : Firing) (v : Option Val) : Firing :=
  match (opInfo w.opcode).map (·.pos.length) with
  | some 2 => { f with r := v }
  | some 3 => { f with t := v }
  | _ => f

/-- A token whose set is complete, with the constant fetched first (R122). -/
def completeSet (k : Nat) (t : Tok) (w : Insn) (f : Firing) (home : Option Nat) (o : Look) (back s : State) : State :=
  if w.src = 2 then
    match fetch k .const t.tag.ctx t.tag.ia o home.toList s with
    | .found v spent s' =>
      let read := ((s'.pe k).store.filter (·.hasKey .const t.tag.ctx 0 t.tag.ia)).map (·.stamp)
      completeFrom k t { o with constDone := false } (withConst w f (some v)) home read spent
        (if spent then (match fetch k .const t.tag.ctx t.tag.ia o home.toList back with | .found _ _ b => b | _ => back) else back) s'
    | .absent s' => completeFrom k t { o with constDone := true } (withConst w f none) home [] false back s'
    | .lookup set behind => park k t o (.const set o.entryDone) behind back
    | .noRoom set c => overflow k t o set c back
  else completeFrom k t o f home [] false back s

/-- A token merged into the entry found for its key, resident (`home`) or taken back from the eviction buffer, or starting a
new one (R51, R52, R122). `back` is the state in which it waits when it finds no room. -/
def mergeTok (k : Nat) (t : Tok) (w : Insn) (o : Look) (found : Option Entry) (home : Option Nat) (back s : State) : State :=
  let set := setIndex .operand t.tag.ctx t.tag.iter t.tag.ia
  match found with
  | some e =>
    let f : Firing := ⟨e.ctx, e.iter, e.ia, e.pri, t.tag.port, e.l, e.r, e.t⟩
    match addSlot f t with
    | none => tokFault k t 0x03 0 back
    | some f' =>
      if f'.full w.tokens then completeSet k t w f' home o back s
      else
        let e' := { e with pri := f'.pri, l := f'.l, r := f'.r, t := f'.t }
        match home with
        | some st => s.updPe k fun p => { p with store := p.store.map fun x => if x.stamp = st then e' else x }
        | none =>
          match insertEntry k e' [] true o.r s with
          | .ok s' => s'
          | .error c => overflow k t o set c back
  | none =>
    let f := soloFiring t
    let o := { o with entryDone := true }
    if f.full w.tokens then completeSet k t w f none o back s
    else
      match insertEntry k ⟨.operand, t.tag.pri, t.tag.ctx, t.tag.iter, t.tag.ia, f.l, f.r, f.t, 0, 0⟩ [] true o.r s with
      | .ok s' => s'
      | .error c => overflow k t o set c back

/-- An operand token through lookup: resident, reclaimed, parked behind a lookup, or absent (R122). -/
def lookupTok (k : Nat) (t : Tok) (w : Insn) (o : Look) (s : State) : State :=
  let p := s.pe k
  let set := setIndex .operand t.tag.ctx t.tag.iter t.tag.ia
  if keyPending p t.tag && !o.entryDone && !o.constDone then park k t o (.entry set) true s
  else
    match p.store.find? (·.hasKey .operand t.tag.ctx t.tag.iter t.tag.ia) with
    | some e => match readEntry k e o.r.half0 o.r.half1 s with
      | (some x, s') => mergeTok k t w { o with entryDone := false } (some x) (some e.stamp) s' s'
      | (none, s') => mergeTok k t w o none none s' s'
    | none =>
      match evictFind p .operand t.tag.ctx t.tag.iter t.tag.ia with
      | some e => mergeTok k t w { o with entryDone := false } (some e) none s (takeBack k e s)
      | none =>
        if filterOf p set != 0 && !o.entryDone && w.tokens != 1 then park k t o (.entry set) false s
        else
          let s1 := if filterOf p set = 0 then bumpCtr k 3 s else s
          mergeTok k t w o none none s1 s1

/-- A token through matching (R51, R57, R115, R122). A word that breaks R88 makes the token a firing of its own, which
raises BADINSN when it fires; so does an uncorrectable word, whose fault is raised at once. -/
def matchTok (k : Nat) (t : Tok) (o : Look) (s : State) : State :=
  let n := word s k t.tag.ia
  let w := Insn.decode n
  let row : Retire := ⟨1, 0, k / 17 * 32 + k % 17, t.tag.ia / 16⟩
  match o.r.word with
  | .uncorrectable =>
    tokFault k t 0x05 (n % 1024) <|
      fault { FEv.plain (17 + k / 17) 1 (k % 17) with tgt := some ⟨3, 0, k / 17 * 32 + k % 17, 0⟩ } s
  | e =>
    let s := if e = .corrected then fault { FEv.plain (17 + k / 17) 0 (k % 17) with tgt := some row } s else s
    if !w.ok then complete k t o (soloFiring t) none s
    else if t.tag.port = 3 then
      (if w.src = 2 then matchConst k t o s else tokFault k t 0x02 3 s)
    else if w.tokens ≤ t.tag.port then tokFault k t 0x02 t.tag.port s
    else if w.mergeForm then matchMerge k t w o s
    else lookupTok k t w o s

/-! ### The template's placement -/

/-- The placed words of a context on a logical destination: an address inside the placed range that is not an
extension word (R55, R101). -/
def executable (s : State) (ctx d ia : Nat) : Bool :=
  match s.templates.find? (·.handle == (s.ctx ctx).d.tmpl) with
  | none => false
  | some t =>
    match s.images.find? (·.id == t.image) with
    | none => false
    | some im => im.places.any fun pl =>
        pl.pe == d && pl.first ≤ ia && ia < pl.first + pl.words.length && !(pl.ext.getD (ia - pl.first) false)

/-- A token of a context that may match: checked against the placed range and taken through matching (R55). -/
def liveTok (k : Nat) (t : Tok) (o : Look) (s : State) : State :=
  if executable s t.tag.ctx t.tag.pe t.tag.ia then matchTok k t o s else tokFault k t 0x01 0 s

/-- The tokens of the constant loads of a context that one read acknowledges to the slice: the load itself, which may have lost its
value on the way (R50). A C-port token of another sender acknowledges none. -/
def acksLoad (t l : Tok) : Bool := l.tag == t.tag && (l.val == t.val || t.val.ty == tyPoison)

/-- A token taken by the read stage, by the state of its context (R40, R46, R77, R142). -/
def takeTok (k : Nat) (t : Tok) (o : Look) (s : State) : State :=
  let cl := k / 17
  let x := s.ctx t.tag.ctx
  match x.state with
  | .free => stray cl t.tag s
  | .creating =>
    if t.tag.phg then tokFault k t 0x13 0 s
    else if t.tag.port = 3 then
      -- a constant load, acknowledged to the slice once it has been taken (R50)
      let s1 := liveTok k t o s
      let p := s1.pe k
      if (match p.holdTok with | some h => h.tok == t | none => false) || p.refill.any (·.tok == t) then s1
      else s1.updCtx t.tag.ctx fun x => match x.loads.find? (acksLoad t) with
        | some l => { x with loads := x.loads.erase l }
        | none => x
    else stray cl t.tag s
  | .returning =>
    if censusAt x cl then countCensus t.tag.ctx (fun c => { c with arrived := c.arrived + 1 }) s
    else if t.tag.phg then tokFault k t 0x13 0 s
    else liveTok k t o s
  | _ => if t.tag.phg then tokFault k t 0x13 0 s else liveTok k t o s

/-! ### The input queue -/

/-- The first token of the highest priority among those below a bound. -/
def pickBelow (q : List Tok) (bound : Nat) : Option Tok :=
  let c := q.filter (·.tag.pri < bound)
  let m := c.foldl (fun m t => max m t.tag.pri) 0
  c.find? (·.tag.pri == m)

/-- The token the read stage takes: highest PRI first, in order of arrival within one; after 2^AGEEXP reads that passed
over a waiting lower priority, the oldest of the highest waiting lower priority once (R116, R119). -/
def pickTok (s : State) (k : Nat) : Option (Tok × Nat) :=
  let p := s.pe k
  match pickBelow p.inq 8 with
  | none => none
  | some t =>
    let age := rd s (F.clQcfgAgeexp (k / 17))
    match pickBelow p.inq t.tag.pri with
    | none => some (t, 0)
    | some u => if age != 0 && 2 ^ age ≤ p.passed then some (u, 0) else some (t, p.passed + 1)

/-- The list without the first occurrence of an element. -/
def eraseFirst {α : Type} [DecidableEq α] (a : α) : List α → List α
  | [] => []
  | b :: l => if a = b then l else b :: eraseFirst a l

/-- The read stage of a PE waits (R117). -/
def readWaits (p : Pe) : Bool :=
  16 ≤ p.refill.length || 8 ≤ p.evict.length || p.hold.isSome || p.holdTok.isSome

/-- A cluster works: its domain is in RUN, and no device halt has stopped it (R387, R405). -/
def clRuns (s : State) (cl : Nat) : Bool :=
  cl < 16 && !s.deviceHalted && rd s (F.pwrDomstatState cl) == 0 && !relocking s cl && s.up 5

/-- A PE has a token, a victim, a parked token or a held one waiting (R141). -/
def peWaiting (p : Pe) : Bool :=
  !p.inq.isEmpty || !p.evict.isEmpty || !p.refill.isEmpty || p.hold.isSome || p.holdTok.isSome

/-- The cluster waits and is full (R141). -/
def waitsFull (s : State) (cl : Nat) : Bool :=
  let ps := (List.range 17).map fun i => s.pe (cl * 17 + i)
  ps.any peWaiting && ps.any fun p => readWaits p || 3840 ≤ p.store.length

/-- The stall census of a cluster that no longer waits and is full is back at watch (R141). -/
def stallWatch (cl : Nat) (s : State) : State :=
  if rd s (F.clStallstatState cl) = 0 ∨ (rdB s (F.clStallcfgEn cl) && waitsFull s cl) = true then s
  else put s (F.clStallstatState cl) 0

/-- The effect of TOKEN_READ. -/
def tokenReadEff (r : ReadOp) (s : State) : State :=
  let k := r.cl * 17 + r.pe
  let p := s.pe k
  if clRuns s r.cl && decide (r.pe < 17) && !p.stopped && !readWaits p && mget .steady s.doms r.cl != .refilling then
    match pickTok s k with
    | none => s
    | some (t, passed) =>
      let s1 := s.setPe k { p with inq := eraseFirst t p.inq, passed := passed }
      match r.tok with
      | .uncorrectable =>
        stallWatch r.cl (clFlow r.cl (fault { FEv.plain (17 + r.cl) 4 r.pe with tgt := some ⟨3, 0, r.cl * 32 + r.pe, 0⟩ } s1))
      | _ => stallWatch r.cl (clFlow r.cl (takeTok k t ⟨r.reads, false, false⟩ s1))
  else s

/-- TOKEN_READ (R122). -/
def execTokenRead (r : ReadOp) (s : State) : Host.Outcome State Fault Refusal := act 5 s (tokenReadEff r)

/-- An answer that holds the record of a token's partner or constant waits for room: the token waits for it (R129). -/
def answerHeld (p : Pe) (t : Tag) : Bool :=
  p.spAns.any fun a => a.look && (match a.found with
    | some (.entry e) => e.ctx == t.ctx && e.ia == t.ia && (a.isConst || e.iter == t.iter)
    | _ => false)

/-- The overflow hold tried again (R129): the token is taken through matching once more, its lookups not repeated, or the held
token through the throttle; without room nothing changes. -/
def overflowRetryEff (cl pe : Nat) (r : Reads) (s : State) : State :=
  let k := cl * 17 + pe
  let p := s.pe k
  if clRuns s cl && decide (pe < 17) && !p.stopped then
    match p.holdTok, p.hold with
    | some h, _ =>
      if answerHeld p h.tok.tag then s
      else
        let s1 := takeTok k h.tok ⟨r, h.entryDone, h.constDone⟩ (s.setPe k { p with holdTok := none })
        if (s1.pe k).holdTok.isSome then s else stallWatch cl (pumpLoops k s1)
    | none, some (.held h) =>
      match placeHeld k h (s.setPe k { p with hold := none }) with
      | some s1 => stallWatch cl (pumpLoops k s1)
      | none => s
    | _, _ => s
  else s

/-- OVERFLOW_RETRY (R129). -/
def execOverflowRetry (cl : Nat) (x : PeReads) (s : State) : Host.Outcome State Fault Refusal :=
  act 5 s (overflowRetryEff cl x.pe x.reads)

/-! ### The output queue (R116, R119, R221) -/

/-- The stop of a token's destination on its cluster's rings: its PE's, or the cluster station's. -/
def stopOf (s : State) (k : Nat) (t : Tok) : Nat :=
  if t.tag.dev = devnum s ∧ t.tag.pe / 16 = k / 17 then peKey s t.tag.pe % 17 else 17

/-- The path of a token from stop `p`: 0 the local bypass, 1 the CW ring, 2 the CCW ring (R119, R221). -/
def pathOf (s : State) (k : Nat) (t : Tok) : Nat :=
  if stopOf s k t = k % 17 then 0 else if goesCw (k % 17) (stopOf s k t) then 1 else 2

/-- What carries a token on the cluster rings: a short unit within the cluster, or else a packet for its cluster station, which
sends it on to the cluster or the span complex that its tag names (R227). -/
def ringBody (s : State) (k : Nat) (t : Tok) : CBody :=
  if stopOf s k t = 17 then
    .packet (tokPacket (clStation (k / 17)) (if t.tag.dev = devnum s then clStation (t.tag.pe / 16) else 25) (k / 17) t)
  else .short (shortUnit t)

/-- A token's path has credit now: the input queue of its own PE has room, where the retirement of a PE withholds its credits
(R116, R394), or the cluster ring takes it (R229). -/
def canLeave (s : State) (k : Nat) (t : Tok) : Bool :=
  if pathOf s k t = 0 then decide ((s.pe k).inq.length < 128) && !(s.pe k).stopped
  else mayEnter s (k / 17) (k % 17) (stopOf s k t) vnTok (if stopOf s k t = 17 then 2 else 1)

/-- One token leaves on its path. A unit whose sideband copies do not agree, by the error pattern `flip`, is uncorrectable: it is
discarded and recorded as UNCORRHDR at the cluster station (R226, R227). -/
def leave (k flip : Nat) (t : Tok) (s : State) : State :=
  let s1 := s.updPe k fun p => { p with outq := p.outq.drop 1 }
  if pathOf s k t = 0 then enterInq k t s1
  else
    let u : CUnit := ⟨ringBody s k t, goesCw (k % 17) (stopOf s k t), k % 17, stopOf s k t, false⟩
    if sidebandOk (sideband u) ((127 - sideband u) ^^^ flip) then clPut (k / 17) (k % 17) (stopOf s k t) (ringBody s k t) s1
    else fault { FEv.plain 6 0 (clStation (k / 17)) with tgt := some ⟨5, 0, clStation (k / 17), 0⟩ } s1

/-- Up to two tokens leave from the head of the output queue on different paths; results that waited for room then
join it (R119). -/
def outputSendEff (cl pe flip : Nat) (s : State) : State :=
  let k := cl * 17 + pe
  if clRuns s cl && decide (pe < 17) then
    let s1 := match (s.pe k).outq with
      | [] => s
      | t :: _ =>
        if canLeave s k t then
          let s1 := leave k flip t s
          match (s1.pe k).outq with
          | u :: _ => if pathOf s k u != pathOf s k t && canLeave s1 k u then leave k 0 u s1 else s1
          | [] => s1
        else s
    clFlow cl <| s1.updPe k fun p =>
      let room := 32 - p.outq.length
      { p with outq := p.outq ++ p.outWait.take room, outWait := p.outWait.drop room }
  else s

/-- OUTPUT_QUEUE_SEND (R119). -/
def execOutputQueueSend (cl : Nat) (x : PeSend) (s : State) : Host.Outcome State Fault Refusal :=
  act 5 s (outputSendEff cl x.pe x.flip)

end Sys2Proof.Machine
end

