-- ==== Sys2Proof/Machine/Firing.lean ====
section
/-! DEFINITION. A firing: the operand set that issues next, its operands, the checks in their order, and the sending of
its results (R80, R87, R90 to R92, R115, R118, R119). -/

namespace Sys2Proof.Machine

open Sys2Proof

/-- What a firing works with: PE key, operand set, word, context descriptor and the operands by position. -/
structure Fc where
  k : Nat
  f : Firing
  w : Insn
  d : Desc
  l : Val
  r : Val
  t : Val
  deriving DecidableEq, Repr

/-- Cluster of a firing. -/
def Fc.cl (c : Fc) : Nat := c.k / 17

/-- What a firing does: one fault, with cause, DETAIL, port and type code, or results and a further effect. -/
inductive Fx where
  | fault (cause detail port ty : Nat)
  | done (es : List Emit) (also : State → State)

/-- A value of a type, with the capability flag clear (R44). -/
def Val.of (ty n : Nat) : Val := ⟨BitVec.ofNat 64 n, ty, false⟩

/-- The same value with the capability flag clear. -/
def Val.plain (v : Val) : Val := { v with cap := false }

/-- The value as a natural number. -/
def Val.n (v : Val) : Nat := v.v.toNat

/-- A result for one destination, unchanged tag. -/
def toDst (d : Dst) (v : Val) : Emit := ⟨d.toDest, v, none, none, none, none⟩

/-- A result for every present destination (R92). -/
def toAll (c : Fc) (v : Val) : Fx := .done (c.w.dests.map (toDst · v)) id

/-- The set that issues next: the pipe's, unless the orphan census of its context has reached the PE (R142), or the ready entry of highest PRI, the oldest within one, among the first 64
that may fire (R118). A ready entry does not keep the port of the token that completed it: it is taken as the last token
position (log entry 5). -/
def nextSet (s : State) (k : Nat) : Option (Firing × Option Nat) :=
  let p := s.pe k
  match p.pipe.filter fun f => !censusAt (s.ctx f.ctx) (k / 17) with
  | some f => some (f, none)
  | none =>
    let rs := ((readyList p).filter fun e => firesAt s (k / 17) e.ctx).take 64
    let m := rs.foldl (fun m e => max m e.pri) 0
    match rs.find? (·.pri == m) with
    | some e =>
      let w := Insn.decode (word s k e.ia)
      let port := if w.mergeForm then (if e.l.isSome then 0 else 1) else w.tokens - 1
      some (⟨e.ctx, e.iter, e.ia, e.pri, port, e.l, e.r, e.t⟩, some e.stamp)
    | none => none

/-- The set as it is read for its issue: a ready entry's halves are checked (R124); none when it is discarded. -/
def readSet (k : Nat) (f : Firing) (stamp : Option Nat) (h0 h1 : Ecc) (s : State) : Option Firing × State :=
  match stamp.bind fun st => (s.pe k).store.find? (·.stamp == st) with
  | none => (some f, s)
  | some e => match readEntry k e h0 h1 s with
    | (some x, s') => (some { f with l := x.l, r := x.r, t := x.t }, s')
    | (none, s') => (none, s')

/-- The set leaves the pipe or the matching store. -/
def takeSet (k : Nat) (f : Firing) (stamp : Option Nat) (s : State) : State :=
  match stamp with
  | none => s.updPe k fun p => { p with pipe := none }
  | some st => count k f.ctx (-1) 0 (s.updPe k fun p => { p with store := p.store.filter (·.stamp != st) })

/-- The 64-bit value of an immediate for the accepted types of its position (R87). -/
def immVal (mask w3 : Nat) : Val :=
  match immType mask with
  | some 0 => .of tyI64 (wrap 64 (signed 32 w3))
  | some 1 => .of tyF64 (Fp.widen false w3)
  | some 2 => .of tyF32X2 (w3 + w3 * 2 ^ 32)
  | some 3 => .of tyC32 w3
  | some 4 => .of tyBool (w3 % 2)
  | some 5 => .of tyPhase (wrap 64 (signed 32 w3))
  | some t => .of t w3
  | none => .of tyI64 w3

/-- The operands by position: slots of the set, with the last position from the immediate when SRC = 0b01; none where
a constant is missing (R54, R87). A merge form has one operand, whichever port it came by. -/
def operands (w : Insn) (o : OpInfo) (f : Firing) : List (Option Val) :=
  if o.merge then [if f.l.isSome then f.l else f.r]
  else
    let n := o.pos.length
    let base := [f.l, f.r, f.t].take n
    if w.src = 1 then base.set (n - 1) (some (immVal (o.pos.getLastD 0) w.w3)) else base

/-- Opcodes that pass a POISON value on (R45): IDENT, FORK, SWITCH in its value port, MERGE, NDMERGE. -/
def passesPoison (opcode pos : Nat) : Bool :=
  opcode == 0x110 || opcode == 0x111 || opcode == 0x113 || opcode == 0x114 || (opcode == 0x112 && pos == 0)

/-- Opcodes that raise NDET in a DETONLY context (R83). -/
def nonDet (opcode : Nat) : Bool := [0x114, 0x1C7, 0x1C8, 0x200, 0x1C1, 0x1C2, 0x1C3].contains opcode

/-- A scratch operation that forms an address (R107). -/
def isScratch (opcode : Nat) : Bool := 0x1C0 ≤ opcode && opcode ≤ 0x1C8

/-- The accepted types of a position in the context's mode: an Oxtuca context accepts any base operand and any gate
selector, and rejects a bad one as CAP (R73, R104, R107). -/
def acceptedAt (c : Desc) (opcode pos mask : Nat) : Nat :=
  if c.mode = 1 then
    (if isScratch opcode && mask == base then tAny else if opcode == 0x182 && pos == 0 then tAny else mask)
  else if opcode = 0x182 ∧ pos = 0 then i64
  else mask

/-- A capability is outside every list of a native context except "any" and CAPNARROW's L (R73, R90). -/
def capRefused (c : Desc) (opcode pos mask : Nat) (v : Val) : Bool :=
  c.mode == 0 && v.ty == tySaddr && v.cap && mask != tAny && !(opcode == 0x1C9 && pos == 0)

/-- R operands and handles with high bits that must be zero (R104). -/
def highBits (c : Desc) (opcode pos : Nat) (v : Val) : Bool :=
  (opcode == 0x181 && pos == 0 && 2 ^ 16 ≤ v.n) || (opcode == 0x182 && pos == 0 && c.mode == 0 && 2 ^ 8 ≤ v.n)
    || (opcode == 0x185 && pos == 1 && 2 ^ 8 ≤ v.n) || (opcode == 0x186 && pos == 1 && 2 ^ 12 ≤ v.n)

/-- The TYPE check of R90 over the positions in order: the mask, the port and the type code of the first offender. -/
def typeCheck (c : Desc) (w : Insn) (o : OpInfo) : Nat → List (Option Val) → Option (Nat × Nat × Nat)
  | _, [] => none
  | i, v :: vs =>
    match v with
    | none => typeCheck c w o (i + 1) vs
    | some x =>
      let m := acceptedAt c w.opcode i (o.pos.getD i 0)
      if x.ty = tyPoison && passesPoison w.opcode i then typeCheck c w o (i + 1) vs
      else if !m.testBit x.ty || capRefused c w.opcode i m x then some (m, i, x.ty)
      else if highBits c w.opcode i x then some (i64, i, x.ty)
      else typeCheck c w o (i + 1) vs

/-- "same type": R has the type of L (R90). -/
def sameCheck (o : OpInfo) : List (Option Val) → Option (Nat × Nat × Nat)
  | some l :: some r :: _ => if o.same && l.ty != r.ty then some (2 ^ l.ty, 1, r.ty) else none
  | _ => none

/-- The TYPE checks in the order L, R, T: on a row that says "same type", R is held to L's type alone (R90). -/
def typeChecks (d : Desc) (w : Insn) (o : OpInfo) (vs : List (Option Val)) : Option (Nat × Nat × Nat) :=
  match typeCheck d w o 0 (vs.take 1) with
  | some x => some x
  | none => match sameCheck o vs with
    | some x => some x
    | none => typeCheck d w o 0 vs

/-- The position of the first POISON operand that the opcode does not pass on. -/
def poisonAt (opcode : Nat) : Nat → List (Option Val) → Option Nat
  | _, [] => none
  | i, v :: vs =>
    if (v.map (·.ty)) = some tyPoison && !passesPoison opcode i then some i else poisonAt opcode (i + 1) vs

/-- Checks 1 to 4 of R91 on a word that can be trusted: cause, DETAIL, port and type code. -/
def checks (d : Desc) (w : Insn) (o : OpInfo) (f : Firing) : Option (Nat × Nat × Nat × Nat) :=
  let vs := operands w o f
  if vs.any (·.isNone) then some (0x06, 0, f.port, 0)
  else
    match poisonAt w.opcode 0 vs with
    | some i => some (0x11, i, f.port, tyPoison)
    | none =>
      match typeChecks d w o vs with
      | some (m, i, ty) => some (0x04, m, i, ty)
      | none => if d.detonly && nonDet w.opcode then some (0x12, w.opcode, f.port, 0) else none

/-- A fault of a firing (R57, R75, R79). -/
def firingFault (k : Nat) (f : Firing) (cause detail port ty : Nat) (s : State) : State :=
  peFiringFault k f.ctx port f.ia (k / 17 * 16 + (logPe s (k / 17) (k % 17)).getD 0) ty f.iter cause detail s

/-- The cluster may fire: it runs, or is halted and fires under the debugger's command (R447). -/
def mayFire (s : State) (dbg : Bool) (cl : Nat) : Bool :=
  clRuns s cl && (s.cl cl).halted == dbg

/-- An instruction store error of a PE: corrected in the row of an address, or not (R115). -/
def storeErr (k ia : Nat) (e : Ecc) (s : State) : State :=
  match e with
  | .ok => s
  | .corrected => fault { FEv.plain (17 + k / 17) 0 (k % 17) with tgt := some ⟨1, 0, k / 17 * 32 + k % 17, ia / 16⟩ } s
  | .uncorrectable => fault { FEv.plain (17 + k / 17) 1 (k % 17) with tgt := some ⟨3, 0, k / 17 * 32 + k % 17, 0⟩ } s

/-- The extension words of a FORK in order, each with its address and what it reads as (R101, R115). -/
def extWords (f : Firing) (w : Insn) (ext : List Ecc) : List (Nat × Ecc) :=
  if w.opcode = 0x111 then (List.range w.w3).map fun i => (f.ia + 1 + i, ext.getD i .ok) else []

/-- The first extension word that breaks R88 or reads uncorrectable. -/
def badExt (s : State) (k : Nat) (f : Firing) (w : Insn) (ext : List Ecc) : Option (Nat × Ecc) :=
  (extWords f w ext).find? fun e => e.2 == .uncorrectable || !extWordOk (word s k e.1)

/-- What the set of a firing does once it has issued (R57, R91, R115). Of an uncorrectable word, DETAIL holds bits 9:0 of the word
as stored, the only reading that the model has of it (DESIGN CHOICE, log entry 76). -/
def runSet (k : Nat) (f : Firing) (e : Ecc) (ext : List Ecc) (body : State → Fc → Fx) (s : State) : State :=
  let n := word s k f.ia
  let w := Insn.decode n
  let d := (s.ctx f.ctx).d
  let s1 := storeErr k f.ia e s
  match opInfo w.opcode with
  | none => firingFault k f 0x05 (n % 1024) f.port 0 s1
  | some o =>
    if e = .uncorrectable ∨ w.ok = false then firingFault k f 0x05 (n % 1024) f.port 0 s1
    else
      let s2 := forAll (extWords f w ext) (fun x s => storeErr k x.1 x.2 s) s1
      match badExt s k f w ext with
      | some x => firingFault k f 0x05 (word s k x.1 % 1024) f.port 0 s2
      | none =>
        match checks d w o f with
        | some (c, dt, port, ty) => firingFault k f c dt port ty s2
        | none =>
          let vs := (operands w o f).map (·.getD Val.zero)
          match body s2 ⟨k, f, w, d, vs.getD 0 .zero, vs.getD 1 .zero, vs.getD 2 .zero⟩ with
          | .fault c dt port ty => firingFault k f c dt port ty s2
          | .done es also => forAll es (emit k f) (also s2)

/-- The state once an operand set of physical PE `pe` of cluster `cl` has issued: the set has left its place, the stall census
of the cluster is back at watch (R141), and the tag comparators have seen the firing (R448). -/
def issued (cl pe : Nat) (f : Firing) (stamp : Option Nat) (s : State) : State :=
  tagBreak cl 1 ⟨devnum s, f.ctx, f.iter, f.ia, cl * 16 + (logPe s cl pe).getD 0, f.port, f.pri, false⟩
    (put (takeSet (cl * 17 + pe) f stamp s) (F.clStallstatState cl) 0)

/-- A firing of an opcode at a PE: the next set issues when its word has that opcode and the output side has room. A word of a
reserved opcode, which has no row of its own, fires under ADD's and raises BADINSN. -/
def fireAs (dbg : Bool) (fr : Fire) (opcode : Nat) (body : State → Fc → Fx) (s : State) : State :=
  let k := fr.cl * 17 + fr.pe
  let p := s.pe k
  if mayFire s dbg fr.cl && decide (fr.pe < 17) && (!p.stopped || p.pipe.isSome) then
    match nextSet s k with
    | none => s
    | some (f, st) =>
      let w := Insn.decode (word s k f.ia)
      if (w.opcode == opcode || (opcode == 0 && (opInfo w.opcode).isNone)) && canIssue p w then
        match readSet k f st fr.half0 fr.half1 s with
        | (some g, s1) => runSet k g fr.word fr.ext body (issued fr.cl fr.pe g st s1)
        | (none, s1) => s1
      else s
  else s

/-- The effect of the row of an opcode. -/
def fireEff (fr : Fire) (opcode : Nat) (body : State → Fc → Fx) (s : State) : State := fireAs false fr opcode body s

/-- A row whose result depends on the operands alone. -/
def pure1 (g : Fc → Val) : State → Fc → Fx := fun _ c => toAll c (g c)

end Sys2Proof.Machine
end

