-- ==== Sys2Proof/Machine/PeTag.lean ====
section
/-! DEFINITION. The tag operations of PE instructions (R49, R50, R58 to R62, R70, R104 to R106). -/

namespace Sys2Proof.Machine

open Sys2Proof

/-- The span routing table holds a route for a device (R24). -/
def routed (s : State) (dev : Nat) : Bool := dev == devnum s || rdB s (F.spnRouteValid dev)

/-- The tag of a firing with a place of its own (R56). -/
def tagOf (s : State) (f : Firing) (pe ia port pri : Nat) : Tag :=
  ⟨devnum s, f.ctx, f.iter, ia, pe, port, pri, false⟩

/-- A token outside the destinations of the word, into the output queue. -/
def sendTok (k : Nat) (f : Firing) (t : Tok) : State → State := sendOut k ⟨t, 0, none, f.ia, f.port, f.iter⟩

/-- An outstanding request of a firing (R108). -/
def addReq (k : Nat) (q : OutReq) (s : State) : State :=
  s.updPe k fun p => { p with reqs := p.reqs ++ [q], nextTxn := (q.txn + 1) % 4096 }

/-- The record of a request that a firing sends; the transaction number is the PE's next (log entry 7). -/
def outReq (s : State) (c : Fc) (cmd addr station : Nat) : OutReq :=
  { txn := (s.pe c.k).nextTxn, ctx := c.f.ctx, iter := c.f.iter, ia := c.f.ia, pri := c.f.pri, port := c.f.port, cmd := cmd,
    addr := addr, typex := c.w.typex, val := c.l.plain, dests := c.w.dests.map Dst.toDest, deferred := false, station := station,
    sent := s.now }

/-- A request to the slice of cluster `home`, with its answer awaited or not: a CTXREF for a creation, HEADn for a loop
entry. -/
def toSlice (c : Fc) (home addr : Nat) (b : Body) (await : Bool) (s : State) : State :=
  let q := { outReq s c 0x1C addr (clStation home) with
    typex := match b with | .create _ _ _ _ _ => tyCtxref | _ => tyI64 }
  let s1 := if await then addReq c.k q s else s
  peSend c.k { src := clStation c.cl, dstn := clStation home, dstp := 17, ring := 0, cmd := 0x1C, vn := vnReq, epoch := 0,
               init := c.cl, f := reqF addr q.txn (c.k % 17), body := b, who := none, asker := .pe c.k } s1

/-- MKCONT: the tag of the firing with the place of destination 3 and PRI 0 (R58). -/
def mkcontFx (s : State) (c : Fc) : Fx :=
  match c.w.d3 with
  | some d => .done ((c.w.dests.take 1).filterMap fun x =>
      if c.w.d1.en then some (toDst x (.of tyTag (tagOf s c.f d.pe d.ia d.port 0).pack)) else none) id
  | none => .done [] id

/-- The loaded template with a handle. -/
def template (s : State) (h : Nat) : Option Template := s.templates.find? (·.handle == h)

/-- CTXNEW: the template's ring must not be more privileged than the context's; an unknown handle counts as ring 0
(R58, R106). -/
def ctxnewFx (s : State) (c : Fc) : Fx :=
  match template s (c.l.n % 2 ^ 16) with
  | none => .fault 0x0A 0 c.f.port 0
  | some t =>
    if t.d.ring < c.d.ring then .fault 0x0A t.d.ring c.f.port 0
    else .done [] (toSlice c c.cl 0 (.create t.handle t.d.ring c.r.n 0 false) true)

/-- The gate entry of cluster `cl` (R70). -/
def gateWord (s : State) (cl g : Nat) : Nat := mget 0 s.gateTable (cl * 256 + g)

/-- GATECALL (R58, R70, R73). In an Oxtuca context a selector that is no capability with E = 1 names no gate, so that there is
no entry for the RING rules of R70 to look at: it raises CAP (log entry 76). -/
def gatecallFx (s : State) (c : Fc) : Fx :=
  if c.d.mode = 1 ∧ !(c.l.ty == tySaddr && c.l.cap && bits c.l.n 53 1 == 1) then
    .fault 0x09 (bits c.l.n 9 16) c.f.port 0
  else
    let g := c.l.n % 256
    let e := gateWord s c.cl g
    let n := bits e 32 5
    if bits e 21 1 = 0 ∨ n = 0 ∨ 16 < n ∨ bits e 18 2 < c.d.ring ∨ (c.d.mode = 1 ∧ bits e 20 1 = 0)
        ∨ (template s (bits e 0 16)).isNone then
      .fault 0x0A g c.f.port 0
    else .done [] (toSlice c c.cl g (.create (bits e 0 16) (bits e 16 2) c.r.n g true) true)

/-- A CTXREF is stale (R49). -/
def stale (s : State) (n : Nat) : Bool :=
  let x := s.ctx (bits n 0 14)
  !x.liveOrQuiesced || x.gen != bits n 14 8 || bits n 43 21 != 0 || bits n 31 12 != devnum s

/-- SENDCTX: to the place of the slot in the target template's argument table (R58, R70). For a CTXREF with GATED = 1 the manual
does not say which slice's gate entry gives NARGS, or when: the model reads the entry of the sender's own cluster at the firing
(DESIGN CHOICE, log entry 76). -/
def sendctxFx (s : State) (c : Fc) : Fx :=
  let n := c.r.n
  let slot := c.w.w3
  if stale s n then .fault 0x0B (bits n 0 14) c.f.port 0
  else
    let lim := if bits n 22 1 = 1 then bits (gateWord s c.cl (bits n 23 8)) 32 5 else 16
    match (template s (s.ctx (bits n 0 14)).d.tmpl).bind (·.args[slot]?) with
    | some a =>
      if slot < lim then
        .done [] (sendTok c.k c.f ⟨⟨devnum s, bits n 0 14, 0, a.ia, a.pe, a.port, c.f.pri, false⟩, c.l⟩)
      else .fault 0x02 slot c.f.port 0
    | none => .fault 0x02 slot c.f.port 0

/-- A token to the place that a tag names, with the firing's priority (R58, R105). -/
def toTag (n : Nat) (pri : Nat) (v : Val) : Tok := ⟨{ Tag.unpack n with pri := pri, phg := false }, v⟩

/-- RETURN: L to RETTAG, and with END = 1 a request that the home slice ends the context (R58). -/
def returnFx (s : State) (c : Fc) : Fx :=
  let rt := c.d.rettag
  if rt % 2 = 0 ∧ !routed s (bits rt 52 12) then .fault 0x0D (bits rt 52 12) c.f.port 0
  else
    .done [] fun s =>
      let s1 := if rt % 2 = 1 then s else sendTok c.k c.f (toTag rt c.f.pri c.l) s
      if c.w.w3 % 2 = 1 then toSlice c (homeCl c.f.ctx) c.f.ctx (.ret c.f.ctx) false s1 else s1

/-- CHGPE: DST1 with its PE field replaced (R58). -/
def chgpeFx (_ : State) (c : Fc) : Fx :=
  .done (c.w.dests.map fun d => { toDst d c.l with pe := some (c.r.n % 256) }) id

/-- SENDDEV: DST1 on another device (R58). -/
def senddevFx (s : State) (c : Fc) : Fx :=
  let dev := c.r.n % 4096
  if routed s dev then .done (c.w.dests.map fun d => { toDst d c.l with dev := some dev }) id
  else .fault 0x0D dev c.f.port 0

/-- ITERENTER: the home slice answers with HEADn (R61). -/
def iterenterFx (_ : State) (c : Fc) : Fx :=
  .done [] (toSlice c (homeCl c.f.ctx) c.f.ctx (.iterEnter c.f.ctx c.w.w3) true)

/-- ITERRET: the home slice retires the iteration (R62). -/
def iterretFx (s : State) (c : Fc) : Fx :=
  .done [] (toSlice c (homeCl c.f.ctx) c.f.ctx
    (.iterRet c.f.ctx ⟨c.f.iter, c.w.w3, c.cl * 16 + (logPe s c.cl (c.k % 17)).getD 0, c.f.ia⟩) false)

/-- SENDTAG: L with its capability flag clear to the tag in R (R105). -/
def sendtagFx (s : State) (c : Fc) : Fx :=
  if routed s (bits c.r.n 52 12) then .done [] (sendTok c.k c.f (toTag c.r.n c.f.pri c.l.plain))
  else .fault 0x0D (bits c.r.n 52 12) c.f.port 0

/-- MKCONT (R58). -/
def execMkcont (f : Fire) (s : State) : Host.Outcome State Fault Refusal := act 5 s (fireEff f 0x180 mkcontFx)

/-- CTXNEW (R50, R58). -/
def execCtxnew (f : Fire) (s : State) : Host.Outcome State Fault Refusal := act 5 s (fireEff f 0x181 ctxnewFx)

/-- GATECALL (R58, R70). -/
def execGatecall (f : Fire) (s : State) : Host.Outcome State Fault Refusal := act 5 s (fireEff f 0x182 gatecallFx)

/-- SENDCTX (R58). -/
def execSendctx (f : Fire) (s : State) : Host.Outcome State Fault Refusal := act 5 s (fireEff f 0x183 sendctxFx)

/-- RETURN (R58). -/
def execOpReturn (f : Fire) (s : State) : Host.Outcome State Fault Refusal := act 5 s (fireEff f 0x184 returnFx)

/-- CHGPE (R58). -/
def execChgpe (f : Fire) (s : State) : Host.Outcome State Fault Refusal := act 5 s (fireEff f 0x185 chgpeFx)

/-- SENDDEV (R58). -/
def execSenddev (f : Fire) (s : State) : Host.Outcome State Fault Refusal := act 5 s (fireEff f 0x186 senddevFx)

/-- ITERENTER (R61). -/
def execIterenter (f : Fire) (s : State) : Host.Outcome State Fault Refusal := act 5 s (fireEff f 0x187 iterenterFx)

/-- ITERRET (R62). -/
def execIterret (f : Fire) (s : State) : Host.Outcome State Fault Refusal := act 5 s (fireEff f 0x188 iterretFx)

/-- SENDTAG (R105). -/
def execSendtag (f : Fire) (s : State) : Host.Outcome State Fault Refusal := act 5 s (fireEff f 0x189 sendtagFx)

/-- What ITERGET computes (R104). -/
def itergetFx : State → Fc → Fx := pure1 fun c => .of tyI64 c.f.iter

/-- ITERGET (R104). -/
def execIterget (f : Fire) (s : State) : Host.Outcome State Fault Refusal := act 5 s (fireEff f 0x18a itergetFx)

end Sys2Proof.Machine
end

