-- ==== Sys2Proof/Machine/Sessions.lean ====
section
/-! DEFINITION. Sessions: completions and their signals, session errors, and the start of a command with the checks that
every command has (R316 to R329). -/

namespace Sys2Proof.Machine

open Sys2Proof

/-! ### Status codes (R328) -/

def scSUCCESS : Nat := 0x00
def scINVOPC : Nat := 0x01
def scINVFIELD : Nat := 0x02
def scNOTPERMITTED : Nat := 0x03
def scQUIESCING : Nat := 0x04
def scNORESOURCE : Nat := 0x05
def scHOSTMEM : Nat := 0x06
def scIMGINVALID : Nat := 0x07
def scPLACECONFLICT : Nat := 0x08
def scSTALECTX : Nat := 0x09
def scDRVBUSY : Nat := 0x0A
def scBADTYPE : Nat := 0x0B
def scABORTED : Nat := 0x0C
def scBUSY : Nat := 0x0D
def scNOTFOUND : Nat := 0x0E
def scRING : Nat := 0x0F
def scFARSPILL : Nat := 0x10
def scDEVERR : Nat := 0x11

/-- A number as `n` bytes, the lowest first (R6). -/
def leBytes (n v : Nat) : List Nat := (List.range n).map fun i => bits v (8 * i) 8

/-- Bytes, the lowest first, as a number (R6). -/
def ofLe : List Nat → Nat
  | [] => 0
  | b :: bs => b % 256 + 256 * ofLe bs

/-- `n` bytes of a list from an offset as a number. -/
def fieldLe (bs : List Nat) (off n : Nat) : Nat := ofLe ((bs.drop off).take n)

/-! ### Signals (R314, R322) -/

/-- Vectors of a function: the PF holds those that the VFs do not (R314). -/
def fnVectors (s : State) (fn : Nat) : Nat :=
  let v := rd s F.hifVecsplitVfvec
  if fn = 0 then 2048 - 63 * v else v

/-- A ring of a session has posted an entry: its vector is signalled when the coalescing count is reached (R322). -/
def posted (n : Nat) (ev : Bool) (s : State) : State :=
  let x := s.sess n
  let un := (if ev then x.evUns else x.cqUns) + 1
  let since := if un = 1 then s.now else if ev then x.evSince else x.cqSince
  let go := decide (x.coalN ≤ un)
  let x' := if ev then { x with evUns := if go then 0 else un, evSince := since }
    else { x with cqUns := if go then 0 else un, cqSince := since }
  let s1 := s.setSess n x'
  if go then emitOut (.msix x.fn (if ev then x.evVec else x.vec)) s1 else s1

/-! ### Completions (R321, R327) -/

/-- The completion ring has room (R321). -/
def cqRoom (x : Sess) : Bool := (x.cqTail + 1) % 2 ^ x.cqLog != x.cqHead

/-- The 32 bytes of a completion entry (R327). -/
def complBytes (c : Compl) (w t : Nat) : List Nat :=
  leBytes 2 c.cid ++ leBytes 2 c.sqhead ++ [c.status % 256, c.detail % 256, w % 2, 0] ++ leBytes 8 c.r0 ++ leBytes 8 c.r1
    ++ leBytes 8 t

/-- One completion written: the ring's tail advances, and the pass with it (R321). -/
def postOne (n : Nat) (c : Compl) (s : State) : State :=
  let x := s.sess n
  let last := x.cqTail + 1 == 2 ^ x.cqLog
  posted n false <| emitOut (.completion n x.cqTail (complBytes c (x.cqPass % 2) (tick s))) <|
    s.setSess n { x with cqTail := if last then 0 else x.cqTail + 1, cqPass := if last then x.cqPass + 1 else x.cqPass }

/-- The completions held are posted in order while the ring has room. -/
def drainHeld (n : Nat) : List Compl → State → State
  | [], s => s.updSess n fun x => { x with held := [] }
  | c :: cs, s =>
    if cqRoom (s.sess n) then drainHeld n cs (postOne n c s) else s.updSess n fun x => { x with held := c :: cs }

/-- Completions of a session leave or wait: an ACTIVE session posts all, a CLOSING one only ABORTED, others none
(R316); a function-level reset suppresses every host write (R324, R339). -/
def complete_ (n : Nat) (c : Compl) (s : State) : State :=
  let x := s.sess n
  let may := !x.mute && (x.st == .active || (x.st == .closing && c.status == scABORTED))
  if may then drainHeld n (x.held ++ [c]) s else s

/-- The started or waiting command with a number, and its session. -/
def findCmd (s : State) (id : Nat) : Option Cmd :=
  (s.sessions.filterMap fun e => e.2.cmds.find? (·.id == id)).head?

/-- A command leaves its session with a status and its results. -/
def endCmd (c : Cmd) (status detail r0 r1 : Nat) (s : State) : State :=
  complete_ c.sess ⟨c.e.cid, c.sqhead, status, detail, r0, r1⟩
    (s.updSess c.sess fun x => { x with cmds := x.cmds.filter (·.id != c.id) })

/-- Opcodes of R329, R371 and R436; the others are reserved. -/
def knownOpc (opc : Nat) : Bool :=
  (0x01 ≤ opc && opc ≤ 0x06) || (0x10 ≤ opc && opc ≤ 0x12) || (0x14 ≤ opc && opc ≤ 0x1E) || (0x40 ≤ opc && opc ≤ 0x48)
    || (0x50 ≤ opc && opc ≤ 0x58)

/-- The next command of a session that may start: the first one fetched and not started, under FENCE (R320). -/
def nextCmd (x : Sess) : Option Cmd :=
  match x.cmds.find? (!·.started) with
  | some c =>
    let before := x.cmds.filter (·.started)
    if before.any (fun d => d.e.flags % 2 == 1) then none
    else if c.e.flags % 2 = 1 ∧ before ≠ [] then none
    else some c
  | none => none

/-- Commands of a reserved opcode complete with INVOPC as their turn comes (R329). -/
def clearReserved (n : Nat) : Nat → State → State
  | 0, s => s
  | fuel + 1, s =>
    let x := s.sess n
    if x.st != .active then s
    else
      match nextCmd x with
      | some c => if knownOpc c.e.opc then s else clearReserved n fuel (endCmd c scINVOPC 0 0 0 s)
      | none => s

/-- The reserved commands whose turn has come. -/
def passReserved (n : Nat) (s : State) : State := clearReserved n (s.sess n).cmds.length s

/-- A command ends, and those after it may start. -/
def finishCmd (c : Cmd) (status detail r0 r1 : Nat) (s : State) : State :=
  passReserved c.sess (endCmd c status detail r0 r1 s)

/-- The command with a number ends. -/
def finish (id status r0 r1 : Nat) (s : State) : State :=
  match findCmd s id with
  | some c => finishCmd c status 0 r0 r1 s
  | none => s

/-- A started command remembers what it waits for. -/
def updCmd (c : Cmd) (f : Cmd → Cmd) (s : State) : State :=
  s.updSess c.sess fun x => { x with cmds := x.cmds.map fun d => if d.id = c.id then f d else d }

/-! ### Errors (R319) -/

/-- A session enters ERROR (R316, R319); ADMEN tells whether session 0 is ACTIVE (R346). -/
def sessError (n : Nat) (s : State) : State :=
  if (s.sess n).st == .active then
    let s1 := s.updSess n fun x => { x with st := .error }
    event 10 2 0 (if n = 0 then put s1 F.hifStatusAdmen 0 else s1)
  else s

/-- A host memory error on a ring of a session (R315, R319). -/
def ringError (n : Nat) (s : State) : State := sessError n (event 10 1 0 s)

/-! ### Starting a command -/

/-- The device is in a full quiesce: BUSY or DONE (R33, R330). -/
def devQuiesce (s : State) : Bool := rdB s F.genQuiesceBusy || rdB s F.genQuiesceDone

/-- The offset of the first byte of an entry that holds a nonzero bit where zero is required: `m` gives the bits of P0
to P4 that the command uses (R326). -/
def badField (e : SqEntry) (buf : Bool) (m : List Nat) : Option Nat :=
  if 2 ≤ e.flags then some 1
  else if e.rsvd % 2 ^ 32 ≠ 0 then some 4
  else if (if buf then e.dptr % 16 ≠ 0 else e.dptr ≠ 0) then some 8
  else if !buf && e.dlen ≠ 0 then some 16
  else if e.rsvd / 2 ^ 32 ≠ 0 then some 20
  else
    ((List.range 5).find? fun i => e.p.getD i 0 &&& m.getD i 0 != e.p.getD i 0).map (24 + 8 * ·)

/-- Parameter `i` of a command. -/
def Cmd.par (c : Cmd) (i : Nat) : Nat := c.e.p.getD i 0 % 2 ^ 64

/-- The next command of a session starts, when it has one of the row's opcodes: the session's column, then the fields,
then the command itself (R329, R326). `cls` is 0 for any session, 1 for session 0, 2 for the PF's. -/
def runCmd (r : Run) (opc cls : Nat) (buf : Bool) (m : List Nat) (f : Cmd → State → State) (s : State) : State :=
  let x := s.sess r.sess
  if x.st != .active then s
  else
    match nextCmd x with
    | none => s
    | some c0 =>
      if c0.e.opc != opc then s
      else
        let c := { c0 with started := true }
        let s1 := updCmd c (fun _ => c) s
        if (cls = 1 ∧ r.sess ≠ 0) ∨ (cls = 2 ∧ x.fn ≠ 0) then finishCmd c scNOTPERMITTED 0 0 0 s1
        else
          match badField c.e buf m with
          | some o => finishCmd c scINVFIELD o 0 0 s1
          | none => f c s1

/-- All 64 bits of a parameter are used. -/
def full64 : Nat := 2 ^ 64 - 1

/-- A command ends with INVFIELD at a byte of its entry (R327). -/
def invField (c : Cmd) (off : Nat) (s : State) : State := finishCmd c scINVFIELD off 0 0 s

/-- A command ends with SUCCESS and its results. -/
def succeed (c : Cmd) (r0 r1 : Nat) (s : State) : State := finishCmd c scSUCCESS 0 r0 r1 s

/-- A command ends with a status. -/
def failCmd (c : Cmd) (status : Nat) (s : State) : State := finishCmd c status 0 0 0 s

/-- A host memory error on a data buffer: DMAERR, and the command ends with HOSTMEM (R315, R348). -/
def bufferError (c : Cmd) (s : State) : State := failCmd c scHOSTMEM (event 10 1 0 s)

end Sys2Proof.Machine
end

