-- ==== Sys2Proof/Machine/Slice.lean ====
section
/-! DEFINITION. The context table slices: creation, loop windows, quotas, quiesce, the stall census and the orphan census
but for the parts of the spill agents and the banks (R46 to R50, R61 to R64, R76, R77, R134 to R144). -/

namespace Sys2Proof.Machine

open Sys2Proof

/-! ### Creation (R50, R71, R338) -/

/-- Free slots of the slice of cluster `c`. -/
def freeSlots (s : State) (c : Nat) : List Nat :=
  ((List.range 1024).map (· + c * 1024)).filter fun k => (s.ctx k).state == .free

/-- A free slot of the first slice, from cluster `c` upwards modulo 16, that has one; the manual leaves the choice
within a slice open, and `pick` makes it. -/
def findSlot (s : State) (c pick : Nat) : Option Nat :=
  ((List.range 16).findSome? fun i =>
    match freeSlots s ((c + i) % 16) with
    | [] => none
    | l => some l).bind fun l => l[pick % l.length]?

/-- The value of a template constant in a new context: plain, or a capability minted from a window or a gate (R71,
R336); none for a gate that Oxtuca contexts may not call. -/
def mintConst (s : State) (slot : Nat) (d : Desc) (c : TConst) : Option Val :=
  let win (w : Win) : Val := ⟨BitVec.ofNat 64 (w.base + w.length * 2 ^ 25 + w.perm % 8 * 2 ^ 50), tySaddr, true⟩
  if c.kind = 0 then some ⟨BitVec.ofNat 64 c.val, c.ty, false⟩
  else if c.kind = 1 then some (win d.w0)
  else if c.kind = 2 then some (win d.w1)
  else if c.kind = 3 then some (win d.w2)
  else
    let g := c.val % 256
    if bits (gateWord s (slot / 1024) g) 20 1 = 1 then some ⟨BitVec.ofNat 64 (g + 2 ^ 53), tySaddr, true⟩ else none

/-- The constant loads of a new context. -/
def constToks (s : State) (slot : Nat) (t : Template) (d : Desc) : List Tok :=
  t.consts.filterMap fun c => (mintConst s slot d c).map fun v =>
    ⟨⟨devnum s, slot, 0, c.ia, c.pe, 3, 0, false⟩, v⟩

/-- A context takes a slot: CREATING, with its constants on their way (R50). -/
def createCtx (slot : Nat) (t : Template) (d : Desc) (o : OnLive) (s : State) : State :=
  let toks := constToks s slot t d
  let x : Ctx := { Ctx.init with state := .creating, gen := ((s.ctx slot).gen + 1) % 256, d := d, loads := toks,
                                 onLive := o }
  forAll toks (injectTok (clStation (homeCl slot)) (homeCl slot)) (s.setCtx slot x)

/-- The descriptor that CTXNEW and GATECALL fill (R338). -/
def newDesc (t : Template) (creator : Desc) (ring rettag : Nat) : Desc :=
  { t.d with ring := ring, rettag := rettag, session := creator.session, fltch := creator.fltch, tmpl := t.handle,
             drvfirst := 0, drvcount := 0 }

/-- The descriptor of the context whose firing asked. -/
def askerDesc (s : State) (p : Packet) : Desc :=
  match p.asker with
  | .pe k => match (s.pe k).reqs.find? (·.txn == p.txn) with
    | some q => (s.ctx q.ctx).d
    | none => .init
  | _ => .init

/-- A creation request: a slot, or the answer without data that says there is none (R50, log entry 6). -/
def sliceCreate (cl pick tmpl ring rettag gate : Nat) (gated : Bool) (p : Packet) (s : State) : State :=
  match findSlot s cl pick, template s tmpl with
  | some slot, some t =>
    let gen := ((s.ctx slot).gen + 1) % 256
    let k := match p.asker with | .pe k => k | _ => 0
    createCtx slot t (newDesc t (askerDesc s p) ring rettag)
      (.firing k p.txn (ctxref slot gen (devnum s) (if gated then some gate else none))) s
  | _, _ => reply p 0x20 stOK [] s

/-- A context all of whose constants are loaded becomes LIVE and its CTXREF leaves (R50). -/
def ctxLiveEff (ctx : Nat) (s : State) : State :=
  let x := s.ctx ctx
  if x.state == .creating && x.loads.isEmpty then
    let s1 := s.setCtx ctx { x with state := .live, onLive := .nothing }
    match x.onLive with
    | .nothing => s1
    | .firing k txn ref => inject {
        src := clStation (homeCl ctx), dstn := clStation (k / 17), dstp := k % 17, ring := 0, cmd := 0x20, vn := vnRsp,
        epoch := 0, init := k / 17, f := rspF txn stOK (k % 17), body := .units [ref], who := none, asker := .pe k } s1
    | .command id => finish id scSUCCESS (ctxref ctx x.gen (devnum s) none) 0 s1
  else s

/-! ### Requests to a slice (R61, R62, R136) -/

/-- A slice request at the station of cluster `cl`. -/
def sliceAt (d : Deliver) (cl : Nat) (p : Packet) (s : State) : State :=
  if d.data = .uncorrectable then reply p 0x21 stUNCORR [] s
  else
    match p.body with
    | .create tmpl ring rettag gate gated => sliceCreate cl d.pick tmpl ring rettag gate gated p s
    | .iterEnter ctx loop => reply p 0x20 stOK [(s.ctx ctx).head.getD loop 0] s
    | .query ctx loop =>
      let from_ := (stationCl p.src).getD 0
      let s1 := s.updCtx ctx fun x =>
        if x.queried.contains (loop, from_) then x else { x with queried := x.queried ++ [(loop, from_)] }
      let x := s1.ctx ctx
      inject (answerTo s1 p 0x20 stOK (.window ctx loop (x.head.getD loop 0) (x.d.kbound.getD loop 0 + 1)
        (x.thrM || x.thrS))) s1
    | .iterRet ctx r => s.updCtx ctx fun x => { x with iterReqs := x.iterReqs ++ [r] }
    | .ret ctx => s.updCtx ctx fun x => { x with retPending := true }
    | _ => reply p 0x21 stBADCMD [] s

/-- The effect of SLICE. -/
def sliceEff (d : Deliver) : State → State := deliverEff d [0x1C] fun p s =>
  match stationCl p.dstn with
  | some cl => some (sliceAt d cl p s)
  | none => some (reply p 0x21 stBADCMD [] s)

/-- DONE shifted past the retired iterations, with their number (R62). -/
def shiftDone : Nat → Nat → Nat → Nat × Nat
  | 0, d, n => (d, n)
  | fuel + 1, d, n => if d % 2 = 1 then shiftDone fuel (d / 2) (n + 1) else (d, n)

/-- The first waiting ITERRET of a loop applied (R62, R64). -/
def iterretApplyEff (ctx loop : Nat) (s : State) : State :=
  let x := s.ctx ctx
  match x.iterReqs.find? (·.loop == loop) with
  | none => s
  | some r =>
    let head := x.head.getD loop 0
    let done := x.done.getD loop 0
    let e := (r.iter + 4096 - head) % 4096
    let x1 := { x with iterReqs := eraseFirst r x.iterReqs }
    let s1 := s.setCtx ctx x1
    if x.d.kbound.getD loop 0 + 1 ≤ e ∨ done.testBit e then
      firingEvent (r.pe / 16) ctx (faultValue 0x07 0 r.ia r.pe 0 r.iter loop) s1
    else
      match shiftDone 64 (done ||| 2 ^ e) 0 with
      | (d', n) =>
        let s2 := s.setCtx ctx { x1 with done := x.done.set loop d', head := x.head.set loop ((head + n) % 4096) }
        if n = 0 then s2 else notify ctx loop s2

/-- A context enters RETURNING: its census begins and its throttle ends (R46, R142, R144). -/
def startReturning (ctx : Nat) (s : State) : State :=
  s.updCtx ctx fun x => { x with
    state := .returning, retPending := false, thrM := false, thrS := false,
    census := some { start := none, step := 0, oper := 0, ready := 0, held := 0, arrived := 0, defer := 0, answ := 0, reached := [],
                     scanned := [], flushed := [], spillDone := [], banks := [], gates := [], overTime := false } }

/-- A RETURN with END = 1 applied at the home slice (R77, R142). Where it reaches the slice while the context is QUIESCED, the
manual does not say what becomes of it: it stays pending and is applied once the context is LIVE again (DESIGN CHOICE, log
entry 78). -/
def returnApplyEff (ctx : Nat) (s : State) : State :=
  let x := s.ctx ctx
  if x.retPending && x.state == .live then startReturning ctx s else s

/-! ### Notices (R136, R137) -/

/-- The throttled tokens of a loop that a window admits, in the order of their release. -/
def admitted (w : Lwc) (l : List Held) : List Held :=
  let dist (h : Held) : Nat := (h.tok.tag.iter + 4096 - w.head) % 4096
  (l.filter fun h => h.tok.tag.ctx == w.ctx && h.loop == w.loop && lwcAdmit w h.tok.tag.iter == .send).mergeSort
    fun a b => dist a ≤ dist b

/-- A notice at one PE: its cache first, then the release pass over the throttle list; when its held chain is not empty, the
agent is asked to walk it for the notice's window (R137). -/
def noticePe (w : Lwc) (k : Nat) (s : State) : State :=
  let p := s.pe k
  let go := admitted w p.throttle
  let lpe := logPe s (k / 17) (k % 17)
  let chain := match lpe with | some l => mget [] (s.cl (k / 17)).heldChain l | none => []
  pumpLoops k <| forAll go (sendOut k) <| s.setPe k { p with
    lwc := p.lwc.map fun v => if v.ctx = w.ctx ∧ v.loop = w.loop then w else v,
    throttle := p.throttle.filter fun h => !go.contains h,
    asks := if chain = [] then p.asks else p.asks.filter (fun v => !(v.ctx == w.ctx && v.loop == w.loop)) ++ [w] }

/-- The effect of NOTICE: every PE of the cluster. -/
def noticeEff (d : Deliver) : State → State := deliverEff d [0x23] fun p s =>
  match stationCl p.dstn, p.body with
  | some cl, .window ctx loop head k thr =>
    some (forAll (List.range 17) (fun i => noticePe ⟨ctx, loop, head, k, thr⟩ (cl * 17 + i)) s)
  | _, _ => some s

/-- A delta cache entry flushed to the home slice (R134). -/
def deltaFlushEff (cl pe ctx : Nat) (s : State) : State :=
  let k := cl * 17 + pe
  match (s.pe k).delta.find? (·.ctx == ctx) with
  | some d => applyDelta d (s.updPe k fun p => { p with delta := p.delta.filter (·.ctx != ctx) })
  | none => s

/-! ### Quiesce (R29, R76, R77) -/

/-- A quiesce takes effect at the PEs and the converter complex: the CTXQ cause is taken for the bound channels. A
context that has meanwhile entered RETURNING stays there. -/
def quiesceEffect (ctx : Nat) (s : State) : State :=
  let x := s.ctx ctx
  let s1 := s.setCtx ctx { x with quiescing := false, ctxq := true,
                                  state := if x.state = .live then .quiesced else x.state }
  if x.d.drvcount = 0 then s1 else abortBy 5 (fun c => x.d.channels.contains c) s1

def ctxQuiesceEffectEff (ctx : Nat) (s : State) : State :=
  if (s.ctx ctx).quiescing then quiesceEffect ctx s else s

/-! ### Stall census (R141) -/

/-- The cluster waits and is full, and its census is enabled and not suspended by a retirement (R141, R394). -/
def stalled (s : State) (cl : Nat) : Bool :=
  rdB s (F.clStallcfgEn cl) && clRuns s cl && !peRuns s cl && !(s.cl cl).halted && waitsFull s cl

/-- The forced spill over the sets in turn: of each full set the oldest operand entry, until none of the entries still owed
remains, the eviction buffer is full, or no level takes the next one, which ends it. -/
def forceSets (k : Nat) : List Nat → State → State
  | [], s => s.updPe k fun p => { p with forced := 0 }
  | set :: sets, s =>
    let p := s.pe k
    let ways := p.store.filter (·.set == set)
    if p.forced = 0 ∨ 8 ≤ p.evict.length then s.setPe k { p with scan := set }
    else if ways.length < 4 then forceSets k sets s
    else
      match oldest (ways.filter (·.kind == .operand)) with
      | none => forceSets k sets s
      | some v =>
        match spillRefusal s (k / 17) v.ctx with
        | some _ => s.setPe k { p with scan := set, forced := 0 }
        | none => forceSets k sets (bumpCtr k 5 (evictEntry k v (s.setPe k { p with forced := p.forced - 1 })))

/-- The forced spill of a PE goes on from its scan pointer with what it still owes. -/
def forceSpill (k : Nat) (s : State) : State :=
  if (s.pe k).forced = 0 then s
  else
    let a := (s.pe k).scan
    forceSets k ((List.range 1024).map fun i => (a + i) % 1024) s

/-- The first window expires: the forced spill, of up to 8 × FORCE entries of each PE, and the census passes to forced. -/
def stallWin1Eff (cl : Nat) (s : State) : State :=
  if stalled s cl && rd s (F.clStallstatState cl) == 0 then
    let n := 8 * rd s (F.clStallcfgForce cl)
    let s1 := forAll (List.range 17) (fun i s => forceSpill (cl * 17 + i) (s.updPe (cl * 17 + i) fun p => { p with forced := n })) s
    stallWatch cl (put (putSat s1 (F.clStallstatEpisodes cl) 1) (F.clStallstatState cl) 1)
  else s

/-- The token at the head of a waiting read stage. -/
def headTok (s : State) (k : Nat) : Option Tok :=
  match (s.pe k).holdTok with
  | some h => some h.tok
  | none => (pickTok s k).map (·.1)

/-- The second window expires: STALL once against each context at the head of a waiting read stage, with the mask of
those logical PEs. -/
def stallWin2Eff (cl : Nat) (s : State) : State :=
  if stalled s cl && rd s (F.clStallstatState cl) == 1 then
    let ws := (List.range 17).filterMap fun i =>
      let k := cl * 17 + i
      if readWaits (s.pe k) then
        match headTok s k, logPe s cl i with
        | some t, some l => some (l, t)
        | _, _ => none
      else none
    let mask := ws.foldl (fun m e => m ||| 2 ^ e.1) 0
    let firsts := ws.foldl (fun (l : List (Nat × Tok)) e => if l.any (·.2.tag.ctx == e.2.tag.ctx) then l else l ++ [e]) []
    let s1 := put (putSat s (F.clStallstatFaults cl) 1) (F.clStallstatState cl) 2
    forAll firsts (fun e => clFault cl (some e.2.tag.ctx)
      (faultValue 0x26 e.2.tag.port e.2.tag.ia (cl * 16 + e.1) 0 e.2.tag.iter mask)) s1
  else s

/-! ### Orphan census (R142 to R144) -/

/-- The census start reaches a cluster (R142). -/
def censusStartEff (ctx cl : Nat) (s : State) : State :=
  match (s.ctx ctx).census with
  | some c => if cl < 16 && !c.reached.contains cl then
      countCensus ctx (fun c => { c with reached := c.reached ++ [cl], start := if c.reached.length = 15 then some s.now else c.start }) s
    else s
  | none => s

/-- A record of the context found by the scan of a PE or by the spill agent. -/
def countRec (ctx : Nat) (r : Rec) (s : State) : State :=
  countCensus ctx (fun c => match r with
    | .held _ => { c with held := c.held + 1 }
    | .entry e => match e.kind with
      | .operand => { c with oper := c.oper + 1 }
      | .ready => { c with ready := c.ready + 1 }
      | _ => c) s

/-- A resident entry of the context leaves the store. -/
def scanEntry (k ctx : Nat) (e : Entry) (s : State) : State :=
  count k ctx (-1) 0 (countRec ctx (.entry e) (s.updPe k fun p => { p with store := p.store.filter (·.stamp != e.stamp) }))

/-- The reservation of a held record in its cluster's phase gate ends (R166). -/
def unreserveRec (cl : Nat) (r : Rec) (s : State) : State :=
  match r with
  | .held h => unreserve cl h s
  | .entry _ => s

/-- A record of the context leaves the eviction buffer. -/
def scanEvict (k ctx : Nat) (x : Evicted) (s : State) : State :=
  let s1 := count k ctx 0 (-1) (countRec ctx x.r (s.updPe k fun p => { p with evict := eraseFirst x p.evict }))
  match x.r with
  | .entry e => filterSub k e.set s1
  | .held h => unreserve (k / 17) h s1

/-- The scan of one PE: every entry of the context is counted and removed (R142, R143). -/
def scanPe (k ctx : Nat) (s : State) : State :=
  let p := s.pe k
  let mine (t : Tok) : Bool := t.tag.ctx == ctx
  let s1 := forAll (p.store.filter (·.ctx == ctx)) (scanEntry k ctx) s
  let s2 := forAll (p.evict.filter (·.r.ctx == ctx)) (scanEvict k ctx) s1
  let parked := p.refill.filter fun q => mine q.tok
  let loops := (parked.filter fun q => match q.why with | .loop _ => true | _ => false).length
  let heldTok : Nat := match p.holdTok with | some h => bit (mine h.tok) | none => 0
  let heldRec : Nat := match p.hold with | some r => bit (r.ctx == ctx) | none => 0
  let pipe : Nat := match p.pipe with | some f => bit (f.ctx == ctx) | none => 0
  let waits := p.throttle.filter (fun h => mine h.tok) ++ p.loopWait.filter fun h => mine h.tok
  let gated := waits ++ parked.filterMap fun q => match q.why with | .loop h => some h | _ => none
  let freed (s : State) : State :=
    (match p.hold with | some r => if r.ctx = ctx then unreserveRec (k / 17) r else id | none => id)
      (forAll gated (unreserve (k / 17)) s)
  let s3 := countCensus ctx (fun c => { c with
    ready := c.ready + pipe,
    held := c.held + waits.length + loops,
    arrived := c.arrived + heldTok + heldRec + (parked.length - loops),
    answ := c.answ + (p.kept.filter (·.req.ctx == ctx)).length }) s2
  let s4 := (freed s3).updPe k fun p => { p with
    refill := p.refill.filter fun q => !mine q.tok,
    throttle := p.throttle.filter fun h => !mine h.tok,
    loopWait := p.loopWait.filter fun h => !mine h.tok,
    holdTok := if heldTok = 1 then none else p.holdTok,
    hold := if heldRec = 1 then none else p.hold,
    pipe := if pipe = 1 then none else p.pipe,
    lwc := p.lwc.filter (·.ctx != ctx),
    queries := p.queries.filter (·.ctx != ctx),
    asks := p.asks.filter (·.ctx != ctx),
    kept := p.kept.filter (·.req.ctx != ctx) }
  match (s4.pe k).delta.find? (·.ctx == ctx) with
  | some d => applyDelta d (s4.updPe k fun p => { p with delta := p.delta.filter (·.ctx != ctx) })
  | none => s4

/-- The flush marker of a cluster (R142). -/
def flushMarker (ctx cl : Nat) : Packet :=
  { src := clStation cl, dstn := clStation cl, dstp := 0, ring := 0, cmd := 0x02, vn := vnTok, epoch := 0, init := cl,
    f := (Tag.pack ⟨0, ctx, 0, 0, 0, 0, 0, false⟩), body := .census ctx, who := none, asker := .nobody }

/-- A PE completes its scan; the cluster's marker leaves when all of its logical PEs have (R142). The scan of a PE
under retirement waits (R395). -/
def censusScanEff (ctx cl pe : Nat) (s : State) : State :=
  match (s.ctx ctx).census with
  | none => s
  | some c =>
    let id := cl * 16 + pe
    let k := peKey s id
    if cl < 16 && pe < 16 && c.reached.contains cl && !c.scanned.contains id && !(s.pe k).stopped then
      let s1 := countCensus ctx (fun c => { c with scanned := c.scanned ++ [id] }) (scanPe k ctx s)
      let all := match (s1.ctx ctx).census with
        | some c => (c.scanned.filter (· / 16 == cl)).length == 16
        | none => false
      stallWatch cl <| pumpLoops k (if all then inject (flushMarker ctx cl) s1 else s1)
    else s

/-- A request of the context is outstanding: unanswered, and not deferred (R142 step 3). -/
def outstanding (s : State) (ctx : Nat) : Bool :=
  s.pes.any fun e => e.2.reqs.any fun q => q.ctx == ctx && !q.deferred

/-- A token of the context is on its way through queues or rings. -/
def tokensMove (s : State) (ctx : Nat) : Bool :=
  let tok (p : Packet) : Bool := p.vn == vnTok && p.cmd == 0x01 && bits p.f 38 14 == ctx
  s.net.any tok || s.stations.any (fun e => e.2.remoteQ.any tok)
    || s.clusters.any (fun e => e.2.units.any fun u => match u.body with
      | .short n => bits n 34 14 == ctx
      | .packet p => tok p)
    || s.pes.any fun e => e.2.outq.any (·.tag.ctx == ctx) || e.2.outWait.any (·.tag.ctx == ctx)
      || e.2.inq.any (·.tag.ctx == ctx)

/-- Whether the steps of the census up to 3 are complete. -/
def Census.scansDone (c : Census) : Bool := c.scanned.length == 256

/-- A flush marker returns once every token issued before it has arrived (R142, R143). -/
def flushEff (d : Deliver) : State → State := deliverEff d [0x02] fun p s =>
  let ctx := bits p.f 38 14
  match (s.ctx ctx).census, stationCl p.dstn with
  | some c, some cl =>
    if !c.scansDone || outstanding s ctx || tokensMove s ctx then none
    else some (countCensus ctx (fun c => { c with flushed := c.flushed ++ [cl] }) s)
  | _, _ => some s

/-- The first step of R142 that is not complete. -/
def censusStep (s : State) (ctx : Nat) (x : Ctx) (c : Census) : Nat :=
  if c.reached.length < 16 then 1
  else if !c.scansDone then 2
  else if outstanding s ctx then 3
  else if c.flushed.length < 16 then 4
  else if x.scount != 0 && c.spillDone.length < 16 then 5
  else if c.banks.length < 32 then 6
  else if c.gates.length < 16 then 7
  else 8

/-- Steps 1 to 4 of the census of a context are complete. -/
def censusPast4 (s : State) (ctx : Nat) : Bool :=
  match (s.ctx ctx).census with
  | some c => c.flushed.length == 16
  | none => false

/-- A phase gate purges the context's tokens, counted as HELD (R170). -/
def censusGateEff (ctx cl : Nat) (s : State) : State :=
  match (s.ctx ctx).census with
  | some c =>
    if censusPast4 s ctx && cl < 16 && !c.gates.contains cl then
      let n := ((s.cl cl).gate.filter (·.tok.tag.ctx == ctx)).length
      countCensus ctx (fun c => { c with held := c.held + n, gates := c.gates ++ [cl] }) <|
        s.updCl cl fun g => { g with gate := g.gate.filter (·.tok.tag.ctx != ctx) }
    else s
  | none => s

/-- The payload of a CTXEND item: bytes 24 to 63 as a number (R341). -/
def ctxendPayload (ctx gen : Nat) (c : Census) : Nat :=
  let sat (n : Nat) : Nat := min n 0xFFFF
  ctx % 2 ^ 16 + gen % 256 * 2 ^ 16 + sat c.oper * 2 ^ 32 + sat c.ready * 2 ^ 48 + sat c.held * 2 ^ 64
    + sat c.arrived * 2 ^ 80 + sat c.defer * 2 ^ 96 + sat c.answ * 2 ^ 112

/-- The CLn_ORPH registers of the home cluster (R143). -/
def writeOrph (ctx gen : Nat) (c : Census) (s : State) : State :=
  let h := homeCl ctx
  let sat (n : Nat) : Nat := min n 0xFFFF
  let s := put (put (put s (F.clOrphctxValid h) 1) (F.clOrphctxGen h) gen) (F.clOrphctxCtx h) ctx
  let s := put (put s (F.clOrphcntLow h 0) (sat c.oper)) (F.clOrphcntHigh h 0) (sat c.ready)
  let s := put (put s (F.clOrphcntLow h 1) (sat c.held)) (F.clOrphcntHigh h 1) (sat c.arrived)
  put (put s (F.clOrphcntLow h 2) (sat c.defer)) (F.clOrphcntHigh h 2) (sat c.answ)

/-- The census ends: results, ORPHAN, the CTXEND item, and the slot is FREE (R142, R143, R331). -/
def censusEndEff (ctx : Nat) (s : State) : State :=
  let x := s.ctx ctx
  match x.census with
  | some c =>
    if censusStep s ctx x c = 8 then
      let sum := c.oper + c.ready + c.held + c.arrived + c.defer + c.answ
      let s1 := if sum = 0 then s else
        clFault (homeCl ctx) (some ctx) (faultValue 0x27 0 0 0 0 0 (min sum 0xFFFF)) (writeOrph ctx x.gen c s)
      let s2 := push x.d.fltch 0x03 (ctxendPayload ctx x.gen c) s1
      s2.setCtx ctx { Ctx.init with gen := x.gen }
    else s
  | none => s

/-- The census time limit expires: 2^TOEXP cycles of the home cluster after step 1 (R142); FREQ is in units of 25 MHz. -/
def censustoEff (ctx : Nat) (s : State) : State :=
  let x := s.ctx ctx
  let h := homeCl ctx
  match x.census with
  | some c =>
    match c.start with
    | some t =>
      if !c.overTime && 2 ^ rd s (F.clCensuscfgToexp h) * 64 ≤ (s.now - t) * rd s (F.clClkstatFreq h) then
        clFault h (some ctx) (faultValue 0x28 0 0 0 0 0 (censusStep s ctx x c))
          (countCensus ctx (fun c => { c with overTime := true }) s)
      else s
    | none => s
  | none => s

/-! ### The rows -/

/-- CTX_LIVE (R50). -/
def execCtxLive (ctx : Nat) (s : State) : Host.Outcome State Fault Refusal := act 5 s (ctxLiveEff ctx)

/-- SLICE (R224). -/
def execSlice (d : Deliver) (s : State) : Host.Outcome State Fault Refusal := act 5 s (sliceEff d)

/-- ITERRET_APPLY (R62). -/
def execIterretApply (ctx loop : Nat) (s : State) : Host.Outcome State Fault Refusal :=
  act 5 s (iterretApplyEff ctx loop)

/-- RETURN_APPLY (R142). -/
def execReturnApply (ctx : Nat) (s : State) : Host.Outcome State Fault Refusal := act 5 s (returnApplyEff ctx)

/-- NOTICE (R137). -/
def execNotice (d : Deliver) (s : State) : Host.Outcome State Fault Refusal := act 5 s (noticeEff d)

/-- DELTA_FLUSH (R134). -/
def execDeltaFlush (cl pe ctx : Nat) (s : State) : Host.Outcome State Fault Refusal := act 5 s (deltaFlushEff cl pe ctx)

/-- CTX_QUIESCE_EFFECT (R76). -/
def execCtxQuiesceEffect (ctx : Nat) (s : State) : Host.Outcome State Fault Refusal :=
  act 5 s (ctxQuiesceEffectEff ctx)

/-- STALL_WIN1_EXPIRE (R141). -/
def execStallWin1Expire (cl : Nat) (s : State) : Host.Outcome State Fault Refusal := act 5 s (stallWin1Eff cl)

/-- STALL_WIN2_EXPIRE (R141). -/
def execStallWin2Expire (cl : Nat) (s : State) : Host.Outcome State Fault Refusal := act 5 s (stallWin2Eff cl)

/-- CENSUS_START (R142). -/
def execCensusStart (ctx cl : Nat) (s : State) : Host.Outcome State Fault Refusal := act 5 s (censusStartEff ctx cl)

/-- CENSUS_SCAN_DONE (R142). -/
def execCensusScanDone (ctx cl pe : Nat) (s : State) : Host.Outcome State Fault Refusal :=
  act 5 s (censusScanEff ctx cl pe)

/-- FLUSH (R142). -/
def execFlush (d : Deliver) (s : State) : Host.Outcome State Fault Refusal := act 5 s (flushEff d)

/-- CENSUS_GATE_PURGE (R170). -/
def execCensusGatePurge (ctx cl : Nat) (s : State) : Host.Outcome State Fault Refusal := act 5 s (censusGateEff ctx cl)

/-- CENSUS_END (R142). -/
def execCensusEnd (ctx : Nat) (s : State) : Host.Outcome State Fault Refusal := act 5 s (censusEndEff ctx)

/-- CENSUSTO (R142). -/
def execCensusto (ctx : Nat) (s : State) : Host.Outcome State Fault Refusal := act 5 s (censustoEff ctx)

end Sys2Proof.Machine
end

