-- ==== Sys2Proof/Machine/Banks.lean ====
section
/-! DEFINITION. Scratch banks, their ownership, deferred lists and sweep, and the lock cells (R65 to R68, R256 to R282,
R313). -/

namespace Sys2Proof.Machine

open Sys2Proof

/-! ### Ownership and fences (R261 to R264) -/

/-- An owner code accepts an initiator (R261). -/
def ownerAccepts (owner init : Nat) (write : Bool) : Bool :=
  if owner < 0x50 then init == owner
  else if owner = 0x50 then (0x50 ≤ init && init ≤ 0x53) || (init == 0x5C && !write)
  else if owner = 0x58 ∨ owner = 0x59 then init == owner
  else false

/-- The codes that SB_OWNERb takes (R261). -/
def ownerCode (o : Nat) : Bool := o ≤ 0x50 || o == 0x58 || o == 0x59 || o == 0xFF

/-- The row of a scratch address as a retire target (R391, R392). -/
def rowTarget (a : Nat) : Retire := ⟨1, 2, a / 2 ^ 20, a % 2 ^ 20 / 512⟩

def bankTarget (b : Nat) : Retire := ⟨4, 0, b, 0⟩

/-- A request writes: it needs an owner that accepts its writes (R261). -/
def Packet.writes (p : Packet) : Bool :=
  p.cmd == 0x41 || (p.cmd != 0x10 && p.cmd != 0x14 && p.cmd != 0x19 && p.cmd != 0x40)

/-- A request that has reached the station of bank `b`, and waits in the bank's queue (R267). -/
def atQueue (b : Nat) (p : Packet) : Bool :=
  p.dstn == bgStation b && p.dstp == b % 8 && p.isRequest && p.epoch != waiting && p.at_ == p.dstn
    && (p.vn != vnMgt || 0x1000000 ≤ p.mgtAddr)

/-- A request in the queue of bank `b` that the bank has accepted: its owner accepts it, and the fence is not set or was raised
after it had come (R262, R264). -/
def accepted (s : State) (b : Nat) (p : Packet) : Bool :=
  atQueue b p && (p.acc || (ownerAccepts (rd s (F.sbOwnerOwner b)) p.init p.writes && !rdB s (F.sbOwnerFence b)))

/-- The requests of a bank accepted and not yet answered (R263). -/
def openAt (s : State) (b : Nat) : Nat := (s.net.filter (accepted s b)).length

/-- Some request of the bank has come before the packet; those that came together enter its queue in the order of the rings
(R267). -/
def bankBehind (s : State) (b : Nat) (p : Packet) : Bool :=
  s.net.any fun q => accepted s b q && (q.came < p.came || (q.came == p.came && q.ring < p.ring))

/-- A request at bank `b`: refused by the owner check or the fence when it is delivered, or applied in its turn (R262, R264,
R267). The debug port passes both checks. None while it is not the first of the bank's queue. -/
def bankTurn (b : Nat) (write : Bool) (p : Packet) (refuse f : State → State) (s : State) : Option State :=
  if !p.acc && p.init != 0x5D && !ownerAccepts (rd s (F.sbOwnerOwner b)) p.init write then some (refuse (event 8 2 b s))
  else if !p.acc && p.init != 0x5D && rdB s (F.sbOwnerFence b) then some (refuse s)
  else if bankBehind s b p then none
  else some (f s)

/-- A REQ request at bank `b`. -/
def atBank (b : Nat) (write : Bool) (p : Packet) (f : State → State) (s : State) : Option State :=
  bankTurn b write p (reply p 0x21 stREFUSED []) f s

/-- What a read of the word at `a` finds: whether its data is lost, and the state with the error reported (R269). -/
def readWord (a : Nat) (e : Ecc) (s : State) : Bool × State :=
  let b := a / 2 ^ 20
  if scrBad s a || e == .uncorrectable then
    (true, fault { FEv.plain 8 1 b with detail := a, tgt := some (bankTarget b) } (setBad s a true))
  else if e = .corrected then (false, fault { FEv.plain 8 0 b with detail := a, tgt := some (rowTarget a) } s)
  else (false, s)

/-- All eight bytes of the word at `a` written. -/
def putWord (a v : Nat) (s : State) : State := setBad (scrPut s a v) a false

/-! ### Deferred lists (R65 to R67, R265) -/

/-- The deferred entries of bank `b`, oldest first. -/
def defersOf (s : State) (b : Nat) : List DefE := mget [] s.defers b

/-- The deferred list of a bank replaced, with its counts (R274). -/
def setDefers (b : Nat) (l : List DefE) (s : State) : State :=
  let s1 := { s with defers := mset [] s.defers b l }
  put (put s1 (F.sbDefUsed b) l.length) (F.sbDefHwm b) (max (rd s (F.sbDefHwm b)) l.length)

/-- The later answer to a deferred request (R231, R265). -/
def sendDef (b : Nat) (e : DefE) (status : Nat) (us : List Nat) (s : State) : State :=
  inject { src := bgStation b, dstn := e.station, dstp := e.rstop, ring := 0, cmd := 0x22, vn := vnRsp, epoch := 0,
           init := e.init, f := rspF e.txn status e.rstop, body := .units us, who := e.who, asker := e.asker } s

/-- Entries of the word at `a`. -/
def entriesAt (s : State) (a : Nat) : List DefE := (defersOf s (a / 2 ^ 20)).filter (·.addr == a)

/-- Every entry of the word at `a` answered with a status, and the word EMPTY. -/
def failWord (a status : Nat) (s : State) : State :=
  let b := a / 2 ^ 20
  let es := entriesAt s a
  forAll es (fun e => sendDef b e status []) (setDefers b ((defersOf s b).filter (·.addr != a)) (setPres s a 0))

/-- A value served to the list of its word: every IREAD up to and with the first MTAKE (R66). The entries that stay,
and the word's state. -/
def serveList (b v : Nat) : List DefE → State → List DefE × Nat × State
  | [], s => ([], 1, s)
  | e :: es, s =>
    let s1 := sendDef b e stOK [v] s
    if e.take then (es, (if es = [] then 0 else 2), s1) else serveList b v es s1

/-- The list of a bank without the first `n` entries of the word at `a`. -/
def dropServed (a : Nat) : Nat → List DefE → List DefE
  | _, [] => []
  | 0, l => l
  | n + 1, e :: es => if e.addr = a then dropServed a n es else e :: dropServed a (n + 1) es

/-- A value stored in an EMPTY or DEFERRED word. -/
def storePresence (a v : Nat) (s : State) : State :=
  let b := a / 2 ^ 20
  let s1 := putWord a v s
  let es := entriesAt s1 a
  match serveList b v es s1 with
  | (keep, st, s2) =>
    setPres (if es = [] then s2 else setDefers b (dropServed a (es.length - keep.length) (defersOf s2 b)) s2) a st

/-- The destination fields of the firing behind a request of a PE (R265). -/
def askerDests (s : State) (p : Packet) : List Dest :=
  match p.asker with
  | .pe k => (((s.pe k).reqs.find? (·.txn == p.txn)).map (·.dests)).getD []
  | _ => []

/-- A request deferred, or answered DEFFULL when the bank's pool of 2,048 is full (R67). -/
def deferReq (take : Bool) (p : Packet) (a : Nat) (s : State) : State :=
  let b := a / 2 ^ 20
  let l := defersOf s b
  if 2048 ≤ l.length then reply p 0x21 stDEFFULL [] (event 8 3 b s)
  else
    let e : DefE := ⟨a, take, p.init, p.src, p.rstop, p.txn, p.who, askerDests s p, p.asker⟩
    reply p 0x21 stDEFERRED [] (setPres (setDefers b (l ++ [e]) s) a 2)

/-- A presence state that reads uncorrectable counts as EMPTY, and its entries are answered UNCORR (R269). -/
def checkPres (a : Nat) (e : Ecc) (s : State) : State :=
  if e = .uncorrectable then
    let b := a / 2 ^ 20
    fault { FEv.plain 8 1 b with detail := a, tgt := some (bankTarget b) } (failWord a stUNCORR s)
  else s

/-! ### Operations on one word (R65, R257, R258) -/

/-- The scratch address of a PE request or a presence command. -/
def wordAddr (p : Packet) : Nat := p.addr % 2 ^ 25 / 8 * 8

/-- LOAD. -/
def loadAt (d : Deliver) (p : Packet) (s : State) : Option State :=
  let a := wordAddr p
  atBank (a / 2 ^ 20) false p (fun s =>
    match readWord a d.mem s with
    | (bad, s1) => if bad then reply p 0x21 stUNCORR [] s1 else reply p 0x20 stOK [scrGet s1 a] s1) s

/-- STORE of eight bytes. -/
def storeAt (d : Deliver) (p : Packet) (s : State) : Option State :=
  let a := wordAddr p
  atBank (a / 2 ^ 20) true p (fun s =>
    if d.data = .uncorrectable then reply p 0x21 stUNCORR [] s
    else reply p 0x21 stOK [] (putWord a (p.units.headD 0) s)) s

/-- BSET and BCLR of eight bytes. -/
def bitsAt (set : Bool) (d : Deliver) (p : Packet) (s : State) : Option State :=
  let a := wordAddr p
  atBank (a / 2 ^ 20) true p (fun s =>
    if d.data = .uncorrectable then reply p 0x21 stUNCORR [] s
    else
      match readWord a d.mem s with
      | (bad, s1) =>
        if bad then reply p 0x21 stUNCORR [] s1
        else
          let w := scrGet s1 a
          let m := p.units.headD 0 % 2 ^ 64
          reply p 0x21 stOK [] (scrPut s1 a (if set then w ||| m else w - (w &&& m)))) s

/-- IREAD and MTAKE. -/
def ireadAt (take : Bool) (d : Deliver) (p : Packet) (s : State) : Option State :=
  let a := wordAddr p
  atBank (a / 2 ^ 20) (write := take) p (fun s =>
    let s := checkPres a d.pres s
    if presOf s a = 1 then
      match readWord a d.mem s with
      | (bad, s1) =>
        let s2 := if take then setPres s1 a 0 else s1
        if bad then reply p 0x21 stUNCORR [] s2 else reply p 0x20 stOK [scrGet s2 a] s2
    else deferReq take p a s) s

/-- IWRITE and MPUT. -/
def iwriteAt (d : Deliver) (p : Packet) (s : State) : Option State :=
  let a := wordAddr p
  atBank (a / 2 ^ 20) true p (fun s =>
    let s := checkPres a d.pres s
    if d.data = .uncorrectable then reply p 0x21 stUNCORR [] s
    else if presOf s a = 1 then reply p 0x21 stISFULL [] s
    else reply p 0x21 stOK [] (storePresence a (p.units.headD 0) s)) s

/-- ICLEAR. -/
def iclearAt (d : Deliver) (p : Packet) (s : State) : Option State :=
  let a := wordAddr p
  atBank (a / 2 ^ 20) true p (fun s => reply p 0x21 stOK [] (failWord a stREFUSED (checkPres a d.pres s))) s

/-! ### READ and WRITE through the views (R257 to R260) -/

/-- A view and the scratch address behind a device address: 0 normal, 1 bit-set, 2 bit-clear, 3 presence. -/
def viewOf (da : Nat) : Option (Nat × Nat) :=
  if da < scrBase then none
  else
    let r := da - scrBase
    if r < 0x2000000 then some (0, r)
    else if r < 0x4000000 then some (1, r - 0x2000000)
    else if r < 0x6000000 then some (2, r - 0x4000000)
    else if r < 0x6100000 then some (3, (r - 0x6000000) * 32)
    else none

/-- The 64-bit presence view word of the 256-byte block at `a` (R259). -/
def presWord (s : State) (a : Nat) : Nat :=
  (List.range 32).foldl (fun m k => m + presOf s (a / 256 * 256 + 8 * k) * 4 ^ k) 0

/-- The words of `n` units read from `a` in ascending order; `e` is what the one at position `i` reads as. The flag tells of a lost
word. -/
def readWords (a i : Nat) : Nat → Ecc → State → List Nat × Bool × State
  | 0, _, s => ([], false, s)
  | n + 1, e, s =>
    match readWord a (if i = 0 then e else .ok) s with
    | (bad, s1) =>
      match readWords (a + 8) (i - 1) n (if i = 0 then .ok else e) s1 with
      | (ws, bad', s2) => (scrGet s1 a :: ws, bad || bad', s2)

/-- Words paired into units. -/
def pairUnits : List Nat → List Nat
  | [] => []
  | [w] => [w]
  | w :: v :: ws => (w + v * 2 ^ 64) :: pairUnits ws

/-- READ of the number of units that the request asks for (log entry 6). -/
def readAt (d : Deliver) (p : Packet) (s : State) : Option State :=
  let n := min (max (p.units.headD 1) 1) 8
  match viewOf (p.addr / 16 * 16) with
  | none => some (reply p 0x21 stNOTARGET [] s)
  | some (v, a) =>
    atBank (a / 2 ^ 20) false p (fun s =>
      if v = 3 then
        let s := if d.word < 64 * n then checkPres (a + 8 * d.word) d.pres s else s
        reply p 0x20 stOK (pairUnits ((List.range (2 * n)).map fun i => presWord s (a + 256 * i))) s
      else
        match readWords a d.word (2 * n) d.mem s with
        | (ws, bad, s1) => if bad then reply p 0x21 stUNCORR [] s1 else reply p 0x20 stOK (pairUnits ws) s1) s

/-- The bytes of `w` that a mask of disabled bytes leaves enabled, as a mask of bits. -/
def byteMask (dis : Nat) : Nat := (List.range 8).foldl (fun m i => if dis.testBit i then m else m + 255 * 256 ^ i) 0

/-- One word written through a view (R258, R269); the flag tells of a refusal for a lost word. -/
def writeWord (view a v dis : Nat) (e : Ecc) (s : State) : Bool × State :=
  let en := byteMask dis
  if en = 0 then (false, s)
  else if view = 0 && dis % 256 == 0 then (false, putWord a v s)
  else
    match readWord a e s with
    | (true, s1) => (true, s1)
    | (false, s1) =>
      let w := scrGet s1 a
      let x := v &&& en
      (false, scrPut s1 a (if view = 0 then (w - (w &&& en)) ||| x else if view = 1 then w ||| x else w - (w &&& x)))

/-- Words written in ascending order: value and mask of disabled bytes of each; the one at position `i` reads as `e`. -/
def writeWords (view a i : Nat) : List (Nat × Nat) → Ecc → State → Bool × State
  | [], _, s => (false, s)
  | (v, dis) :: ws, e, s =>
    match writeWord view a v dis (if i = 0 then e else .ok) s with
    | (bad, s1) => match writeWords view (a + 8) (i - 1) ws (if i = 0 then .ok else e) s1 with | (bad', s2) => (bad || bad', s2)

/-- The words of a data unit; bits 143:128 mark the bytes that are not enabled (log entry 6). -/
def unitWords (u : Nat) : List (Nat × Nat) := [(bits u 0 64, bits u 128 8), (bits u 64 64, bits u 136 8)]

/-- WRITE of one to eight units. -/
def writeAt (d : Deliver) (p : Packet) (s : State) : Option State :=
  match viewOf (p.addr / 16 * 16) with
  | none => some (reply p 0x21 stNOTARGET [] s)
  | some (v, a) =>
    atBank (a / 2 ^ 20) true p (fun s =>
      if v = 3 then reply p 0x21 stREFUSED [] s
      else if d.data = .uncorrectable then reply p 0x21 stUNCORR [] s
      else
        match writeWords v a d.word (p.units.flatMap unitWords) d.mem s with
        | (bad, s1) => reply p 0x21 (if bad then stUNCORR else stOK) [] s1) s

/-- The words that a complex beside bank `b` reads from it as initiator `init`: refused, and counted when OWNER does not accept it,
or the words and whether one of them is lost (R262, R264, R269). -/
def complexRead (init a n i : Nat) (e : Ecc) (s : State) : Option (List Nat × Bool) × State :=
  let b := a / 2 ^ 20
  if !ownerAccepts (rd s (F.sbOwnerOwner b)) init false then (none, event 8 2 b s)
  else if rdB s (F.sbOwnerFence b) then (none, s)
  else match readWords a i n e s with | (ws, bad, s1) => (some (ws, bad), s1)

/-! ### SB_OWNERb (R263, R264) -/

/-- An enabled or draining near-spill window lies in bank `b`. -/
def winInBank (s : State) (b : Nat) : Bool := (List.range 16).any fun cl => clWinInBank s cl b

/-- An enabled capture ring lies in bank `b`. -/
def ringInBank (s : State) (b : Nat) : Bool :=
  (List.range 64).any fun r => rdB s (F.cnvCapcfgEn r) && rd s (F.cnvCapcfgBank r) == b

/-- Bank `b` is being retired. -/
def bankRetiring (s : State) (b : Nat) : Bool :=
  match s.running with
  | some (r, _) => r.kind == 4 && r.unit == b
  | none => false

/-- Every deferred entry of the bank answered REFUSED, each word left without entries EMPTY. -/
def abortDefers (b : Nat) (s : State) : State :=
  forAll ((defersOf s b).map (·.addr)).eraseDups (fun a => failWord a stREFUSED) s

/-- The first condition that refuses an ownership request, as RESULT codes it. -/
def ownerResult (s : State) (b o : Nat) : Nat :=
  if defersOf s b != [] || openAt s b != 0 then 1
  else if winInBank s b then 2
  else if ringInBank s b then 3
  else if bankRetiring s b then 4
  else if !ownerCode o then 5
  else 0

/-- The requests that bank `b` has accepted keep their acceptance when the fence is raised (R264). -/
def keepAccepted (b : Nat) (s : State) : State :=
  { s with net := s.net.map fun p => if accepted s b p then { p with acc := true } else p }

/-- A write of SB_OWNERb: FENCE first, then ABORTDEF, then the ownership request if OWNER differs; a value that is no owner code
sets CFGERR whatever RESULT is (R8, R261). -/
def ownerWrite (b v : Nat) (s : State) : State :=
  let s1 := put (keepAccepted b s) (F.sbOwnerFence b) (bits v 16 1)
  let s2 := if v.testBit 17 then abortDefers b s1 else s1
  let o := v % 256
  if o = rd s2 (F.sbOwnerOwner b) then s2
  else
    let r := ownerResult s2 b o
    let s3 := put s2 (F.sbOwnerResult b) r
    if r = 0 then put (put s3 (F.sbOwnerOwner b) o) (F.sbOwnerFence b) 0
    else if ownerCode o then s3
    else cfgErr 8 s3

/-! ### BAR4 (R313) -/

/-- A host access through BAR4 passes the bank's checks. -/
def bar4Ok (write : Bool) (b : Nat) (s : State) : Bool :=
  ownerAccepts (rd s (F.sbOwnerOwner b)) 0x10 write && !rdB s (F.sbOwnerFence b)

/-- A read through BAR4: the bytes as a number, or Completer Abort (status 1). -/
def bar4ReadEff (addr len : Nat) (e : Ecc) (s : State) : State :=
  let b := addr % 2 ^ 25 / 2 ^ 20
  if !ownerAccepts (rd s (F.sbOwnerOwner b)) 0x10 false then emitOut (.barData 1 0) (event 8 2 b s)
  else if rdB s (F.sbOwnerFence b) then emitOut (.barData 1 0) s
  else
    let a := addr % 2 ^ 25 / 8 * 8
    match readWords a 0 ((addr % 8 + len + 7) / 8) e s with
    | (ws, bad, s1) =>
      let v := ws.reverse.foldl (fun m w => w + m * 2 ^ 64) 0
      emitOut (if bad then .barData 1 0 else .barData 0 (bits v (8 * (addr % 8)) (8 * len))) s1

/-- The word at 8-byte word `i` of a byte run that begins at offset `o` of its first word: value and disabled bytes. -/
def runWord (bytes : List Nat) (o i : Nat) : Nat × Nat :=
  (List.range 8).foldl (fun (m : Nat × Nat) k =>
    let j := 8 * i + k
    if o ≤ j ∧ j - o < bytes.length then (m.1 + bytes.getD (j - o) 0 % 256 * 256 ^ k, m.2) else (m.1, m.2 + 2 ^ k)) (0, 0)

/-- A write through BAR4 in the view of SB_BAR4CFG; a refused one is discarded and counted as OWNREFUSE. -/
def bar4WriteEff (addr : Nat) (bytes : List Nat) (s : State) : State :=
  let b := addr % 2 ^ 25 / 2 ^ 20
  if bar4Ok true b s then
    (writeWords (rd s F.sbBar4cfgView) (addr % 2 ^ 25 / 8 * 8) 0
      ((List.range ((addr % 8 + bytes.length + 7) / 8)).map (runWord bytes (addr % 8))) .ok s).2
  else event 8 2 b s

/-! ### The background sweep (R271, R272) -/

/-- The sweep passes over a bank: its group sleeps, it is being retired, or it is the spare in use. -/
def sweepSkips (s : State) (b : Nat) : Bool :=
  if b = 32 then rd s F.sbSpareState != 0
  else !stationRuns s (bgStation b) || bankRetiring s b

/-- The sweep moves to the next bank that it visits; after the last a pass is complete. -/
def sweepNextBank : Nat → Nat → State → State
  | 0, b, s => { s with sweep := ⟨b, 0, [], []⟩ }
  | n + 1, b, s =>
    let s1 := if b < 33 then s else put s F.sbSweeppassPasses (rd s F.sbSweeppassPasses + 1)
    let b1 := if b < 33 then b else 0
    if sweepSkips s1 b1 then sweepNextBank n (b1 + 1) s1 else { s1 with sweep := ⟨b1, 0, [], []⟩ }

/-- The row that the sweep tests, and whether it is a retry. -/
def Sweep.target (w : Sweep) : Option (Nat × Bool) :=
  if w.row < 2048 then some (w.row, false)
  else match w.interrupted with | (r, _) :: _ => some (r, true) | [] => none

/-- The sweep after the test of a row. -/
def sweepStep (row : Nat) (retry interrupted : Bool) (s : State) : State :=
  let w := s.sweep
  let n := match w.interrupted with | (_, k) :: _ => if retry then k + 1 else 1 | [] => 1
  let rest := if retry then w.interrupted.drop 1 else w.interrupted
  let skip := interrupted && 8 ≤ n
  let w1 := { w with row := if retry then w.row else w.row + 1,
                     interrupted := if interrupted && !skip then rest ++ [(row, n)] else rest }
  let s1 := { s with sweep := w1 }
  let s2 := if interrupted then putSat s1 F.sbSweepstatInterrupted 1 else s1
  let s3 := if skip then putSat s2 F.sbSweepstatSkipped 1 else s2
  if w1.target = none then sweepNextBank 34 (w1.bank + 1) s3 else s3

/-- Failing cells of a row are reported: as a column found failing in three rows of the bank in this pass, or as the
row (R272, R392). -/
def sweepWeak (b row : Nat) (cols : List Nat) (s : State) : State :=
  if cols = [] then s
  else
    let w := s.sweep
    let seen := w.weakCols ++ cols.map fun c => (c, row)
    let col := cols.find? fun c => ((seen.filter (·.1 == c)).map (·.2)).eraseDups.length == 3
    let tgt : Retire := match col with | some c => ⟨2, 2, b, c⟩ | none => ⟨1, 2, b, row⟩
    fault { FEv.plain 8 4 b with detail := b * 2 ^ 20 + row * 512, tgt := some tgt }
      (putSat { s with sweep := { w with weakCols := seen } } F.sbSweepstatWeak 1)

/-- The health of a word of a bank by its place in memory. -/
def setBadPhys (a : Nat) (s : State) : State := { s with bad := mset false s.bad (a / 8) true }

/-- A side-buffer unit uncorrectable at restore: its two words are lost (R271). -/
def sweepUnit (b row : Nat) (u : Option Nat) (s : State) : State :=
  match u with
  | some i =>
    let a := b * 2 ^ 20 + row * 512 + i % 32 * 16
    let p := scrBase + (if b = 32 then 32 else physBank s b) * 2 ^ 20 + a % 2 ^ 20
    fault { FEv.plain 8 5 b with detail := a, tgt := some (bankTarget b) } (setBadPhys (p + 8) (setBadPhys p s))
  | none => s

/-- One row test. -/
def sweepRowEff (r : SweepRow) (s : State) : State :=
  if rdB s F.sbSweepcfgEn then
    let s := if sweepSkips s s.sweep.bank then sweepNextBank 34 (s.sweep.bank + 1) s else s
    if sweepSkips s s.sweep.bank then s else
    match s.sweep.target with
    | some (row, retry) =>
      let b := s.sweep.bank
      sweepStep row retry r.interrupted (sweepWeak b row r.failing (sweepUnit b row r.badUnit s))
    | none => s
  else s

/-! ### Lock cells (R275 to R277) -/

/-- A request can carry the master ID: of a core's thread, of a function (agent 0 through BAR0, or the group of one of its
sessions), or of the debug port (R28, R280). -/
def masterOk (s : State) (m : Nat) : Bool :=
  let i := m / 256
  let a := m % 256
  if 0x10 ≤ i ∧ i < 0x50 then a == 0 || s.sessions.any fun e => e.2.st != .free && fnInit e.2.fn == i && e.2.group == a
  else if 0x50 ≤ i ∧ i ≤ 0x53 then a < 2
  else i == 0x5D && a == 0

/-- A write of LCK_CELLn with REL = 0. -/
def acquireEff (m c : Nat) (s : State) : State :=
  if c < 256 && !(s.lock c).held then s.updLock c fun x => { x with held := true, holder := m % 2 ^ 16 } else s

/-- A write of LCK_CELLn with REL = 1. -/
def releaseEff (m c : Nat) (s : State) : State :=
  if 256 ≤ c then s
  else if (s.lock c).held && (s.lock c).holder == m % 2 ^ 16 then s.setLock c .init
  else event 9 1 0 s

/-- A write of a cell's number to LCK_ACK. -/
def lockAckEff (m c : Nat) (s : State) : State :=
  if 256 ≤ c then s
  else if (s.lock c).held && (s.lock c).holder == m % 2 ^ 16 then s.updLock c fun x => { x with abandoned := false }
  else event 9 1 0 s

/-- A reset of the masters that `own` selects frees their cells and marks them (R276). -/
def abandonLocks (own : Nat → Bool) (s : State) : State :=
  forAll ((List.range 256).filter fun c => (s.lock c).held && own (s.lock c).holder)
    (fun c s => event 9 0 0 (s.setLock c ⟨false, 0, true⟩)) s

/-! ### Step 6 of the orphan census (R142, R266) -/

/-- A bank removes the deferred entries of a returning context; their requests end without an answer (R67). -/
def bankPurgeEff (ctx b : Nat) (s : State) : State :=
  match (s.ctx ctx).census with
  | some c =>
    if censusPast4 s ctx && b < 32 && !c.banks.contains b then
      let mine (e : DefE) : Bool := match e.who with | some (k, _) => k == ctx | none => false
      let out := (defersOf s b).filter mine
      let keep := (defersOf s b).filter (!mine ·)
      let s1 := setDefers b keep s
      let s2 := forAll out (fun e s =>
        let s' := if keep.any (·.addr == e.addr) then s else setPres s e.addr 0
        match e.asker with
        | .pe k => s'.updPe k fun p => { p with reqs := p.reqs.filter fun q => !(q.txn == e.txn && q.deferred) }
        | _ => s') s1
      countCensus ctx (fun c => { c with defer := c.defer + out.length, banks := c.banks ++ [b] }) s2
    else s
  | none => s

/-! ### The rows -/

/-- REQ_LOAD (R65). -/
def execReqLoad (d : Deliver) (s : State) : Host.Outcome State Fault Refusal := act 5 s (deliverEff d [0x10] (loadAt d))

/-- REQ_STORE (R65). -/
def execReqStore (d : Deliver) (s : State) : Host.Outcome State Fault Refusal := act 5 s (deliverEff d [0x11] (storeAt d))

/-- REQ_BSET (R258). -/
def execReqBset (d : Deliver) (s : State) : Host.Outcome State Fault Refusal :=
  act 5 s (deliverEff d [0x12] (bitsAt true d))

/-- REQ_BCLR (R258). -/
def execReqBclr (d : Deliver) (s : State) : Host.Outcome State Fault Refusal :=
  act 5 s (deliverEff d [0x13] (bitsAt false d))

/-- REQ_IREAD (R65). -/
def execReqIread (d : Deliver) (s : State) : Host.Outcome State Fault Refusal :=
  act 5 s (deliverEff d [0x14] (ireadAt false d))

/-- REQ_IWRITE (R65). -/
def execReqIwrite (d : Deliver) (s : State) : Host.Outcome State Fault Refusal :=
  act 5 s (deliverEff d [0x15] (iwriteAt d))

/-- REQ_ICLEAR (R65). -/
def execReqIclear (d : Deliver) (s : State) : Host.Outcome State Fault Refusal :=
  act 5 s (deliverEff d [0x16] (iclearAt d))

/-- REQ_MTAKE (R65). -/
def execReqMtake (d : Deliver) (s : State) : Host.Outcome State Fault Refusal :=
  act 5 s (deliverEff d [0x17] (ireadAt true d))

/-- REQ_MPUT (R65). -/
def execReqMput (d : Deliver) (s : State) : Host.Outcome State Fault Refusal :=
  act 5 s (deliverEff d [0x18] (iwriteAt d))

/-- REQ_READ (R257). -/
def execReqRead (d : Deliver) (s : State) : Host.Outcome State Fault Refusal := act 5 s (deliverEff d [0x19] (readAt d))

/-- REQ_WRITE (R257). -/
def execReqWrite (d : Deliver) (s : State) : Host.Outcome State Fault Refusal :=
  act 5 s (deliverEff d [0x1A] (writeAt d))

/-- OWNERSHIP_REQUEST (R263). -/
def execOwnershipRequest (b o : Nat) (fence : Bool) (s : State) : Host.Outcome State Fault Refusal :=
  act 5 s (whenS (b < 32) (ownerWrite b (o % 256 + bit fence * 2 ^ 16)))

/-- BANK_FENCE (R264): OWNER is written with its value in force. -/
def execBankFence (b : Nat) (s : State) : Host.Outcome State Fault Refusal :=
  act 5 s (whenS (b < 32) fun s => ownerWrite b (rd s (F.sbOwnerOwner b) + 2 ^ 16) s)

/-- ABORTDEF (R264): OWNER and FENCE are written with their values in force. -/
def execAbortdef (b : Nat) (s : State) : Host.Outcome State Fault Refusal :=
  act 5 s (whenS (b < 32) fun s =>
    ownerWrite b (rd s (F.sbOwnerOwner b) + rd s (F.sbOwnerFence b) * 2 ^ 16 + 2 ^ 17) s)

/-- BAR4_READ (R313). -/
def execBar4Read (addr len : Nat) (e : Ecc) (s : State) : Host.Outcome State Fault Refusal :=
  act 5 s (bar4ReadEff addr len e)

/-- BAR4_WRITE (R313). -/
def execBar4Write (addr : Nat) (bytes : List Nat) (s : State) : Host.Outcome State Fault Refusal :=
  act 5 s (bar4WriteEff addr bytes)

/-- SWEEP_ROW_START (R272). -/
def execSweepRowStart (r : SweepRow) (s : State) : Host.Outcome State Fault Refusal := act 5 s (sweepRowEff r)

/-- LOCK_ACQUIRE (R275). -/
def execLockAcquire (m c : Nat) (s : State) : Host.Outcome State Fault Refusal :=
  act 3 s (whenS (masterOk s m) (acquireEff m c))

/-- LOCK_RELEASE (R275). -/
def execLockRelease (m c : Nat) (s : State) : Host.Outcome State Fault Refusal :=
  act 3 s (whenS (masterOk s m) (releaseEff m c))

/-- LOCK_ACK (R277). -/
def execLockAck (m c : Nat) (s : State) : Host.Outcome State Fault Refusal :=
  act 3 s (whenS (masterOk s m) (lockAckEff m c))

/-- CENSUS_BANK_PURGE (R266). -/
def execCensusBankPurge (ctx b : Nat) (s : State) : Host.Outcome State Fault Refusal := act 5 s (bankPurgeEff ctx b)

end Sys2Proof.Machine
end

