-- ==== Sys2Proof/Machine/Crc.lean ====
section
/-! DEFINITION. The cyclic redundancy checks of the device (R126, R188, R361, R398, R439). -/

namespace Sys2Proof.Machine

open Sys2Proof

/-- `n` bit steps of a reflected code. -/
def crcStepR (poly : Nat) : Nat → Nat → Nat
  | 0, c => c
  | n + 1, c => crcStepR poly n (if c % 2 = 1 then (c / 2) ^^^ poly else c / 2)

/-- A reflected code over bytes. -/
def crcR (poly init : Nat) (bs : List Nat) : Nat :=
  bs.foldl (fun c b => crcStepR poly 8 (c ^^^ (b % 256))) init ^^^ init

/-- CRC-64/XZ. -/
def crc64 (bs : List Nat) : Nat := crcR 0xC96C5795D7870F42 (2 ^ 64 - 1) bs

/-- CRC-32C (Castagnoli). -/
def crc32c (bs : List Nat) : Nat := crcR 0x82F63B78 (2 ^ 32 - 1) bs

/-- `n` bit steps of a code of `w` bits that is not reflected. -/
def crcStepL (w poly : Nat) : Nat → Nat → Nat
  | 0, c => c
  | n + 1, c =>
    let t := c * 2 % 2 ^ w
    crcStepL w poly n (if c.testBit (w - 1) then t ^^^ poly else t)

/-- A code that is not reflected, over bytes, with no final inversion. -/
def crcL (w poly init : Nat) (bs : List Nat) : Nat :=
  bs.foldl (fun c b => crcStepL w poly 8 (c ^^^ (b % 256) * 2 ^ (w - 8))) init

/-- CRC-16/IBM-3740: polynomial 0x1021, initial value 0xFFFF (R188). -/
def crc16 (bs : List Nat) : Nat := crcL 16 0x1021 0xFFFF bs

/-- CRC-8: polynomial 0x07, initial value 0 (R439). -/
def crc8 (bs : List Nat) : Nat := crcL 8 0x07 0 bs

end Sys2Proof.Machine
end

