-- ==== Sys2Proof/Machine/SpanTx.lean ====
section
/-! DEFINITION. Sending on a span port: codewords and their code, credits and the replay buffer (R244 to R246). -/

namespace Sys2Proof

/-! ### The fields of a received codeword (R244) -/

def Codeword.seq (c : Codeword) : Nat := bits c.msg 0 6
def Codeword.ack (c : Codeword) : Nat := bits c.msg 6 6
def Codeword.fho (c : Codeword) : Nat := bits c.msg 12 6
def Codeword.nak (c : Codeword) : Bool := c.msg.testBit 18
def Codeword.isNull (c : Codeword) : Bool := c.msg.testBit 19

/-- The forty units of a codeword. -/
def Codeword.units (c : Codeword) : List Nat := (List.range 40).map fun k => bits c.msg (20 + 128 * k) 128

end Sys2Proof

namespace Sys2Proof.Machine

open Sys2Proof

/-- The state of a span port (R254). -/
def spanState (s : State) (p : Nat) : Nat := rd s (F.spnPortstatState p)

/-- A span port is TRAINED. -/
def spanTrained (s : State) (p : Nat) : Bool := spanState s p == 5

/-- The credit counter of a packet on a link: TOK class 0 and 1, MGT class 0 and 1 (R246). The class stands in header
bit 27, the packet's epoch. -/
def creditIdx (p : Packet) : Nat := (if p.vn = vnTok then 0 else 2) + p.epoch % 2

/-! ### Codewords (R244) -/

/-- The message of a codeword: control, then its units of 128 bits. -/
def message (seq ack fho : Nat) (nak null : Bool) (us : List Nat) : Nat :=
  seq % 2 ^ 6 + ack % 2 ^ 6 * 2 ^ 6 + fho % 2 ^ 6 * 2 ^ 12 + bit nak * 2 ^ 18 + bit null * 2 ^ 19
    + us.foldr (fun u m => u % 2 ^ 128 + m * 2 ^ 128) 0 * 2 ^ 20

/-- A product in GF(2^10), of the polynomial x^10 + x^3 + 1 (PRESUMED, log entry 82). -/
def gfMul (a b : Nat) : Nat :=
  (List.range 10).foldr (fun i r =>
    let r2 := if 512 ≤ r then (2 * r) ^^^ 0x409 else 2 * r
    if b.testBit i then r2 ^^^ a else r2) 0

/-- The coefficients below the highest of the generator polynomial, the lowest first: its roots are the powers 0 to 29 of 2
(PRESUMED, log entry 82). -/
def rsGenerator : List Nat :=
  ((List.range 30).foldl (fun (x : Nat × List Nat) _ =>
    (gfMul x.1 2, List.zipWith (· ^^^ ·) (0 :: x.2) (x.2.map (gfMul x.1) ++ [0]))) (1, [1])).2.take 30

/-- The thirty parity symbols of message symbols, the highest first: the remainder of the division by the generator. -/
def rsParity (ms : List Nat) : List Nat :=
  (ms.foldl (fun (r : List Nat) m =>
    let q := m ^^^ r.headD 0
    List.zipWith (· ^^^ ·) (r.drop 1 ++ [0]) (rsGenerator.reverse.map (gfMul q))) (List.replicate 30 0))

/-- The 544 symbols of a codeword: the message's, then its parity. -/
def rsSymbols (msg : Nat) : List Nat :=
  let ms := (List.range 514).map fun j => bits msg (10 * j) 10
  ms ++ rsParity ms

/-- The symbols that lane `l` carries: symbol `j` travels on lane `j` modulo 4. -/
def laneSymbols (msg l : Nat) : List Nat :=
  (List.range 136).map fun i => (rsSymbols msg).getD (4 * i + l) 0

/-- The units of a packet on a link: header and data. The class stands in the epoch's bit (R246). -/
def Packet.linkUnits (p : Packet) : List Nat := { p with ring := 0 }.header :: p.units.take p.len

/-- A packet as its header leaves: the time that it has waited for transmission counts in the latency of a phase frame (R250) and
in the holding time of an ECHO (R249). -/
def Packet.leaving (now : Nat) (p : Packet) : Packet :=
  if p.cmd = 0x44 then { p with f := setBits p.f 24 32 (bits p.f 24 32 + (now - p.came) * 625) }
  else if p.cmd = 0x73 then { p with f := setBits p.f 64 16 (bits p.f 64 16 + (now - p.came)) }
  else p

/-- A queue sorted into the packets that begin in the next codeword and those that wait: a packet without credit holds back those of
its class. -/
structure Fit where
  take : List Packet
  keep : List Packet
  credits : List Nat
  room : Nat
  held : List Nat
  deriving DecidableEq, Repr

/-- One packet considered for the codeword, of which `room` units are free; while the port is not TRAINED only LINK units
travel. -/
def fitOne (trained : Bool) (f : Fit) (p : Packet) : Fit :=
  if f.room = 0 then { f with keep := f.keep ++ [p] }
  else if p.vn = vnLink then { f with take := f.take ++ [p], room := f.room - p.size }
  else
    let c := creditIdx p
    if !trained || f.held.contains c || f.credits.getD c 0 < p.size then
      { f with keep := f.keep ++ [p], held := c :: f.held }
    else { f with take := f.take ++ [p], credits := f.credits.set c (f.credits.getD c 0 - p.size), room := f.room - p.size }

/-- A LINK unit (R246). -/
def linkUnit (cmd f : Nat) : Packet :=
  { src := 25, dstn := 25, dstp := 0, ring := 0, cmd := cmd, vn := vnLink, epoch := 0, init := 0x5B, f := f,
    body := .units [], who := none, asker := .nobody }

/-- FHO of a codeword that begins with the rest of a packet: where its first header lies, or 63 when it holds none (R244). -/
def fhoOf (part : List Nat) : Nat := if part.length < 40 then part.length else 63

/-- A sequenced codeword leaves, and is kept until it is acknowledged. -/
def sendSequenced (port fho : Nat) (us : List Nat) (s : State) : State :=
  let x := s.span port
  emitOut (.span port (message x.txSeq ((x.rxSeq + 63) % 64) fho x.nakOwed false us)) <|
    s.setSpan port { x with replay := x.replay ++ [(x.txSeq, fho, us)], txSeq := (x.txSeq + 1) % 64, nakOwed := false }

/-- A NULL codeword leaves: control only (R245). -/
def sendNull (port : Nat) (nak : Bool) (s : State) : State :=
  let x := s.span port
  emitOut (.span port (message 0 ((x.rxSeq + 63) % 64) 63 nak true [])) s

/-- Codewords leave while packets with credit wait; with 32 of them unacknowledged a NULL codeword leaves in their place. -/
def spanFlushN (port : Nat) : Nat → State → State
  | 0, s => s
  | n + 1, s =>
    let x := s.span port
    let st := spanState s port
    let f := x.sendQ.foldl (fitOne (st == 5)) ⟨[], [], x.credits, 40 - x.txPart.length, []⟩
    if st < 3 ∨ (f.take = [] ∧ x.txPart = []) then s
    else if 32 ≤ x.replay.length then sendNull port x.nakOwed s
    else
      let us := x.txPart ++ f.take.flatMap fun p => (p.leaving s.now).linkUnits
      spanFlushN port n <| sendSequenced port (fhoOf x.txPart)
        (us.take 40 ++ List.replicate (40 - us.length) (linkUnit 0x70 0).header) <|
        s.setSpan port { x with sendQ := f.keep, credits := f.credits, txPart := us.drop 40 }

/-- The port sends what it can. -/
def spanFlush (port : Nat) (s : State) : State := spanFlushN port 33 s

/-- A packet joins the port's queue. -/
def spanSend (port : Nat) (p : Packet) (s : State) : State :=
  spanFlush port (s.updSpan port fun x => { x with sendQ := x.sendQ ++ [{ p with came := s.now }] })

end Sys2Proof.Machine
end

