-- ==== Sys2Proof/Machine/Phase.lean ====
section
/-! DEFINITION. The phase engine and the release passes of the phase gates: events, noon marks, the estimator, the
envelope, the states of a source and the phase bus (R147 to R180). -/

namespace Sys2Proof.Machine

open Sys2Proof

/-! ### Configuration of a source -/

/-- TYPE of source `n` (R150): 0 OFF, 1 QUAD, 2 PULSE, 3 STEPDIR, 4 TACH, 5 MAINS, 6 NETTIME, 7 SPAN, 8 DERIVED. -/
def srcType (s : State) (n : Nat) : Nat := rd s (F.phSrccfgType n)

/-- Counts per turn. -/
def srcCpt (s : State) (n : Nat) : Nat := rd s (F.phSrccptCptm1 n) + 1

/-- QUAD, PULSE, STEPDIR and MAINS. -/
def isCountType (t : Nat) : Bool := t == 1 || t == 2 || t == 3 || t == 5

/-- etu per second. -/
def etuSec : Int := 1600000000

/-- The 64-bit pattern of a position or a velocity. -/
def pat (i : Int) : Nat := wrap 64 i

/-- The position of a count in pu (R151). -/
def posOf (turns : Int) (k cpt : Nat) : Int := turns * 2 ^ 32 + (k * 2 ^ 32 / cpt : Nat)

/-- +1 forward, −1 reverse. -/
def dirOf (rev : Bool) : Int := if rev then -1 else 1

/-- The count one step on in a direction. -/
def nextCount (turns : Int) (k cpt : Nat) (rev : Bool) : Int × Nat :=
  if rev then (if k = 0 then (turns - 1, cpt - 1) else (turns, k - 1))
  else if k + 1 < cpt then (turns, k + 1) else (turns + 1, 0)

/-- The limit of R154: the position of the next count in the direction of the source, less one pu towards it. -/
def limOf (x : PhSrc) (cpt : Nat) : Int :=
  match nextCount x.turns x.k cpt x.rev with
  | (t, k) => posOf t k cpt - dirOf x.rev

/-! ### States as published (R158, R161, R178) -/

/-- The worse of two states in the order LOCKED, COASTING, STALLED; ACQUIRING and OFF of the receiver stand. -/
def worse (own remote : Nat) : Nat :=
  if own < 2 then own
  else if remote < 2 then 4
  else max own remote

/-- The state of a source as published: a DERIVED source has its parent's, once the parent has been LOCKED after a restart of its
own (R158, R162), and a switched one its alternative's. -/
def pubState (s : State) : Nat → Nat → Nat
  | 0, _ => 0
  | f + 1, n =>
    let t := srcType s n
    let x := s.ph n
    if t = 0 then 0
    else if t = 8 then (if x.state = 1 then 1 else pubState s f (rd s (F.phSrcauxAux n) % 16))
    else if x.switched then pubState s f (rd s (F.phSrccfgAlt n))
    else if t = 7 then worse x.state (bits x.remote 0 3)
    else x.state

/-- The direction of a source as published: reverse. -/
def pubRev (s : State) : Nat → Nat → Bool
  | 0, _ => false
  | f + 1, n =>
    if srcType s n = 8 then pubRev s f (rd s (F.phSrcauxAux n) % 16)
    else if (s.ph n).switched then pubRev s f (rd s (F.phSrccfgAlt n))
    else (s.ph n).rev

/-- The states of the sixteen sources. -/
def pubStates (s : State) : List Nat := (List.range 16).map (pubState s 17)

/-! ### Gates at a stall or restart (R168) and the drive's STALL cause (R207) -/

/-- One entry leaves the gate of a cluster. -/
def gateOut (cl : Nat) (e : GateE) (s : State) : State :=
  gateSend cl e.tok (s.updCl cl fun c => { c with gate := eraseFirst e c.gate })

/-- The waiting entries of a source in the order of one of its lists, by their distance along the direction (R167). -/
def gateLists (s : State) (cl n : Nat) (fwd : Bool) : List GateE :=
  let pb := (s.bs (cl * 16 + n)).pb
  ((s.cl cl).gate.filter fun e => e.src == n && e.fwd == fwd).mergeSort fun a b =>
    decide (along fwd (phDiff a.rel pb) ≤ along fwd (phDiff b.rel pb))

/-- The tokens of a source that `p` selects leave with the next release pass in which their context is LIVE. -/
def gateFree (cl n : Nat) (p : GateE → Bool) (s : State) : State :=
  s.updCl cl fun c => { c with gate := c.gate.map fun e => if e.src = n ∧ p e = true then { e with free := true } else e }

/-- One waiting token treated under its context's STALLPOL of fault. -/
def stallToken (cl n : Nat) (e : GateE) (s : State) : State :=
  let ctx := e.tok.tag.ctx
  let x := s.ctx ctx
  if x.d.stallpol = 2 && !x.phStalled then
    clFault cl (some ctx) (faultValue 0x30 0 0 0 0 0 n) (s.updCtx ctx fun x => { x with phStalled := true })
  else s

/-- The stall policies of every token that waits on source `n`: release all with the next pass, a fault, or hold (R168). -/
def stallPolicy (n : Nat) (s : State) : State :=
  forAll (List.range 16) (fun cl s =>
    forAll (gateLists s cl n true ++ gateLists s cl n false) (stallToken cl n)
      (gateFree cl n (fun e => (s.ctx e.tok.tag.ctx).d.stallpol == 1) s)) s

/-- The STALL cause of every enabled schedule on source `n` (R207). -/
def drvStall (n : Nat) (s : State) : State :=
  forAll (List.range 16) (fun u s =>
    if rdB s (F.drvSchedcfgEn u) && rd s (F.drvSchedcfgSrc u) == n then
      abortBy (16 + u) (fun c => rd s (F.drvChcfgSched c) == u) s
    else s) s

/-- What a change of the published state of a source brings (R160, R168, R207). -/
def stateChanged (n old new : Nat) (s : State) : State :=
  if old = new then s
  else if new = 3 then event 3 0 n s
  else if new = 4 then drvStall n (stallPolicy n (event 3 1 n s))
  else if new = 2 then
    { s with ctxs := s.ctxs.map fun e => if e.2.d.phsrc = n then (e.1, { e.2 with phStalled := false }) else e }
  else s

/-- The live bits of COAST and STALL, and the bits of PH_SUM (R163, R379). -/
def phLive (s : State) : State :=
  let ps := pubStates s
  let mask (v : Nat) : Nat := (List.range 16).foldl (fun m n => if ps.getD n 0 = v then m + 2 ^ n else m) 0
  put (put (setLive 3 1 (ps.contains 4) (setLive 3 0 (ps.contains 3) s)) F.phSumLocked (mask 2)) F.phSumStalled (mask 4)

/-- A change of source states with all that follows from it. -/
def withStates (f : State → State) (s : State) : State :=
  let a := pubStates s
  let s1 := f s
  let b := pubStates s1
  phLive (forAll (List.range 16) (fun n => stateChanged n (a.getD n 0) (b.getD n 0)) s1)

/-! ### Events (R151, R154, R156, R158) -/

/-- The history with an event, holding the last 2^NEXP + 1. -/
def pushEvent (s : State) (n : Nat) (h : List PhEvent) (e : PhEvent) : List PhEvent :=
  let l := h ++ [e]
  l.drop (l.length - (2 ^ rd s (F.phSrccfgNexp n) + 1))

/-- The state after an event: COASTING ends, and the second event within VWIN of the first ends a stall. -/
def eventState (s : State) (n te : Nat) (x : PhSrc) : PhSrc :=
  if x.state = 3 then { x with state := 2 }
  else if x.state = 4 then
    match x.stallFirst with
    | some t =>
      if te ≤ t + msEtu (rd s (F.phSrctimeVwin n)) then { x with state := 2, stallFirst := none }
      else { x with stallFirst := some te }
    | none => { x with stallFirst := some te }
  else x

/-- A count event of source `n`: the count, the measured phase, the run towards a reversal. -/
def countStep (n : Nat) (rev : Bool) (te : Nat) (s : State) : State :=
  let x := s.ph n
  let cpt := srcCpt s n
  match nextCount x.turns x.k cpt rev with
  | (t, k) =>
    let pm := posOf t k cpt
    let run := if rev = x.rev then 0 else x.run + 1
    let turn := decide (2 ^ rd s (F.phSrccfgRevdb n) ≤ run)
    let e : PhEvent := ⟨pm, te⟩
    let x1 := { x with
      turns := t, k := k, run := if turn then 0 else run, rev := if turn then rev else x.rev,
      reversed := x.reversed || turn, hist := if turn then [e] else pushEvent s n x.hist e, p0 := pm, t0 := te,
      events := x.events + 1, sinceTimeout := x.sinceTimeout + 1, lastEvent := te }
    let x2 := eventState s n te { x1 with lim := limOf x1 cpt }
    let s1 := put s (F.phSrceventsCount n) (rd s (F.phSrceventsCount n) + 1)
    let s2 := if turn then putSat s1 (F.phSrcstatReversals n) 1 else s1
    withStates (fun s => s.setPh n x2) s2

/-- The sources of some types on an input triplet. -/
def sourcesOn (s : State) (tri : Nat) (types : List Nat) : List Nat :=
  (List.range 16).filter fun n => types.contains (srcType s n) && rd s (F.phSrccfgInput n) == tri

/-- The level of a line of a triplet: 0 A, 1 B. -/
def lineLevel (s : State) (tri l : Nat) : Bool := mget 0 s.inputs (tri * 4 + l) == 1

/-- Position of a pair of levels in the forward sequence, A leading B. -/
def quadPos (a b : Bool) : Nat := if a then (if b then 2 else 1) else (if b then 3 else 0)

/-- A change of A and B of a triplet at one source (R150, R151). -/
def countAt (tri : Nat) (a b : Bool) (te n : Nat) (s : State) : State :=
  let a0 := lineLevel s tri 0
  let b0 := lineLevel s tri 1
  let inv := rdB s (F.phSrccfgDirinv n)
  let t := srcType s n
  if t = 1 then
    if a ≠ a0 ∧ b ≠ b0 then event 3 4 n (put s (F.phSrcstatGlitched n) 1)
    else if a ≠ a0 ∨ b ≠ b0 then
      countStep n (((quadPos a b + 4 - quadPos a0 b0) % 4 == 3) != inv) te s
    else s
  else if t = 2 then (if a && !a0 then countStep n inv te s else s)
  else if a && !a0 then countStep n ((!b) != inv) te s
  else s

/-- A filtered level change on a triplet. -/
def countEventEff (tri : Nat) (a b : Bool) (te : Nat) (s : State) : State :=
  let s1 := forAll (sourcesOn s tri [1, 2, 3]) (countAt tri a b te) s
  { s1 with inputs := mset 0 (mset 0 s1.inputs (tri * 4) (bit a)) (tri * 4 + 1) (bit b) }

/-- A zero-cross edge of a MAINS input. -/
def mainsEdgeEff (tri te : Nat) (s : State) : State := forAll (sourcesOn s tri [5]) (fun n => countStep n false te) s

/-! ### Noon mark (R157) -/

/-- A distance of counts as a signed number of at most half a turn. -/
def noonDist (k cpt : Nat) : Int := if 2 * k ≤ cpt then (k : Int) else (k : Int) - cpt

/-- Homing: the position at the edge becomes the origin, and the history moves with it. -/
def home (te : Nat) (x : PhSrc) (cpt : Nat) : PhSrc :=
  let d := posOf x.turns x.k cpt
  let x1 := { x with turns := 0, k := 0, p0 := 0, t0 := te, hist := x.hist.map (fun (e : PhEvent) => (⟨e.pm - d, e.te⟩ : PhEvent)),
                     homed := true, homePending := true }
  { x1 with lim := limOf x1 cpt }

/-- The count set to the noon mark, and the estimate with it. -/
def noonCorrect (x : PhSrc) (cpt : Nat) : PhSrc :=
  let t := if noonDist x.k cpt < 0 then x.turns + 1 else x.turns
  let d := posOf t 0 cpt - posOf x.turns x.k cpt
  let x1 := { x with turns := t, k := 0, p0 := x.p0 + d, hist := x.hist.map (fun (e : PhEvent) => (⟨e.pm + d, e.te⟩ : PhEvent)) }
  { x1 with lim := limOf x1 cpt }

/-- The Z edge at one source. -/
def noonAt (te n : Nat) (s : State) : State :=
  let mode := rd s (F.phSrccfgNoonmode n)
  let x := s.ph n
  let cpt := srcCpt s n
  if mode = 0 then s
  else if !x.homed then
    put (s.setPh n (home te x cpt)) (F.phSrcstatHomed n) 1
  else if mode = 1 then s
  else
    let d := noonDist x.k cpt
    let s1 := put s (F.phSrcnoonerrErr n) (wrap 32 d)
    let s2 := if rd s (F.phSrcnoonNoontol n) < d.natAbs then event 3 3 n s1 else s1
    if mode = 3 then s2.setPh n (noonCorrect x cpt) else s2

def noonMarkEff (tri te : Nat) (s : State) : State := forAll (sourcesOn s tri [1, 2, 3]) (noonAt te) s

/-! ### Timeouts (R158, R160, R161) -/

/-- The edge timeout of a source in etu. -/
def edgeTimeout (s : State) (n : Nat) : Nat :=
  let t := srcType s n
  let f := rd s (F.phSrccfgEdgeto n) + 2
  if t = 6 then f * 1600000000
  else if t = 7 then 4 * rd s F.phExportInt * 8
  else
    let vwin := msEtu (rd s (F.phSrctimeVwin n))
    let v := (s.ph n).v.natAbs
    max 160 (if v = 0 then vwin else min (f * 2 ^ 32 * 1600000000 / (srcCpt s n * v)) vwin)

/-- The scaled word of the alternative (R161). -/
def scalePb (pb ratio : Nat) : Nat := wrap 64 (signed 64 pb * ratio / 2 ^ 16)

/-- The alternative of a source is enabled and LOCKED. -/
def altLocked (s : State) (n : Nat) : Bool :=
  rdB s (F.phSrccfgAlten n) && pubState s 17 (rd s (F.phSrccfgAlt n)) == 2

/-- The switch to the alternative. -/
def switchAlt (n : Nat) (s : State) : State :=
  let x := s.ph n
  let a := scalePb (s.ph (rd s (F.phSrccfgAlt n))).pb (rd s (F.phSrcratioRatio n))
  event 3 2 n (put (s.setPh n { x with switched := true, swOffs := (x.pb + 2 ^ 64 - a) % 2 ^ 64, sinceTimeout := 0 })
    (F.phSrcstatSwitched n) 1)

/-- A source stops its estimator on entry to STALLED. -/
def stallSrc (x : PhSrc) : PhSrc := { x with state := 4, hist := [], stallFirst := none, v := 0 }

/-- The estimator works on this source: it has events of its own. -/
def hasEvents (t : Nat) : Bool := 1 ≤ t && t ≤ 7

/-- No event within the edge timeout. -/
def edgeTimeoutEff (n : Nat) (s : State) : State :=
  let x := s.ph n
  if n < 16 && hasEvents (srcType s n) && x.state == 2 && x.lastEvent + edgeTimeout s n ≤ s.now then
    let s1 := s.setPh n { x with sinceTimeout := 0 }
    withStates (fun s =>
      if x.switched then s.updPh n fun x => { x with state := 3, coastAt := s.now }
      else if altLocked s n then switchAlt n (s.updPh n fun x => { x with state := 3, coastAt := s.now })
      else if rd s (F.phSrctimeHorizon n) = 0 then s.updPh n stallSrc
      else s.updPh n fun x => { x with state := 3, coastAt := s.now }) s1
  else s

/-- The coasting horizon expires: a switch to a LOCKED alternative, or STALLED (R174). -/
def horizonExpireEff (n : Nat) (s : State) : State :=
  let x := s.ph n
  if n < 16 && hasEvents (srcType s n) && x.state == 3 && !x.switched
      && x.coastAt + usEtu (rd s (F.phSrctimeHorizon n)) ≤ s.now then
    withStates (fun s => if altLocked s n then switchAlt n s else s.updPh n stallSrc) s
  else s

/-! ### The tick (R147, R148, R154, R155, R159, R161) -/

/-- The history without all but the newest entry older than VWIN before the newest. -/
def dropOld (vwin : Nat) (h : List PhEvent) : List PhEvent :=
  match h.getLast? with
  | none => []
  | some e =>
    let old := (h.filter fun x => x.te + vwin < e.te).length
    h.drop (old - 1)

/-- The velocity over the history, truncated towards zero. -/
def histVel (h : List PhEvent) : Int :=
  match h.head?, h.getLast? with
  | some a, some b => if a.te < b.te then ((b.pm - a.pm) * etuSec).tdiv ((b.te : Int) - a.te) else 0
  | _, _ => 0

/-- The estimator of one source at a tick whose application edge is `a`. -/
def estimate (s : State) (n a : Nat) (x : PhSrc) : PhSrc :=
  let t := srcType s n
  let h := dropOld (msEtu (rd s (F.phSrctimeVwin n))) x.hist
  let x := if t = 6 ∨ t = 7 then x else { x with hist := h, v := histVel h }
  let home := rd s (F.phSrccfgNoonmode n) = 0 ∨ x.homed
  let x := if x.state = 1 ∧ 2 ≤ x.events ∧ home then { x with state := 2, enterLocked := true } else x
  if x.state = 4 ∧ x.stallFirst = none then x
  else
    let raw := x.p0 + (x.v * ((a : Int) - x.t0)).tdiv etuSec
    let lim := x.state == 2 && isCountType t
    { x with pi := if lim then (if x.rev then max raw x.lim else min raw x.lim) else raw }

/-- The envelope of R155; in ACQUIRING the word is frozen but for homing (R162). -/
def envelope (jump fwd : Bool) (acquiring : Bool) (pi pb : Nat) : Nat :=
  if jump then pi
  else if acquiring then pb
  else
    let d := phDiff pi pb
    if fwd then (if 0 < d then pi else pb) else if d < 0 then pi else pb

/-- How many sources stand above one in the chain of parents and alternatives. -/
def chainDepth (s : State) : Nat → Nat → Nat
  | 0, _ => 0
  | f + 1, n =>
    if srcType s n = 8 then chainDepth s f (rd s (F.phSrcauxAux n) % 16) + 1
    else if (s.ph n).switched then chainDepth s f (rd s (F.phSrccfgAlt n)) + 1
    else 0

/-- A restarted DERIVED source enters LOCKED with its parent (R162). -/
def derivedLock (n : Nat) (s : State) : State :=
  if srcType s n = 8 ∧ (s.ph n).state = 1 ∧ pubState s 17 (rd s (F.phSrcauxAux n) % 16) = 2 then
    s.updPh n fun x => { x with state := 2, enterLocked := true }
  else s

/-- What one source publishes in this tick, its parent or alternative having published; `jumps` lists the sources whose
word moved freely. -/
def publish (n : Nat) (st : State × List Nat) : State × List Nat :=
  match st with
  | (s, jumps) =>
    let t := srcType s n
    let x := s.ph n
    let state := pubState s 17 n
    let status (rev : Bool) : Nat := state + 8 * bit rev
    if t = 0 then (s.setPh n { x with pv := 0, pst := 0, turned := false }, jumps)
    else if t = 8 then
      let p := rd s (F.phSrcauxAux n) % 16
      let y := s.ph p
      let r := rd s (F.phSrcratioRatio n)
      let rev := y.pst.testBit 3
      let j := x.enterLocked || (jumps.contains p && x.state != 1)
      let pb := envelope j (!rev) (state == 1) (scalePb y.pb r) x.pb
      (s.setPh n { x with pb := pb, pv := if state = 1 then 0 else y.pv * r / 2 ^ 16, pst := status rev, turned := y.turned,
                          enterLocked := false }, if j then n :: jumps else jumps)
    else if x.switched then
      let p := rd s (F.phSrccfgAlt n)
      let y := s.ph p
      let r := rd s (F.phSrcratioRatio n)
      (s.setPh n { x with pb := (scalePb y.pb r + x.swOffs) % 2 ^ 64, pv := y.pv * r / 2 ^ 16,
                          pst := status (y.pst.testBit 3), turned := y.turned, homePending := false, enterLocked := false,
                          reversed := false },
        jumps)
    else
      let j := x.homePending || x.enterLocked || (x.reversed && x.state != 1)
      let still := state == 1 || state == 4
      let pb := if state = 4 ∧ x.stallFirst = none then x.pb else envelope j (!x.rev) (state == 1) (pat x.pi) x.pb
      (s.setPh n { x with pb := pb, pv := if still then 0 else x.v, pst := status x.rev, turned := x.reversed,
                          homePending := false, enterLocked := false, reversed := false },
        if j then n :: jumps else jumps)

/-- A switched source whose primary has delivered 2^NEXP + 1 events returns to it (R161). -/
def primaryReturn (n : Nat) (s : State) : State :=
  let x := s.ph n
  if x.switched && 2 ^ rd s (F.phSrccfgNexp n) + 1 ≤ x.sinceTimeout then
    put (s.setPh n { x with switched := false, swOffs := 0 }) (F.phSrcstatSwitched n) 0
  else s

/-- A COASTING source whose alternative is LOCKED switches to it (R161). -/
def switchNow (n : Nat) (s : State) : State :=
  let x := s.ph n
  if hasEvents (srcType s n) && pubState s 17 n == 3 && !x.switched && altLocked s n then switchAlt n s else s

/-- The set computed at the tick with application edge `a`. -/
def computeSet (a : Nat) (s : State) : State :=
  let s1 := withStates (fun s =>
    let s := forAll (List.range 16) (fun n s =>
      if hasEvents (srcType s n) then s.updPh n (estimate s n a) else s) s
    let s := forAll (List.range 16) switchNow (forAll (List.range 16) primaryReturn s)
    forAll ((List.range 16).mergeSort fun m n => chainDepth s 17 m ≤ chainDepth s 17 n) derivedLock s) s
  let order := (List.range 16).mergeSort fun m n => chainDepth s1 17 m ≤ chainDepth s1 17 n
  let s2 := (order.foldl (fun st n => publish n st) (s1, [])).1
  { s2 with phQueue := s2.phQueue ++ [(List.range 16).map fun n =>
      let x := s2.ph n
      let lim := isCountType (srcType s2 n) && !x.switched && x.pst % 8 == 2
      (⟨x.pb, pat x.pv, x.pst, if lim then some (pat x.lim) else none, x.turned⟩ : BusSrc)] }

/-- The block of a receiver of the phase bus: 16 CNV, 17 PWR, 18 SPN, 19 LOG, 20 STAT (R148). -/
def receiverBlk (r : Nat) : Nat := if r < 16 then 17 + r else [4, 1, 13, 12, 7].getD (r - 16) 7

/-- A receiver applies a set: or, on an uncorrectable one, the previous word and velocity with status COASTING
(R149). The error is recorded as PHBUS of the receiver's block: instance 0 corrected, 1 uncorrectable (R389). -/
def applySet (set : List BusSrc) (bad corr : List Nat) (r : Nat) (s : State) : State :=
  if bad.contains r then
    event (receiverBlk r) 30 1 <| forAll (List.range 16) (fun n s =>
      s.updBs (r * 16 + n) fun b =>
        { b with pb := wrap 64 ((b.pb : Int) + (signed 64 b.v * 8).tdiv etuSec), status := b.status / 8 * 8 + 3, lim := none,
                 turned := false }) s
  else
    let s1 := forAll (List.range 16) (fun n s => s.setBs (r * 16 + n) (set.getD n BusSrc.init)) s
    if corr.contains r then event (receiverBlk r) 30 0 s1 else s1

/-! ### Release passes (R167, R169, R171) -/

/-- The entries of a list that leave in a pass: one of a context that is not LIVE is skipped, one that the stall or the reversal
policy has set free leaves, and where the source's state permits release (`ok`) those that are late or have been reached, up to the
first that is neither. -/
def eligible (s : State) (pb : Nat) : Bool → List GateE → List GateE
  | _, [] => []
  | ok, e :: es =>
    if !gateLive s e.tok.tag.ctx then eligible s pb ok es
    else if e.free then e :: eligible s pb ok es
    else if ok && (e.late || decide (0 ≤ along e.fwd (phDiff pb e.rel))) then e :: eligible s pb ok es
    else eligible s pb false es

/-- The pass of a cluster's gate for source `n`; at a declared reversal every waiting token is compared with its recorded
direction, and then the reversal policy applies. -/
def releasePass (cl n : Nat) (s : State) : State :=
  let b := s.bs (cl * 16 + n)
  let st := b.status % 8
  let fwd := !b.status.testBit 3
  let ok := st == 2 || (rdB s (F.clGatecfgMode cl) && st == 3)
  let go := if (s.cl cl).halted then []
    else eligible s b.pb ok (gateLists s cl n fwd) ++ eligible s b.pb (ok && b.turned) (gateLists s cl n (!fwd))
  let s1 := forAll go (gateOut cl) s
  if !b.turned then s1
  else if rd s (F.clGatecfgRevpol cl) = 1 then gateFree cl n (fun e => e.fwd != fwd) s1
  else if rd s (F.clGatecfgRevpol cl) = 2 then
    let old := (s1.cl cl).gate.filter fun e => e.src == n && e.fwd != fwd
    let ctxs := old.foldl (fun (l : List Nat) e => if l.contains e.tok.tag.ctx then l else l ++ [e.tok.tag.ctx]) []
    forAll ctxs (fun c => clFault cl (some c) (faultValue 0x33 0 0 0 0 0 n)) s1
  else s1

/-- Gate entries that read uncorrectable lose their token (R171). -/
def gateErr (e : Nat × Nat) (s : State) : State :=
  match (s.cl e.1).gate[e.2]? with
  | some _ => clFault e.1 none (faultValue 0x35 0 0 0 0 0 e.2)
      (s.updCl e.1 fun c => { c with gate := c.gate.eraseIdx e.2 })
  | none => s

/-- The word of a source carried on from the edge that applied it to a time `d` etu later, with or without the limit
(R176). -/
def extrapolate (limit : Bool) (b : BusSrc) (d : Int) : Nat :=
  let w := wrap 64 ((b.pb : Int) + (signed 64 b.v * d).tdiv etuSec)
  match limit, b.lim with
  | true, some l => if 0 < along (!b.status.testBit 3) (phDiff w l) then l else w
  | _, _ => w

/-- What the converter complex holds of a source at a time: of the set in force now, or of an earlier one; and how far
the time lies after the edge of that set. -/
def busAt (s : State) (n : Nat) (at_ : Int) : BusSrc × Int :=
  let d := at_ - s.now
  if 0 ≤ d then (s.bs (16 * 16 + n), d)
  else
    let k := ((-d).toNat + 7) / 8
    ((s.phPast.getD (k - 1) []).getD n .init, d + 8 * k)

/-- The stamp of a source at an instant, and its status; a source that is OFF stamps zero (R190). -/
def stampAt (s : State) (n : Nat) (at_ : Int) : Nat × Nat :=
  match busAt s n at_ with
  | (b, d) => if b.status % 8 = 0 then (0, 0) else (extrapolate true b d, b.status)

/-- The stamps of a port whose instant lies at or after this application edge. -/
def restamp (n : Nat) (s : State) : State :=
  let p := s.port n
  if p.strobes.any (fun q => decide ((s.now : Int) ≤ q.at_)) then
    s.setPort n { p with strobes := p.strobes.map fun q =>
      if (s.now : Int) ≤ q.at_ then
        { q with stamp := (stampAt s q.src q.at_).1, st := (stampAt s q.src q.at_).2 }
      else q }
  else s

/-- The application edge of the oldest set in flight: every receiver takes it, and the gates make their passes. -/
def applicationEdge (bad corr : List Nat) (badGate : List (Nat × Nat)) (s : State) : State :=
  match s.phQueue with
  | set :: rest =>
    if 3 ≤ rest.length then
      let s1 := forAll badGate gateErr s
      let cnv := (List.range 16).map fun n => s1.bs (16 * 16 + n)
      let s2 := forAll (List.range 32) restamp <| forAll (List.range 21) (applySet set bad corr)
        { s1 with phQueue := rest, phNow := set, phPast := (cnv :: s1.phPast).take 4097 }
      forAll (List.range 16) (fun cl s =>
        if clRuns s cl && !(s.cl cl).gate.isEmpty then
          forAll (List.range 16) (releasePass cl) s
        else s) s2
    else s
  | [] => s

/-- One tick of 8 etu: the set of three ticks ago is applied, for its application edge lies 15 ns after its tick, and a
new set is computed for the edge 24 etu ahead. -/
def phaseTickEff (bad corr : List Nat) (badGate : List (Nat × Nat)) (s : State) : State :=
  let s1 := copyRows { s with now := s.now + 8 }
  applicationEdge bad corr badGate (computeSet (s1.now + 24) s1)

/-! ### Frames of other devices (R177, R178, R250) -/

/-- F of a phase frame (R250). -/
def phframeF (dev n status hops lat : Nat) : Nat :=
  dev % 2 ^ 12 + n % 16 * 2 ^ 12 + status % 16 * 2 ^ 16 + hops % 16 * 2 ^ 20 + lat % 2 ^ 32 * 2 ^ 24

/-- A phase frame as a packet of a span port. -/
def phframePacket (f data : Nat) : Packet :=
  { src := 25, dstn := 25, dstp := 0, ring := 0, cmd := 0x44, vn := vnMgt, epoch := 0, init := 0x5B, f := f,
    body := .units [data % 2 ^ 128], who := none, asker := .nobody }

/-- A frame sent on every trained port but one. -/
def sendFrame (except f data : Nat) (s : State) : State :=
  forAll ((List.range 4).filter fun p => p != except && spanTrained s p) (fun p => spanSend p (phframePacket f data)) s

/-- Every INT ticks each exported source is sent: the word, the velocity and the status that the span complex has applied, with no
delay since then (R177). -/
def phaseExportEff (s : State) : State :=
  if s.now - s.exportAt < 8 * rd s F.phExportInt then s
  else
    forAll ((List.range 16).filter (rd s F.phExportEn).testBit) (fun n s =>
      let b := s.bs (18 * 16 + n)
      sendFrame 4 (phframeF (devnum s) n b.status 0 0) (b.pb + b.v * 2 ^ 64) s) { s with exportAt := s.now }

/-- In STALLED a source's estimate stands at the position of its last event, carried on to the application edge of the next tick, and
its velocity is zero (R155). -/
def standStill (now : Nat) (x : PhSrc) : PhSrc :=
  if x.state = 4 then
    { x with p0 := x.p0 + (x.v * (((now + 32 : Nat) : Int) - x.t0)).tdiv etuSec, t0 := now + 32, v := 0 }
  else x

/-- A received frame at the SPAN sources that name it: an event, extrapolated over the carried latency and the link
that it came by. -/
def frameAt (port f data n : Nat) (s : State) : State :=
  let x := s.ph n
  let lat := (bits f 24 32 + rd s (F.spnPortlatPs port)) / 625
  let x1 := { x with p0 := signed 64 data, t0 := s.now - lat, v := signed 64 (data / 2 ^ 64), rev := f.testBit 19,
                     reversed := x.reversed || x.rev != f.testBit 19, remote := bits f 16 4, events := x.events + 1,
                     sinceTimeout := x.sinceTimeout + 1, lastEvent := s.now }
  put (s.setPh n (standStill s.now (eventState s n s.now x1))) (F.phSrceventsCount n) (rd s (F.phSrceventsCount n) + 1)

/-- PHFRAME at a trained port. -/
def phframeEff (port f data : Nat) (s : State) : State :=
  if port < 4 && spanTrained s port then
    let mine := (List.range 16).filter fun n =>
      srcType s n == 7 && rd s (F.phSrcauxAux n) % 2 ^ 16 == bits f 0 16
    let s1 := withStates (forAll mine (frameAt port f data)) s
    if mine.any (fun n => (rd s F.phExportEn).testBit n) && decide (bits f 20 4 < 8) then
      sendFrame port (phframeF (bits f 0 12) (bits f 12 4) (bits f 16 4) (bits f 20 4 + 1)
        (bits f 24 32 + rd s (F.spnPortlatPs port))) data s1
    else s1
  else s

/-! ### Network time (R153) -/

/-- A value of T at an etu taken up by a NETTIME source. A step while no rate is known sets the nominal one turn per
second. -/
def nettimeStep (n : Nat) (tIs at_ : Int) (s : State) : State :=
  let x := s.ph n
  let a : Int := s.now + 24
  let t := tIs + ((a - at_) * 2 ^ 32).tdiv etuSec
  let e := t - x.pi
  let lim : Int := rd s (F.phSrcauxAux n) % 2 ^ 16
  let big := decide (lim * 2 ^ 32 < (e.natAbs : Int) * 1000000)
  let bound : Int := 2147483
  let x1 := { x with events := x.events + 1, sinceTimeout := x.sinceTimeout + 1, lastEvent := s.now }
  let x2 := if big then { x1 with p0 := t, t0 := a.toNat, v := if x.v = 0 then 2 ^ 32 else x.v }
    else { x1 with p0 := x.pi, t0 := a.toNat, v := 2 ^ 32 + max (-bound) (min bound e) }
  let s1 := withStates (fun s => put (s.setPh n (standStill s.now (eventState s n s.now x2))) (F.phSrceventsCount n)
    (rd s (F.phSrceventsCount n) + 1)) s
  if big then event 3 5 n s1 else s1

/-! ### Tachometer (R152) -/

/-- A sample of the channel of a TACH source: `v` is its 24-bit value and `at_` its time. A crossing lies between the
two samples that straddle zero, once the signal has been below −H and reaches +H. -/
def tachSample (n : Nat) (v : Int) (at_ : Nat) (s : State) : State :=
  let x := s.ph n
  let h : Int := bits (rd s (F.phSrcauxAux n)) 10 6 * 2 ^ 7
  match x.tachLast with
  | none => s.setPh n { x with tachLast := some (v, at_), tachArmed := decide (v < -h) }
  | some (u, t) =>
    let cross := if u < 0 ∧ 0 ≤ v then some (t + ((-u) * ((at_ : Int) - t) / (v - u)).toNat) else x.tachCross
    let armed := x.tachArmed || decide (v < -h)
    if armed && decide (h ≤ v) then
      match cross with
      | some te => countStep n false te (s.setPh n { x with tachLast := some (v, at_), tachArmed := false, tachCross := none })
      | none => s.setPh n { x with tachLast := some (v, at_), tachArmed := armed }
    else s.setPh n { x with tachLast := some (v, at_), tachArmed := armed, tachCross := if v < 0 then none else cross }

/-! ### Restart (R162) and PH_COMMIT (R164) -/

/-- A source restarted; its direction changes only at a declared reversal (R156). -/
def restartSrc (n : Nat) (s : State) : State :=
  let x := s.ph n
  put (put (s.setPh n { PhSrc.init with pb := x.pb, rev := x.rev, pst := 8 * bit x.rev, state := if srcType s n = 0 then 0 else 1, lastEvent := s.now })
    (F.phSrcstatHomed n) 0) (F.phSrcstatSwitched n) 0

/-- The sources that publish through `n`: DERIVED from it or switched to it. -/
def follows (s : State) (n : Nat) : Nat → Nat → Bool
  | 0, _ => false
  | f + 1, m =>
    if m = n then true
    else if srcType s m = 8 then follows s n f (rd s (F.phSrcauxAux m) % 16)
    else if (s.ph m).switched then follows s n f (rd s (F.phSrccfgAlt m))
    else false

/-- The shadow of a field of source `n` would change it. -/
def shChanges (s : State) (f : Fld) : Bool := rdSh s f != rd s f

/-- A commit would restart the source (R162). -/
def restarts (s : State) (n : Nat) : Bool :=
  shChanges s (F.phSrccfgType n) || shChanges s (F.phSrccfgInput n) || shChanges s (F.phSrccptCptm1 n)
    || shChanges s (F.phSrcauxAux n) || shChanges s (F.phSrcratioRatio n) || shChanges s (F.phSrccfgNoonmode n)

/-- Following parents and alternatives from a source returns to none it has passed, in the shadows. -/
def shAcyclic (s : State) : Nat → List Nat → Nat → Bool
  | 0, _, _ => false
  | f + 1, seen, n =>
    if seen.contains n then false
    else
      (rdSh s (F.phSrccfgType n) != 8 || shAcyclic s f (n :: seen) (rdSh s (F.phSrcauxAux n) % 16))
        && (!rdShB s (F.phSrccfgAlten n) || shAcyclic s f (n :: seen) (rdSh s (F.phSrccfgAlt n)))

/-- The rules of R164 for one source. -/
def phAgrees (s : State) (n : Nat) : Bool :=
  let t := rdSh s (F.phSrccfgType n)
  let aux := rdSh s (F.phSrcauxAux n)
  let noon := rdSh s (F.phSrccfgNoonmode n)
  let alten := rdShB s (F.phSrccfgAlten n)
  let sameInput := (List.range 16).any fun m =>
    m != n && isCountType (rdSh s (F.phSrccfgType m)) && rdSh s (F.phSrccfgInput m) == rdSh s (F.phSrccfgInput n)
  !(isCountType t && sameInput)
    && (t != 5 || (rdSh s (F.phSrccptCptm1 n) == 0 && noon == 0))
    && (noon == 0 || t == 1 || t == 2 || t == 3)
    && (t != 8 || aux % 16 != n)
    && (!alten || (t != 0 && t != 8 && rdSh s (F.phSrccfgAlt n) != n))
    && shAcyclic s 17 [] n
    && (!(t == 8 || alten) || rdSh s (F.phSrcratioRatio n) != 0)
    && (t != 7 || aux % 2 ^ 12 != devnum s)
    && (if t = 4 ∨ t = 6 ∨ t = 7 then aux < 2 ^ 16 else if t = 8 then aux < 16 else aux == 0)

/-- PH_COMMIT: refused as a whole, or applied with the restarts it brings. -/
def phCommitEff (s : State) : State :=
  if (List.range 16).all (phAgrees s) then
    let rs := (List.range 16).filter (restarts s)
    let s1 := withStates (fun s => forAll rs restartSrc (commitOk s 3)) s
    let touched := (List.range 16).filter fun m => rs.any fun n => follows s1 n 17 m
    forAll touched (fun m s => drvStall m (stallPolicy m s)) s1
  else cfgErr 3 (dropShadow s 3)

/-! ### Holding copies (R163) -/

/-- A read of PH_SRCnPHLO copies the word's upper half and the velocity as last applied, and the state fields as they stand. -/
def phloReadEff (n : Nat) (s : State) : State :=
  let b := s.phNow.getD n .init
  let x := s.ph n
  let st := pubState s 17 n + 16 * bit (pubRev s 17 n) + 32 * bit x.switched + 64 * bit x.homed
  { s with held := mset 0 (mset 0 (mset 0 (mset 0 s.held (n * 4) (b.pb / 2 ^ 32)) (n * 4 + 1) (b.v % 2 ^ 32)) (n * 4 + 2)
      (b.v / 2 ^ 32)) (n * 4 + 3) st }

/-! ### The rows -/

/-- COUNT_EVENT (R151). -/
def execCountEvent (tri : Nat) (a b : Bool) (te : Nat) (s : State) : Host.Outcome State Fault Refusal :=
  act 3 s (countEventEff tri a b te)

/-- NOON_MARK (R157). -/
def execNoonMark (tri te : Nat) (s : State) : Host.Outcome State Fault Refusal := act 3 s (noonMarkEff tri te)

/-- MAINS_EDGE (R151). -/
def execMainsEdge (tri te : Nat) (s : State) : Host.Outcome State Fault Refusal := act 3 s (mainsEdgeEff tri te)

/-- EDGE_TIMEOUT (R158). -/
def execEdgeTimeout (n : Nat) (s : State) : Host.Outcome State Fault Refusal := act 3 s (edgeTimeoutEff n)

/-- HORIZON_EXPIRE (R158). -/
def execHorizonExpire (n : Nat) (s : State) : Host.Outcome State Fault Refusal := act 3 s (horizonExpireEff n)

/-- PHASE_EXPORT (R177). -/
def execPhaseExport (s : State) : Host.Outcome State Fault Refusal := act 3 s phaseExportEff

/-- PHFRAME (R178). -/
def execPhframe (port f data : Nat) (s : State) : Host.Outcome State Fault Refusal := act 3 s (phframeEff port f data)

/-- PH_COMMIT (R164). -/
def execPhCommit (s : State) : Host.Outcome State Fault Refusal := act 3 s phCommitEff

/-- PH_SRC_PHLO_READ (R163). -/
def execPhSrcPhloRead (n : Nat) (s : State) : Host.Outcome State Fault Refusal := act 3 s (phloReadEff n)

end Sys2Proof.Machine
end

