-- ==== Sys2Proof/Machine/Drive.lean ====
section
/-! DEFINITION. The drive outputs: channel queues, output frames, schedules, abort ramps, enable groups and safety pins,
and the commit of the DRV block (R184 to R188, R201 to R213, R215, R216). -/

namespace Sys2Proof.Machine

open Sys2Proof

/-- A converter port is enabled. -/
def portOn (s : State) (n : Nat) : Bool := rdB s (F.cnvPortcfgEn n)

/-- The context to which a drive channel is bound: LIVE or QUIESCED, or else a RETURNING one that is not yet FREE
(R201, R207). -/
def drvBound (s : State) (c : Nat) : Option Nat :=
  let l := (busyCtxs s).filter fun k => (s.ctx k).d.channels.contains c
  match l.find? (fun k => (s.ctx k).liveOrQuiesced) with
  | some k => some k
  | none => l.head?

/-- The CTXQ cause is active for a channel (R207). -/
def ctxqOn (s : State) (c : Nat) : Bool :=
  (busyCtxs s).any fun k => (s.ctx k).ctxq && (s.ctx k).d.channels.contains c

/-- A device-wide cause bit is set. -/
def wideSet (s : State) : Bool := rd s F.drvAbortstatCause &&& deviceWide != 0

/-- No cause in the scope of a channel is active, as R202 and R211 test it. -/
def scopeClear (s : State) (c : Nat) : Bool :=
  !wideSet s && !(rd s F.drvAbortstatStall).testBit (rd s (F.drvChcfgSched c)) && !ctxqOn s c

/-- The state of a channel set. -/
def setChState (c st : Nat) (s : State) : State := put s (F.drvChstatState c) st

/-- The queue of a channel replaced, with its depth. -/
def setChQ (c : Nat) (q : List Int) (s : State) : State :=
  put (s.updChan c fun x => { x with q := q }) (F.drvChstatQdepth c) q.length

/-- Entries of a channel's queue. -/
def chCap (s : State) (c : Nat) : Nat := rd s (F.drvChcfgQunits c) * 128

/-! ### DRVVAL (R201, R203) -/

/-- `m` × 2^`e` rounded to the nearest integer, ties to even. -/
def roundPow (m : Nat) (e : Int) : Nat :=
  if 0 ≤ e then m * 2 ^ e.toNat
  else
    let d := 2 ^ (-e).toNat
    let q := m / d
    let r := m % d
    if d < 2 * r ∨ (2 * r = d ∧ q % 2 = 1) then q + 1 else q

/-- The limits of a code. -/
def clampCode (i : Int) : Int := max (-8388608) (min 8388607 i)

/-- The code of lane 0 of an F32X2 value, and whether DRVRANGE is raised (R203). -/
def laneCode (n : Nat) : Int × Bool :=
  match Fp.dat Fp.b32 (n % 2 ^ 32) with
  | .nan => (0, true)
  | .inf neg => (if neg then -8388608 else 8388607, true)
  | .fin neg m e =>
    let i : Int := roundPow m (e + 23)
    (clampCode (if neg then -i else i), decide ((n % 2 ^ 31) > 0x3F800000))

/-- The code of a value of a type: of a POISON value, whose content is undefined, a free one. -/
def drvCode (ty n : Nat) (s : State) : Int × Bool × State :=
  if ty = 0xA then (signed 24 (bits n 8 24), false, s)
  else if ty = tyPoison then match s.takeFree with | (v, s1) => (signed 24 v.toNat, false, s1)
  else match laneCode n with | (c, r) => (c, r, s)

/-- A drive value arrives at the converter complex. -/
def drvvalAt (data : Ecc) (p : Packet) (s : State) : Option State :=
  let ctx := bits p.f 8 14
  let c := bits p.f 0 8
  let d := (s.ctx ctx).d
  let idx := (c + 256 - d.drvfirst % 256) % 256
  let ty := if data = .uncorrectable then tyPoison else bits p.f 64 4
  let st := chState s c
  some <|
    if d.drvcount ≤ idx ∨ !rdB s (F.drvChcfgEn c) then cnvFault ctx 0x44 0 idx s
    else if chCap s c ≤ (s.chan c).q.length then cnvFault ctx 0x46 0 c s
    else if st = 2 ∨ st = 3 then putSat s (F.drvChstatDiscards c) 1
    else
      match drvCode ty (p.units.headD 0) s with
      | (code, range, s1) =>
        let s2 := setChQ c ((s1.chan c).q ++ [code]) s1
        if range then cnvFault ctx 0x45 ty c s2 else s2

def drvvalEff (d : Deliver) (s : State) : State := deliverEff d [0x03] (drvvalAt d.data) s

/-! ### Ramps (R208) -/

/-- π × 2^96, rounded down. -/
def piFix : Nat := 248902613312231085230521944622

/-- The terms of the cosine series: `t` is the current term and `n` its number; all are multiples of 2^-96. -/
def cosTerms (x2 : Nat) : Nat → Nat → Int → Int → Int
  | 0, _, _, acc => acc
  | f + 1, n, t, acc => cosTerms x2 f (n + 1) (-(t * x2).tdiv (2 ^ 96 * ((2 * n + 1) * (2 * n + 2)))) (acc + t)

/-- cos(πk / N) as a multiple of 2^-96. -/
def cosFix (k n : Nat) : Int :=
  let x := piFix * k / n
  cosTerms (x * x / 2 ^ 96) 40 0 (2 ^ 96) 0

/-- c_k: (1 + cos(πk / N)) / 2 to the nearest multiple of 2^-20, as that multiple. -/
def raised (k n : Nat) : Nat :=
  if k = 0 then 2 ^ 20 else if n ≤ k then 0
  else ((2 ^ 96 + cosFix k n + 2 ^ 76) / 2 ^ 77).toNat

/-- Ramp value `k` of `n` from the code `y0`. -/
def rampValue (cosine : Bool) (y0 : Int) (k n : Nat) : Int :=
  if n ≤ k then 0
  else if cosine then (y0 * raised k n).tdiv (2 ^ 20)
  else (y0 * ((n : Int) - k)).tdiv n

/-! ### OUTPUT_FRAME_CLOSE (R187, R202, R204 to R206, R208) -/

/-- The drive word of a code (R187). -/
def driveWord (code : Int) (ramp hold : Bool) : Nat := wrap 24 code * 256 + 128 + bit ramp * 64 + bit hold * 32

/-- Whether a schedule gives its RUN channels a value at this close, and whether a further update is due already
(R204). -/
structure Due where
  now : Bool
  more : Bool
  deriving DecidableEq, Repr

/-- Update `u` of a PHASE schedule is due at a prediction. -/
def updateDue (s : State) (sc u : Nat) (p : Nat) (fwd : Bool) : Bool :=
  let base : Nat := rd s (F.drvSchedbaseloBase sc) + rd s (F.drvSchedbasehiBase sc) * 2 ^ 32
  let t := wrap 64 ((base : Int) + (u : Int) * signed 32 (rd s (F.drvSchedstepStep sc)))
  decide ((0 : Int) ≤ along fwd (phDiff p t))

/-- What schedule `sc` does at the close of a frame of port `n` at etu `te`. The closes of several ports at one time
are one close of the schedule. -/
def schedDue (s : State) (sc n te : Nat) : Due :=
  if !rdB s (F.drvSchedcfgMode sc) then ⟨true, false⟩
  else
    let at_ : Int := (te : Int) + 160 + signed 16 (rd s (F.cnvPorttimeStampofs n))
    match busAt s (rd s (F.drvSchedcfgSrc sc)) at_ with
    | (b, d) =>
      let p := extrapolate false b d
      let fwd := !b.status.testBit 3
      let st := b.status % 8
      let ok := st == 2 || (st == 3 && rdB s (F.drvSchedcfgCmode sc))
      let u := mget 0 s.schedU sc
      if mget 0 s.schedAt sc = te + 1 then ⟨true, ok && updateDue s sc u p fwd⟩
      else ⟨ok && updateDue s sc u p fwd, ok && updateDue s sc u p fwd && updateDue s sc (u + 1) p fwd⟩

/-- The schedules of a port's channels that are due at this close count their update, once per close. -/
def countUpdates (n te : Nat) (dues : List Due) (s : State) : State :=
  forAll (List.range 16) (fun sc s =>
    let used := (List.range 8).any fun i =>
      rdB s (F.drvChcfgEn (8 * n + i)) && rd s (F.drvChcfgSched (8 * n + i)) == sc
    let due := (dues.getD sc ⟨false, false⟩).now
    if used && rdB s (F.drvSchedcfgMode sc) && mget 0 s.schedAt sc != te + 1 && due then
      { s with schedU := mset 0 s.schedU sc (mget 0 s.schedU sc + 1), schedAt := mset 0 s.schedAt sc (te + 1) }
    else s) s

/-- A context cause against the context bound to a channel. -/
def chanFault (c cause : Nat) (s : State) : State :=
  match drvBound s c with
  | some k => cnvFault k cause 0 c s
  | none => s

/-- The next ramp value of a channel in RAMP; after value N it sends zero until value N has been applied. -/
def rampClose (c : Nat) (s : State) : State × Nat :=
  let x := s.chan c
  let v := rampValue (rdB s (F.drvChcfgShape c)) x.rampY (x.rampK + 1) (rd s (F.drvChcfgRamplen c))
  (s.updChan c fun x => { x with rampK := x.rampK + 1, last := v }, driveWord v true false)

/-- A RUN channel with an empty queue (R205). -/
def underrun (c : Nat) (s : State) : State × Nat :=
  let x := s.chan c
  let s1 := s.updChan c fun x => { x with underEp := true }
  let s2 := if x.underEp then s1 else chanFault c 0x43 s1
  let pol := rd s (F.drvChcfgUnderpol c)
  if pol = 2 then rampClose c (abortBy 6 (· == c) s2)
  else if pol = 1 then (s2.updChan c fun x => { x with last := 0 }, driveWord 0 false false)
  else (s2, driveWord x.last false true)

/-- A RUN channel at a close; `fresh` when it entered RUN at this close. -/
def runClose (c : Nat) (fresh : Bool) (due : Due) (s : State) : State × Nat :=
  let x := s.chan c
  let s1 := s.updChan c fun x => { x with lateEp := due.more }
  let s2 := if due.more && !x.lateEp then chanFault c 0x47 s1 else s1
  if !due.now then (s2, driveWord x.last false (!fresh))
  else
    match x.q with
    | v :: q => ((setChQ c q s2).updChan c fun x => { x with last := v, underEp := false }, driveWord v false false)
    | [] => underrun c s2

/-- A channel at a close: its new state and its drive word. -/
def chanClose (dues : List Due) (c : Nat) (s : State) : State × Nat :=
  let st := chState s c
  let due := dues.getD (rd s (F.drvChcfgSched c)) ⟨false, false⟩
  if !rdB s (F.drvChcfgEn c) then (s, 0)
  else if st = 0 then
    if (rd s F.drvEnableAsserted).testBit (rd s (F.drvChcfgGrp c)) && (s.chan c).q != [] && scopeClear s c then
      runClose c true due ((setChState c 1 s).updChan c fun x => { x with last := 0, underEp := false, lateEp := false })
    else (s, 0)
  else if st = 1 then runClose c false due s
  else if st = 2 then rampClose c s
  else (s, 0)

/-- The channels of a port in turn, with their drive words. -/
def chansClose (dues : List Due) : List Nat → State → State × List Nat
  | [], s => (s, [])
  | c :: cs, s =>
    match chanClose dues c s with
    | (s1, w) =>
      let code := signed 24 (w / 256)
      match chansClose dues cs (s1.updChan c fun x => { x with sent := x.sent ++ [code] }) with
      | (s2, ws) => (s2, w :: ws)

/-- A word as a lane sends it, bit 31 first. -/
def beWord (w : Nat) : List Nat := [bits w 24 8, bits w 16 8, bits w 8 8, bits w 0 8]

/-- An output lane: header, drive words, trailer, idle fill (R184, R185, R188). -/
def outLane (flen seq flags : Nat) (ws : List Nat) : List Nat :=
  let body := (0xD4B * 2 ^ 20 + 2 * 2 ^ 16 + seq % 256 * 256 + flags) :: ws
  let l := body ++ [crc16 (body.flatMap beWord) * 2 ^ 16]
  l ++ List.replicate (flen - l.length) 0xAAAAAAAA

/-- The close of output frame s of port `n`, 100 ns before its strobe (R206). -/
def frameCloseEff (n te : Nat) (s : State) : State :=
  if n < 32 && portOn s n && rdB s F.cnvPllcfgLock then
    let opl := rd s (F.cnvPortcfgOpl n)
    let dues := (List.range 16).map fun sc => schedDue s sc n te
    match chansClose dues ((List.range 8).map (8 * n + ·)) (countUpdates n te dues s) with
    | (s2, ws0) =>
      let quiet := rdB s2 F.genQuiesceDone
      let ws := if quiet then ws0.map fun _ => 0 else ws0
      let st (v : Nat) : Bool := (List.range 8).any fun i => chState s2 (8 * n + i) == v
      let flags := bit (st 1) + 2 * bit (st 2) + 4 * bit quiet
      let flen := rd s (F.cnvPortcfgFlen n)
      let seq := (s2.port n).ostbs
      emitOut (.frame n (outLane flen seq flags (ws.take opl)) (outLane flen seq flags ((ws.drop 4).take opl))) s2
  else s

/-- The module applies the frame before the one that its strobe starts: the channels whose last ramp value it carries
enter ABORTED, and their groups are released (R202, R206, R209, R210). -/
def applyFrame (n : Nat) (s : State) : State :=
  releaseGroups <| forAll ((List.range 8).map (8 * n + ·)) (fun c s =>
    match (s.chan c).sent with
    | v :: w :: rest =>
      let x := s.chan c
      let s1 := s.setChan c { x with applied := v, sent := w :: rest }
      let ended := max (rd s (F.drvChcfgRamplen c)) 1
      if chState s c = 2 ∧ ended + (rest.length + 1) ≤ x.rampK then setChState c 3 s1 else s1
    | _ => s) s

/-- The frames of a port that stops or starts afresh are forgotten. -/
def clearSent (n : Nat) (s : State) : State :=
  forAll ((List.range 8).map (8 * n + ·)) (fun c s => s.updChan c fun x => { x with sent := [] }) s

/-! ### Causes and pins (R207, R210, R211) -/

/-- ABORT_IN_N has been low for the filtered time. -/
def abortPinEff (s : State) : State :=
  if s.activeCauses.contains 2 then s
  else abortBy 2 (fun _ => true) { s with activeCauses := s.activeCauses ++ [2] }

/-- ABORT_IN_N is high again: the PIN cause is no longer active, and its bit stays set. -/
def abortPinHighEff (s : State) : State := { s with activeCauses := s.activeCauses.filter (· != 2) }

/-- A write to DRV_HEARTBEAT. -/
def heartbeatEff (s : State) : State :=
  if rdB s F.drvSafecfgHben then { s with heartbeatAt := some s.now } else s

/-- No write within HBTO. -/
def heartbeatExpireEff (s : State) : State :=
  match s.heartbeatAt with
  | some t =>
    if t + msEtu (rd s F.drvSafecfgHbto) ≤ s.now then
      event 5 1 0 (abortBy 3 (fun _ => true) { s with heartbeatAt := none })
    else s
  | none => s

/-- The supply margin is lost. -/
def supplyLostEff (s : State) : State :=
  if s.activeCauses.contains 4 then s
  else condition 1 1 0 (abortBy 4 (fun _ => true) { s with activeCauses := s.activeCauses ++ [4] })

def supplyBackEff (s : State) : State :=
  setLive 1 1 false { s with activeCauses := s.activeCauses.filter (· != 4) }

/-- The groups of a mask. -/
def maskGroups (m : Nat) : List Nat := (List.range 8).filter m.testBit

/-- An ON write for a group is granted (R210). -/
def onGranted (s : State) (g : Nat) : Bool :=
  !rdB s F.genQuiesceDone && !wideSet s && (grpChans s g).all fun c => chState s c == 0 || chState s c == 1

/-- ON written for the groups of a mask. -/
def drvOnEff (m : Nat) (s : State) : State :=
  let ok := (maskGroups m).filter (onGranted s)
  let s1 := { putOr s F.drvEnableAsserted (ok.foldl (fun a g => a + 2 ^ g) 0) with
    offPending := s.offPending.filter fun g => !ok.contains g }
  if ok = maskGroups m then s1 else cfgErr 5 s1

/-- OFF written for the groups of a mask: their RUN channels ramp, with no cause bit and ABORT instance 7 (R207,
R218). -/
def drvOffEff (m : Nat) (s : State) : State :=
  let gs := maskGroups m
  let cs := runChans s fun c => gs.contains (rd s (F.drvChcfgGrp c))
  let s1 := forAll cs enterRamp s
  let new := gs.filter fun g => (rd s F.drvEnableAsserted).testBit g && !s.offPending.contains g
  let s2 := releaseGroups { s1 with offPending := s1.offPending ++ new }
  if cs = [] then s2 else event 5 0 7 s2

/-- A cause of DRV_ABORTSTAT.CAUSE is active (R207): FAULT, HB and UNDER last only until they are cleared. -/
def causeActive (s : State) (b : Nat) : Bool :=
  if b = 1 then true
  else if b = 2 ∨ b = 4 then s.activeCauses.contains b
  else if b = 5 then (busyCtxs s).any fun k => (s.ctx k).ctxq && (s.ctx k).d.drvcount != 0
  else false

/-- The STALL cause of a schedule is active: its source is not LOCKED; a source of type OFF gives none (R204, R207). -/
def stallActive (s : State) (u : Nat) : Bool :=
  let n := rd s (F.drvSchedcfgSrc u)
  rdB s (F.drvSchedcfgEn u) && srcType s n != 0 && (s.bs (16 * 16 + n)).status % 8 != 2

/-- A W1C write of DRV_ABORTSTAT (R211). -/
def causeClearEff (v : Nat) (s : State) : State :=
  let c := (List.range 7).foldl (fun m b => if v.testBit b && !causeActive s b then m ||| 2 ^ b else m) 0
  let u := (List.range 16).foldl (fun m b => if v.testBit (16 + b) && !stallActive s b then m ||| 2 ^ b else m) 0
  let c0 := rd s F.drvAbortstatCause
  let u0 := rd s F.drvAbortstatStall
  put (put s F.drvAbortstatCause (c0 - (c0 &&& c))) F.drvAbortstatStall (u0 - (u0 &&& u))

/-- RECOVER written for a channel (R211). -/
def recoverEff (c : Nat) (s : State) : State :=
  if c < 256 && chState s c == 3 && scopeClear s c then setChState c 0 s else s

/-- ABORT_OUT_N is driven low (R211); before Dawn has enabled the complex it is at high impedance (R212). -/
def abortOutLow (s : State) : Bool :=
  let c := rd s F.drvAbortstatCause
  s.up 3 && (c &&& 0b11011 != 0 || (c.testBit 2 && rdB s F.drvSafecfgPinprop))

/-- ALERT_N is driven low (R211). -/
def alertLow (s : State) : Bool := s.up 3 && (rd s F.drvAbortstatCause != 0 || rd s F.drvAbortstatStall != 0)

/-- DRIVE_EN_N of group `g` is driven low (R210, R212). -/
def driveEnLow (s : State) (g : Nat) : Bool := s.up 3 && (rd s F.drvEnableAsserted).testBit g

/-! ### DRV_COMMIT (R216) -/

/-- The fields of a channel and of a schedule. -/
def chanFlds (c : Nat) : List Fld :=
  [F.drvChcfgEn c, F.drvChcfgSched c, F.drvChcfgGrp c, F.drvChcfgShape c, F.drvChcfgUnderpol c, F.drvChcfgQunits c,
    F.drvChcfgRamplen c]

def schedFlds (u : Nat) : List Fld :=
  [F.drvSchedcfgEn u, F.drvSchedcfgMode u, F.drvSchedcfgCmode u, F.drvSchedcfgSrc u, F.drvSchedbaseloBase u,
    F.drvSchedbasehiBase u, F.drvSchedstepStep u]

/-- A channel agrees. -/
def chanAgrees (s : State) (c : Nat) : Bool :=
  let moving := chState s c == 1 || chState s c == 2
  (!rdShB s (F.drvChcfgEn c) || (portOn s (c / 8) && c % 4 < rd s (F.cnvPortcfgOpl (c / 8))
      && rdShB s (F.drvSchedcfgEn (rdSh s (F.drvChcfgSched c)))))
    && (!moving || !((chanFlds c ++ schedFlds (rd s (F.drvChcfgSched c))).any (shChanges s)))

/-- The commit is not refused. -/
def drvAgrees (s : State) : Bool :=
  decide (((List.range 256).map fun c => rdSh s (F.drvChcfgQunits c)).sum ≤ 256)
    && (List.range 256).all (chanAgrees s)
    && (List.range 16).all fun u => !rdShB s (F.drvSchedcfgEn u) || !rdShB s (F.drvSchedcfgMode u)
        || (srcType s (rdSh s (F.drvSchedcfgSrc u)) != 0 && rdSh s (F.drvSchedstepStep u) != 0)

/-- A queue that has become smaller keeps its oldest values; the others are discarded and counted (R201). -/
def shrinkQ (c : Nat) (s : State) : State :=
  let q := (s.chan c).q
  let n := chCap s c
  if q.length ≤ n then s else putSat (setChQ c (q.take n) s) (F.drvChstatDiscards c) (q.length - n)

/-- DRV_COMMIT: refused as a whole, or applied; a PHASE schedule that it enables starts at update 0 (R204), and a
group whose enabled channels are now all ABORTED is released (R210). -/
def drvCommitEff (s : State) : State :=
  if drvAgrees s then
    let new := (List.range 16).filter fun u =>
      rdShB s (F.drvSchedcfgEn u) && (shChanges s (F.drvSchedcfgEn u) || shChanges s (F.drvSchedcfgMode u))
    let s1 := commitOk s 5
    let s2 := forAll new (fun u s => { s with schedU := mset 0 s.schedU u 0, schedAt := mset 0 s.schedAt u 0 }) s1
    releaseGroups (forAll (List.range 256) shrinkQ s2)
  else cfgErr 5 (dropShadow s 5)

/-! ### The rows -/

/-- DRVVAL (R201). -/
def execDrvval (d : Deliver) (s : State) : Host.Outcome State Fault Refusal := act 3 s (drvvalEff d)

/-- OUTPUT_FRAME_CLOSE (R206). -/
def execOutputFrameClose (n te : Nat) (s : State) : Host.Outcome State Fault Refusal := act 3 s (frameCloseEff n te)

/-- ABORT_IN_PIN (R207). -/
def execAbortInPin (s : State) : Host.Outcome State Fault Refusal := act 3 s abortPinEff

/-- ABORT_IN_PIN_HIGH (R207). -/
def execAbortInPinHigh (s : State) : Host.Outcome State Fault Refusal := act 3 s abortPinHighEff

/-- HEARTBEAT_WRITE (R215). -/
def execHeartbeatWrite (s : State) : Host.Outcome State Fault Refusal := act 3 s heartbeatEff

/-- HEARTBEAT_EXPIRE (R207). -/
def execHeartbeatExpire (s : State) : Host.Outcome State Fault Refusal := act 3 s heartbeatExpireEff

/-- SUPPLY_MARGIN_LOST (R416). -/
def execSupplyMarginLost (s : State) : Host.Outcome State Fault Refusal := act 3 s supplyLostEff

/-- SUPPLY_MARGIN_RESTORED (R416). -/
def execSupplyMarginRestored (s : State) : Host.Outcome State Fault Refusal := act 3 s supplyBackEff

/-- DRV_ON (R210). -/
def execDrvOn (m : Nat) (s : State) : Host.Outcome State Fault Refusal := act 3 s (drvOnEff m)

/-- DRV_OFF (R207). -/
def execDrvOff (m : Nat) (s : State) : Host.Outcome State Fault Refusal := act 3 s (drvOffEff m)

/-- ABORT_CAUSE_CLEAR (R211). -/
def execAbortCauseClear (v : Nat) (s : State) : Host.Outcome State Fault Refusal := act 3 s (causeClearEff v)

/-- DRV_RECOVER (R211). -/
def execDrvRecover (c : Nat) (s : State) : Host.Outcome State Fault Refusal := act 3 s (recoverEff c)

/-- DRV_COMMIT (R216). -/
def execDrvCommit (s : State) : Host.Outcome State Fault Refusal := act 3 s drvCommitEff

end Sys2Proof.Machine
end

