-- ==== Sys2Proof/Machine/Shake.lean ====
section
/-! DEFINITION. SHAKE256 of FIPS 202, which the manual names for image digests, the measurement log, the hash engine and
signatures (R335, R424, R434, R462). -/

namespace Sys2Proof.Machine

open Sys2Proof

/-- The 25 lanes of the state, lane (x, y) at x + 5 y. -/
abbrev Lanes := List (BitVec 64)

def lane (a : Lanes) (x y : Nat) : BitVec 64 := a.getD (x % 5 + 5 * (y % 5)) 0

/-- A lane function over the whole state. -/
def stateOf (f : Nat → Nat → BitVec 64) : Lanes := (List.range 25).map fun i => f (i % 5) (i / 5)

/-- The rotation offsets of ρ, lane (x, y) at x + 5 y. -/
def rhoOffs : List Nat :=
  [0, 1, 62, 28, 27, 36, 44, 6, 55, 20, 3, 10, 43, 25, 39, 41, 45, 15, 21, 8, 18, 2, 61, 56, 14]

/-- The round constants of ι. -/
def keccakRc : Lanes :=
  [0x0000000000000001, 0x0000000000008082, 0x800000000000808A, 0x8000000080008000, 0x000000000000808B,
   0x0000000080000001, 0x8000000080008081, 0x8000000000008009, 0x000000000000008A, 0x0000000000000088,
   0x0000000080008009, 0x000000008000000A] ++
  [0x000000008000808B, 0x800000000000008B, 0x8000000000008089, 0x8000000000008003, 0x8000000000008002,
   0x8000000000000080, 0x000000000000800A, 0x800000008000000A, 0x8000000080008081, 0x8000000000008080,
   0x0000000080000001, 0x8000000080008008]

/-- One round: θ, ρ and π, χ, ι. -/
def keccakRound (a : Lanes) (rc : BitVec 64) : Lanes :=
  let c := (List.range 5).map fun x => lane a x 0 ^^^ lane a x 1 ^^^ lane a x 2 ^^^ lane a x 3 ^^^ lane a x 4
  let d := (List.range 5).map fun x => c.getD ((x + 4) % 5) 0 ^^^ (c.getD ((x + 1) % 5) 0).rotateLeft 1
  let t := stateOf fun x y => lane a x y ^^^ d.getD x 0
  let b := stateOf fun x y =>
    let x0 := (x + 3 * y) % 5
    (lane t x0 x).rotateLeft (rhoOffs.getD (x0 + 5 * x) 0)
  let e := stateOf fun x y => lane b x y ^^^ (~~~(lane b (x + 1) y) &&& lane b (x + 2) y)
  e.set 0 (e.headD 0 ^^^ rc)

def keccakF (a : Lanes) : Lanes := keccakRc.foldl keccakRound a

/-- The rate of SHAKE256 in bytes. -/
def shakeRate : Nat := 136

/-- Eight bytes, the lowest first, as a lane. -/
def toLane (bs : List Nat) : BitVec 64 := BitVec.ofNat 64 ((bs.take 8).foldr (fun b n => b % 256 + 256 * n) 0)

/-- A block XORed into the state. -/
def absorbBlock (a : Lanes) (blk : List Nat) : Lanes :=
  (List.range 25).map fun i => a.getD i 0 ^^^ (if i < 17 then toLane (blk.drop (8 * i)) else 0)

/-- The whole blocks of a padded message absorbed. -/
def absorb : Nat → List Nat → Lanes → Lanes
  | 0, _, a => a
  | n + 1, m, a => absorb n (m.drop shakeRate) (keccakF (absorbBlock a (m.take shakeRate)))

/-- The padding of SHAKE256: 0x1F, zeros, and bit 7 of the last byte of the block. -/
def shakePad (m : List Nat) : List Nat :=
  let k := shakeRate - m.length % shakeRate
  if k = 1 then m ++ [0x9F] else m ++ [0x1F] ++ List.replicate (k - 2) 0 ++ [0x80]

/-- The bytes of the state up to the rate. -/
def stateBytes (a : Lanes) : List Nat :=
  (List.range shakeRate).map fun i => ((a.getD (i / 8) 0).toNat / 2 ^ (8 * (i % 8))) % 256

/-- Blocks of output. -/
def squeeze : Nat → Lanes → List Nat
  | 0, _ => []
  | n + 1, a => stateBytes a ++ squeeze n (keccakF a)

/-- SHAKE256 of a byte string with `n` bytes of output. -/
def shake256 (m : List Nat) (n : Nat) : List Nat :=
  let p := shakePad m
  (squeeze ((n + shakeRate - 1) / shakeRate) (absorb (p.length / shakeRate) p (List.replicate 25 0))).take n

end Sys2Proof.Machine
end

