-- ==== Sys2Proof/Machine/LogRec.lean ====
section
/-! DEFINITION. Records of the log: decimation, the codec, record headers, and the layouts of segment header, index,
trailer, directory and journal (R350 to R366). -/

namespace Sys2Proof.Machine

open Sys2Proof

/-! ### Codec (R352 to R354) -/

/-- A sample word as sample and status (R186). -/
def sampleOf (w : Nat) : Int := signed 24 (w / 256)

/-- Residuals from index `i` on, given the three samples before it (R353). -/
def residuals (o : Nat) : List Int → Nat → Int → Int → Int → List Int
  | [], _, _, _, _ => []
  | x :: xs, i, a, b, c =>
    let p := if o = 0 then 0 else if o = 1 then a else if o = 2 then 2 * a - b else 3 * a - 3 * b + c
    if o ≤ i then (x - p) :: residuals o xs (i + 1) x a b else residuals o xs (i + 1) x a b

/-- The mapping of a residual to u. -/
def mapRes (e : Int) : Nat := if 0 ≤ e then (2 * e).toNat else (-2 * e - 1).toNat

/-- The low `w` bits of a number, least significant first. -/
def lsbBits (n w : Nat) : List Bool := (List.range w).map n.testBit

/-- One residual under parameter `k`. -/
def resBits (k : Nat) (e : Int) : List Bool :=
  if k = 31 then lsbBits (wrap 28 e) 28
  else List.replicate (mapRes e / 2 ^ k) true ++ [false] ++ lsbBits (mapRes e) k

/-- Bits of a partition under `k` without the parameter; none where q would pass 64. -/
def partCost (es : List Int) (k : Nat) : Option Nat :=
  if k = 31 then some (28 * es.length)
  else if es.any fun e => 64 < mapRes e / 2 ^ k then none
  else some (es.foldl (fun n e => n + mapRes e / 2 ^ k + 1 + k) 0)

/-- The parameter with the fewest bits, the lowest of equals (log entry 27). -/
def bestK (es : List Int) : Nat :=
  ((List.range 32).foldl (fun (m : Nat × Nat) k =>
    match partCost es k with
    | some n => if n < m.2 then (k, n) else m
    | none => m) (31, 28 * es.length + 1)).1

/-- Partitions of `n` residuals. -/
def partitions (n : Nat) : Nat → List Int → List (List Int)
  | 0, _ => []
  | fuel + 1, es => if es = [] then [] else es.take n :: partitions n fuel (es.drop n)

/-- Bits in bytes, bit 0 first, zero-padded. -/
def packBits (bs : List Bool) : List Nat :=
  (List.range ((bs.length + 7) / 8)).map fun i => ((bs.drop (8 * i)).take 8).foldr (fun b n => bit b + 2 * n) 0

/-- The bytes of 24-bit samples. -/
def warmBytes (xs : List Int) : List Nat := xs.flatMap fun x => leBytes 3 (wrap 24 x)

/-- STATMODE and the status bytes. -/
def statBytes (ws : List Nat) : Nat × List Nat :=
  let st := ws.map (· % 256)
  if st.all (· == st.headD 0) then (0, [st.headD 0]) else (1, st)

/-- A codec block of an order (7: raw) and a partition size. -/
def blockOf (order logp : Nat) (ws : List Nat) : List Nat :=
  let xs := ws.map sampleOf
  match statBytes ws with
  | (mode, st) =>
    let body :=
      if order = 7 then warmBytes xs
      else
        warmBytes (xs.take order) ++ packBits ((partitions (2 ^ logp) xs.length (residuals order xs 0 0 0 0)).flatMap fun es =>
          lsbBits (bestK es) 5 ++ es.flatMap (resBits (bestK es)))
    [order + 8 * logp, mode] ++ leBytes 2 (4 + st.length + body.length) ++ st ++ body

/-- Orders tried and log2 of the partition size at an effort (R354). -/
def effortOf (n : Nat) : List Nat × Nat :=
  ([[], [1], [0, 1, 2]].getD n [0, 1, 2, 3], [8, 8, 8, 8, 6, 5, 4, 4].getD n 4)

/-- The block of a lane: the shortest of the orders tried, raw where that is shorter (R354). -/
def encodeLane (effort : Nat) (ws : List Nat) : List Nat :=
  match effortOf effort with
  | (orders, logp) =>
    orders.foldl (fun m o => let b := blockOf o logp ws; if b.length < m.length || (b.length == m.length && m.headD 0 % 8 == 7) then b else m)
      (blockOf 7 logp ws)

/-! ### Records (R361) -/

/-- A number of bytes made a multiple of 16 with zeros. -/
def pad16 (bs : List Nat) : List Nat := bs ++ List.replicate ((16 - bs.length % 16) % 16) 0

/-- The bytes of a record. -/
def recordBytes (kind stream tick_ stamp seqw : Nat) (payload : List Nat) : List Nat :=
  let p := pad16 payload
  let h := leBytes 2 0xA55A ++ [kind % 256, stream % 256] ++ leBytes 4 (32 + p.length) ++ leBytes 8 tick_ ++ leBytes 8 stamp
    ++ leBytes 4 seqw
  h ++ leBytes 4 (crc32c (h ++ [0, 0, 0, 0] ++ p)) ++ p

/-- Fill of a chunk's rest: PAD records, and zeros where fewer than 32 bytes remain (R359). -/
def padBytes (tick_ : Nat) : Nat → Nat → List Nat
  | 0, n => List.replicate n 0
  | fuel + 1, n =>
    if n < 32 then List.replicate n 0
    else
      let m := min (n / 16 * 16) 81920
      recordBytes 0x0F 0xFF tick_ 0 0 (List.replicate (m - 32) 0) ++ padBytes tick_ fuel (n - m)

/-- The payload of a DATA record: the outputs, each a list of lane words, in lanes (R352, R361). -/
def dataPayload (effort nch dmode deck first : Nat) (outs : List (List Nat)) : List Nat :=
  let lanes := (outs.headD []).length
  [nch % 256, dmode, deck, 0] ++ leBytes 2 outs.length ++ leBytes 2 first ++ List.replicate 8 0
    ++ (List.range lanes).flatMap fun l => encodeLane effort (outs.map fun o => o.getD l 0)

/-! ### Decimation (R350) -/

/-- The status of an output formed from the words of a block. -/
def blockStatus (ws : List Nat) : Nat :=
  let valid := if ws.all (·.testBit 7) then 128 else 0
  let ors := ws.foldl (fun m w => m ||| (w &&& 0x7C)) 0
  valid + ors + (ws.getLast?.getD 0) % 4

/-- A word of a sample and a status. -/
def sampleWord (x : Int) (st : Nat) : Nat := wrap 24 x * 256 + st

/-- The output words of one channel for the words of a block (R350). -/
def decimate (dmode deck : Nat) (ws : List Nat) : List Nat :=
  let xs := ws.map sampleOf
  let st := blockStatus ws
  let sum := xs.foldl (· + ·) 0
  let mean : Int := if deck = 0 then xs.headD 0 else (sum + (2 ^ deck : Nat) / 2) / (2 ^ deck : Nat)
  if dmode = 0 then [ws.headD 0]
  else if dmode = 1 then [sampleWord mean st]
  else
    [sampleWord mean st, sampleWord (xs.foldl min (xs.headD 0)) st, sampleWord (xs.foldl max (xs.headD 0)) st]

/-- The output of a block of frames: the words of its lanes, by channel. -/
def blockOutput (dmode deck nch : Nat) (frames : List (List Nat)) : List Nat :=
  (List.range nch).flatMap fun c => decimate dmode deck (frames.map fun f => f.getD c 0)

/-! ### Layouts (R360 to R366) -/

/-- `b` written over `a` from an offset. -/
def overlay (a : List Nat) (off : Nat) (b : List Nat) : List Nat := a.take off ++ b ++ a.drop (off + b.length)

def zeros (n : Nat) : List Nat := List.replicate n 0

/-- Exactly `n` bytes. -/
def fitBytes (n : Nat) (bs : List Nat) : List Nat := (bs ++ zeros n).take n

def logMagic : Nat := 0x4753474F4C444B53

/-- The segment header (R360); `cfgs` are the 64 entries of 16 bytes. -/
def segHeader (logId seq ns slot opened phase prevSeq : Nat) (hPrev : List Nat) (cfgs : List Nat) : List Nat :=
  fitBytes 4096 (leBytes 8 logMagic ++ leBytes 8 logId ++ leBytes 8 seq ++ [ns, 1, 0, 0] ++ leBytes 4 slot ++ leBytes 8 opened
    ++ leBytes 8 phase ++ fitBytes 32 hPrev ++ leBytes 8 prevSeq ++ zeros 0xA8 ++ cfgs)

/-- The trailer (R363). -/
def segTrailer (seq closed lastEnd entries flags : Nat) (hPrev hs : List Nat) (hashes : List (List Nat)) : List Nat :=
  fitBytes 4096 (leBytes 8 logMagic ++ leBytes 8 seq ++ leBytes 8 closed ++ leBytes 4 lastEnd ++ leBytes 2 entries ++ [flags, 0]
    ++ fitBytes 32 hPrev ++ fitBytes 32 hs ++ hashes.flatMap (fitBytes 32))

/-- An index entry (R362). -/
def indexEntry (off stream kind seq tick_ : Nat) : List Nat :=
  leBytes 4 (off / 16) ++ [stream % 256, kind, 0, 0] ++ leBytes 4 (seq % 2 ^ 22) ++ leBytes 4 tick_

/-- The namespace label without H_0 (R364). -/
def labelHead (logId ns slots : Nat) : List Nat :=
  leBytes 8 0x4C42414C4C444B53 ++ leBytes 8 logId ++ [ns, 0, 0, 0] ++ leBytes 4 slots ++ zeros 8

/-- H_0 (R365). -/
def labelHash (logId ns slots : Nat) : List Nat := shake256 (labelHead logId ns slots) 32

def labelBytes (logId ns slots : Nat) : List Nat := labelHead logId ns slots ++ labelHash logId ns slots

/-- A directory entry of a sealed segment (R364). -/
def dirEntry (logId : Nat) (g : SealedSeg) : List Nat :=
  leBytes 8 g.seq ++ leBytes 8 logId ++ leBytes 8 g.opened ++ leBytes 8 g.closed ++ fitBytes 32 g.hash

/-- The 4 KB group of directory entries that holds entry `n`. -/
def dirGroup (logId ns : Nat) (x : Ns) (n : Nat) : List Nat :=
  (List.range 64).flatMap fun i =>
    let k := n / 64 * 64 + i
    if k = 0 then labelBytes logId ns x.slots
    else
      match x.sealedSegs.find? (·.slot == k) with
      | some g => dirEntry logId g
      | none => zeros 64

/-- The bytes of a journal entry (R366). -/
def journalBytes (e : JEntry) : List Nat :=
  let b := leBytes 8 e.jseq ++ [e.typ, e.ns] ++ leBytes 2 e.chunk ++ leBytes 4 e.slot ++ leBytes 8 e.seq ++ fitBytes 32 e.hash
  b ++ leBytes 8 (crc64 b)

/-- H_s (R365). -/
def sealHash (hPrev : List Nat) (seq : Nat) (hashes : List (List Nat)) : List Nat :=
  shake256 (fitBytes 32 hPrev ++ leBytes 8 seq ++ hashes.flatten) 32

end Sys2Proof.Machine
end

