-- ==== Sys2Proof/Machine/LogEngine.lean ====
section
/-! DEFINITION. The log engine: chunks and segments, NVMe commands, the journal, sealing, stopping, pausing, and the
reading of the capture rings (R349 to R351, R355 to R376). -/

namespace Sys2Proof.Machine

open Sys2Proof

/-! ### The engine's state -/

def updLog (f : LogSt → LogSt) (s : State) : State := { s with log := f s.log }

/-- LOG_STATE.STATE (R370): 0 DETACHED, 1 IDLE, 2 RUNNING, 3 PAUSED, 4 FAULT. -/
def logState (s : State) : Nat := rd s F.logStateState

/-- The namespace attached at an index. -/
def State.ns (s : State) (i : Nat) : Option Ns := mget none s.log.nss i

/-- The indexes attached, rising. -/
def nsList (s : State) : List Nat := (List.range 8).filter fun i => (s.ns i).isSome

/-- Slots of a namespace that hold a segment. -/
def Ns.used (x : Ns) : List Nat := x.sealedSegs.map (·.slot) ++ (match x.seg with | some g => [g.slot] | none => [])

/-- The lowest free slot. -/
def Ns.freeSlot (x : Ns) : Option Nat :=
  (1 :: x.used.map (· + 1)).foldl (fun m k =>
    if k < x.slots && !x.used.contains k then some (match m with | some j => min j k | none => k) else m) none

/-- A mask with one bit set or cleared. -/
def withBit (m i : Nat) (on : Bool) : Nat := if on then m ||| 2 ^ i else m - (m &&& 2 ^ i)

/-- The namespace's registers follow its state (R377). -/
def nsRegs (i : Nat) (s : State) : State :=
  let att := (s.ns i).isSome
  let failed := match s.ns i with | some x => x.failed | none => false
  let opened := match s.ns i with | some x => x.seg.isSome | none => false
  let free := match s.ns i with | some x => x.slots - 1 - x.used.length | none => 0
  put (put (put (put (put s F.logStateNsatt (withBit (rd s F.logStateNsatt) i att)) F.logStateNsfail
    (withBit (rd s F.logStateNsfail) i failed)) (F.logNsstatFailed i) (bit failed)) (F.logNsstatOpen i) (bit opened))
    (F.logNsstatFree i) free

def setNs (i : Nat) (x : Option Ns) (s : State) : State :=
  nsRegs i { s with log := { s.log with nss := mset none s.log.nss i x } }

def updNs (i : Nat) (f : Ns → Ns) (s : State) : State := setNs i ((s.ns i).map f) s

def updSeg (i : Nat) (f : Segment → Segment) (s : State) : State := updNs i (fun x => { x with seg := x.seg.map f }) s

def logStream (s : State) (k : Nat) : Stream := mget Stream.init s.log.streams k

def updStream (k : Nat) (f : Stream → Stream) (s : State) : State :=
  { s with log := { s.log with streams := mset Stream.init s.log.streams k (f (logStream s k)) } }

/-- An item of the log (R374); the payload as bytes from byte 24. -/
def logItem (kind : Nat) (bs : List Nat) (s : State) : State := push (rd s F.logCfgObqch) kind (ofLe bs) s

/-- A transition of R370. The code of its cause in the STATE item is a value left open (log entry 3). -/
def enterLog (st : Nat) (s : State) : State :=
  if logState s = st then s
  else
    match s.takeFree with
    | (w, s1) => logItem 0x12 [st, w.toNat % 256] (put s1 F.logStateState st)

/-! ### NVMe commands (R355, R358) -/

/-- A command may be issued: none while PAUSED but the retries that PAUSED waits for, none in FAULT (R370). -/
def mayIssue (s : State) (c : NvCmd) : Bool :=
  !s.deviceHalted && !(logState s == 4) && (!(logState s == 3) || (s.log.pause == 4 && c.fails != 0))

/-- Waiting commands issued while the queue has room: at most QSIZE − 1 outstanding. -/
def issue (i : Nat) : List NvCmd → State → State
  | [], s => s
  | c :: cs, s =>
    issue i cs <|
      match s.ns i with
      | some x =>
        if x.cmds.length + 1 < x.qsize && mayIssue s c && x.wait.contains c then
          let c' := { c with cid := x.nextCid, sent := s.now }
          emitOut (.nvme i c'.cid c.opc c.slot c.off c.len c.data) (setNs i (some { x with
            cmds := x.cmds ++ [c'], wait := x.wait.erase c, nextCid := (x.nextCid + 1) % 65536,
            sqTail := (x.sqTail + 1) % x.qsize }) s)
        else s
      | none => s

def issueAll (s : State) : State :=
  forAll (nsList s) (fun i s => match s.ns i with | some x => issue i x.wait s | none => s) s

/-- Commands handed to a namespace's queue. -/
def submit (i : Nat) (cs : List NvCmd) (s : State) : State :=
  issueAll (updNs i (fun x => { x with wait := x.wait ++ cs }) s)

/-- A command without data. -/
def nvCmd (opc : Nat) (p : NvPurpose) (slot off len : Nat) : NvCmd := ⟨0, opc, p, slot, off, len, [], 0, 0⟩

def flushCmd (p : NvPurpose) : NvCmd := nvCmd 0x00 p 0 0 0

/-- A Write in pieces of at most the largest transfer (R356). -/
def writes (mdts : Nat) (p : NvPurpose) (slot off : Nat) (bs : List Nat) : List NvCmd :=
  let m := 2 ^ mdts
  (List.range ((bs.length + m - 1) / m)).map fun k =>
    let d := (bs.drop (k * m)).take m
    { nvCmd 0x01 p slot (off + k * m) d.length with data := d }

/-- Reads in pieces. -/
def reads (mdts slot off len : Nat) : List NvCmd :=
  let m := 2 ^ mdts
  (List.range ((len + m - 1) / m)).map fun k => nvCmd 0x02 .resumeRead slot (off + k * m) (min m (len - k * m))

/-- A command of a purpose is outstanding or waits. -/
def Ns.busyWith (x : Ns) (f : NvPurpose → Bool) : Bool := x.cmds.any (f ·.purpose) || x.wait.any (f ·.purpose)

/-- Any namespace has one. -/
def anyBusy (s : State) (f : NvPurpose → Bool) : Bool :=
  (nsList s).any fun i => match s.ns i with | some x => x.busyWith f | none => false

/-! ### The journal (R366) -/

def journal (typ ns chunk slot seq : Nat) (hash : List Nat) (s : State) : State :=
  updLog (fun l => { l with jseq := l.jseq + 1, jq := l.jq ++ [⟨l.jseq + 1, typ, ns, chunk, slot, seq, hash⟩] }) s

/-! ### Segments and chunks (R359, R360) -/

/-- LOG_STREAMsCFG as a word. -/
def streamWord (s : State) (k : Nat) : Nat :=
  rd s (F.logStreamcfgEn k) * 2 ^ 31 + rd s (F.logStreamcfgKind k) * 2 ^ 30 + rd s (F.logStreamcfgRearm k) * 2 ^ 29
    + rd s (F.logStreamcfgRing k) * 2 ^ 23 + rd s (F.logStreamcfgDmode k) * 2 ^ 21 + rd s (F.logStreamcfgDeck k) * 2 ^ 16
    + rd s (F.logStreamcfgChofs k) * 2 ^ 11 + rd s (F.logStreamcfgNchm1 k) * 2 ^ 6

/-- The 64 stream entries of a segment header: configuration, FIRST, and the frame rate, which the device does not
measure and which is left open (R182, log entries 3 and 6). -/
def streamEntries (s : State) : List Nat :=
  (List.range 64).flatMap fun k =>
    leBytes 4 (streamWord s k) ++ leBytes 4 (rd s (F.cnvCapchFirst (rd s (F.logStreamcfgRing k))))
      ++ leBytes 8 (Config.freeValue (s.free + k)).toNat

/-- H_prev (R360, R365): the chain value, or H_0 before the first seal. -/
def chainPrev (s : State) : List Nat := if s.log.lastSealed = 0 then s.log.h0 else s.log.chain

/-- A segment opened on every namespace that has none, has not failed and has a free slot. -/
def openSegments (s : State) : State :=
  forAll (nsList s) (fun i s =>
    match s.ns i with
    | some x =>
      match x.seg, x.failed, x.freeSlot with
      | none, false, some slot =>
        let l := s.log
        let h := segHeader l.logId l.nextSeq i slot (tick s) (phase0 s) l.lastSealed (chainPrev s) (streamEntries s)
        let g : Segment := {
          seq := l.nextSeq, slot := slot, opened := tick s, taken := [], durable := [], recs := [], index := [],
          ends := [], header := h, early := false, closedAt := none, sealing := none }
        journal 1 i 0 slot l.nextSeq [] (updNs i (fun x => { x with seg := some g })
          { s with free := s.free + 64, log := { l with nextSeq := l.nextSeq + 1 } })
      | _, _, _ => s
    | none => s) s

/-- Bytes of a chunk that hold header and records. -/
def chunkCap (c : Nat) : Nat := if c = 63 then 0xF0000 else 0x100000

/-- The next chunk of a segment. -/
def Segment.nextChunk (g : Segment) : Option Nat := (List.range 64).find? fun c => !g.taken.any (·.1 == c)

/-- The namespace that takes the next chunk: the open segment with the fewest chunks, the lowest index of equals. -/
def chunkNs (s : State) : Option (Nat × Segment) :=
  (nsList s).foldl (fun m i =>
    match (s.ns i).bind (·.seg) with
    | some g =>
      if g.early || g.sealing.isSome || 64 ≤ g.taken.length then m
      else
        match m with
        | some (_, h) => if g.taken.length < h.taken.length then some (i, g) else m
        | none => some (i, g)
    | none => m) none

/-- A chunk begins. -/
def beginChunk (i : Nat) (g : Segment) (s : State) : State :=
  match g.nextChunk with
  | some c => updLog (fun l => { l with cur := some (i, c), fill := if c = 0 then g.header else [] }) s
  | none => s

/-- The index of a segment: its entries in record order. -/
def Segment.entries (g : Segment) : List (List Nat) :=
  (List.range 64).flatMap fun c => (g.index.filter (·.1 == c)).map (·.2)

/-- The bytes of the index region. -/
def Segment.indexBytes (g : Segment) : List Nat := fitBytes 0xF000 ((g.entries.take 3840).flatten)

/-- A record has its own index entry: the first of its stream in the chunk, and every one of another kind (R362). -/
def indexed (g : Segment) (c : Nat) (kind stream : Nat) : Bool :=
  kind != 1 || !g.index.any fun e => e.1 == c && e.2.getD 4 0 == stream && e.2.getD 5 0 == 1

/-- The chunk being filled is closed: filled up, hashed and written. -/
def closeChunk (s : State) : State :=
  match s.log.cur with
  | none => s
  | some (i, c) =>
    match s.ns i with
    | none => s
    | some x =>
      match x.seg with
      | none => s
      | some g =>
        let bs := s.log.fill ++ padBytes (tick s) 16 (chunkCap c - s.log.fill.length)
        let h := shake256 (if c = 63 then bs ++ g.indexBytes else bs) 32
        submit i (writes x.mdts (.write c) g.slot (c * 0x100000) bs) <|
          updSeg i (fun g => { g with taken := g.taken ++ [(c, h)] }) (updLog (fun l => { l with cur := none, fill := [] }) s)

/-- A record put into the chunk being filled. -/
def placeRec (i c : Nat) (r : LogRec) (s : State) : State :=
  let at_ := c * 0x100000 + s.log.fill.length
  let s1 := updSeg i (fun g => { g with
    recs := g.recs ++ [(c, r)], ends := g.ends.filter (·.1 != c) ++ [(c, at_ + r.bytes.length)],
    index := if indexed g c r.kind r.stream then g.index ++ [(c, indexEntry at_ r.stream r.kind r.seq r.tick)] else g.index })
    (updLog (fun l => { l with fill := l.fill ++ r.bytes }) s)
  if s1.log.fill.length = chunkCap c then closeChunk s1 else s1

/-- Commands of LOG_APPEND among records end with a status. -/
def endAppends (st : Nat) (rs : List LogRec) (s : State) : State :=
  forAll rs (fun r s => match r.cmd with | some id => finish id st 0 0 s | none => s) s

/-! ### Reclaiming (R371, R372) -/

/-- Sealed segments up to a sequence, by namespace. -/
def reclaimable (s : State) (upto : Nat) : List (Nat × SealedSeg) :=
  (nsList s).flatMap fun i => match s.ns i with
    | some x => (x.sealedSegs.filter (·.seq ≤ upto)).map fun g => (i, g)
    | none => []

/-- The segments up to a sequence are deallocated and their directory entries freed. -/
def startReclaim (cmd : Option Nat) (upto : Nat) (s : State) : State :=
  let gs := reclaimable s upto
  let s1 := updLog (fun l => { l with reclaim := some (cmd, upto, gs.length) }) s
  forAll gs (fun p s =>
    match s.ns p.1 with
    | some x =>
      let x' := { x with sealedSegs := x.sealedSegs.filter fun g => upto < g.seq }
      submit p.1 (nvCmd 0x09 .reclaim p.2.slot 0 0x4000000
        :: writes x.mdts .reclaim 0 (p.2.slot / 64 * 4096) (dirGroup s.log.logId p.1 x' p.2.slot)) s
    | none => s) s1

/-- The reclaim is complete when its commands are. -/
def endReclaim (s : State) : State :=
  match s.log.reclaim with
  | some (cmd, upto, n) =>
    if anyBusy s (· == .reclaim) then s
    else
      let s1 := forAll (nsList s) (fun i => updNs i fun x =>
        { x with sealedSegs := x.sealedSegs.filter fun g => upto < g.seq }) (updLog (fun l => { l with reclaim := none }) s)
      match cmd with
      | some id => finish id scSUCCESS n 0 s1
      | none => s1
  | none => s

/-- The lowest sequence among sealed segments. -/
def oldestSealed (s : State) : Option Nat :=
  (reclaimable s (2 ^ 64)).foldl (fun m p => some (match m with | some k => min k p.2.seq | none => p.2.seq)) none

/-- No slot is left for a segment (R372). -/
def logFull (s : State) : State :=
  match rdB s F.logCfgFullpol, oldestSealed s with
  | true, some q => if s.log.reclaim.isSome then s else startReclaim none q s
  | _, _ =>
    let s1 := logItem 0x14 (leBytes 8 s.log.lastSealed) s
    endAppends 0x44 s.log.staged (updLog (fun l => { l with staged := [], stopping := true }) s1)

/-! ### Staging to chunks (R359) -/

/-- Records formed go into chunks in order, while the engine runs and chunks can be had. -/
def fillChunks : Nat → State → State
  | 0, s => s
  | n + 1, s =>
    match s.log.staged with
    | [] => s
    | r :: rs =>
      if logState s ≠ 2 ∨ s.deviceHalted = true then s
      else
        match s.log.cur with
        | some (i, c) =>
          if s.log.fill.length + r.bytes.length ≤ chunkCap c then
            fillChunks n (placeRec i c r (updLog (fun l => { l with staged := rs }) s))
          else fillChunks n (closeChunk s)
        | none =>
          let s1 := openSegments s
          match chunkNs s1 with
          | some (i, g) => fillChunks n (beginChunk i g s1)
          | none =>
            if (nsList s1).any fun i => ((s1.ns i).bind (·.seg)).isSome then s1
            else logFull s1

def fillAll (s : State) : State := fillChunks (4 * s.log.staged.length + 4) s

/-! ### Sealing (R363, R365, R367) -/

/-- The open segment with the lowest sequence. -/
def lowestSegment (s : State) : Option (Nat × Segment) :=
  (nsList s).foldl (fun m i =>
    match (s.ns i).bind (·.seg) with
    | some g => match m with
      | some (_, h) => if g.seq < h.seq then some (i, g) else m
      | none => some (i, g)
    | none => m) none

/-- The hash of a chunk; the content of a chunk that was never written is left open (log entry 3). -/
def chunkHash (s : State) (g : Segment) (c : Nat) : List Nat :=
  match g.taken.find? (·.1 == c) with
  | some e => e.2
  | none => (List.range 4).flatMap fun j => leBytes 8 (Config.freeValue (s.free + 4 * c + j)).toNat

/-- The segment with the lowest sequence is sealed once it is full, or ended early, and all its chunks are durable. -/
def trySeal (s : State) : State :=
  match lowestSegment s with
  | some (i, g) =>
    if g.sealing.isSome || g.taken.length != g.durable.length || !(g.early || g.taken.length == 64) || logState s == 3
        || logState s == 4 then s
    else
      match s.ns i with
      | none => s
      | some x =>
        let t := g.closedAt.getD (tick s)
        let hashes := (List.range 64).map (chunkHash s g)
        let hs := sealHash (chainPrev s) g.seq hashes
        let flags := bit (decide (3840 < g.entries.length)) + 2 * bit g.early
        let lastEnd := g.ends.foldl (fun m e => max m e.2) 0
        let tr := segTrailer g.seq t lastEnd (min g.entries.length 3840) flags (chainPrev s) hs hashes
        submit i (writes x.mdts .trailer g.slot 0x3FF0000 (g.indexBytes ++ tr)) <|
          updSeg i (fun g => { g with sealing := some (t, hs) }) { s with free := s.free + 256 }
  | none => s

/-! ### Stopping (R371, R372) -/

/-- A stream writes the outputs it holds as a record (R351). -/
def flushOuts (k : Nat) (s : State) : State :=
  let x := logStream s k
  if x.outs = [] then s
  else
    let ev := x.event.isSome
    let r := rd s (F.logStreamcfgRing k)
    let ch := rd s (F.cnvCapchFirst r) + rd s (F.logStreamcfgChofs k)
    let dm := if ev then 0 else rd s (F.logStreamcfgDmode k)
    let dk := if ev then 0 else rd s (F.logStreamcfgDeck k)
    let bs := recordBytes 1 k (tick s) x.firstStamp (x.firstSeq % 2 ^ 22 + bit ev * 2 ^ 22)
      (dataPayload (rd s F.logCodeccfgEffort) (rd s (F.logStreamcfgNchm1 k) + 1) dm dk ch x.outs)
    let rec_ : LogRec := ⟨1, k, x.firstSeq, tick s, bs, none, !ev, x.pos, x.expect⟩
    updStream k (fun x => { x with outs := [] }) (updLog (fun l => { l with staged := l.staged ++ [rec_] }) s)

/-- Open segments end early once every record is in a chunk; a segment with no chunk gets its first. -/
def endSegments (s : State) : State :=
  let s1 := closeChunk s
  forAll (nsList s1) (fun i s =>
    match (s.ns i).bind (·.seg) with
    | some g =>
      let s2 := if g.taken = [] then closeChunk (beginChunk i g s) else s
      updSeg i (fun g => { g with early := g.early || g.taken.length < 64 }) s2
    | none => s) s1

/-- The engine works on: records into chunks, seals, and the steps of a stop. -/
def engineStep (s : State) : State :=
  let s1 := fillAll s
  if s1.log.stopping && s1.log.staged == [] && logState s1 == 2 then
    let s2 := trySeal (endSegments s1)
    if ((nsList s2).all fun i => ((s2.ns i).bind (·.seg)).isNone) && s2.log.jq == [] then journal 5 0 0 0 s2.log.lastSealed [] s2
    else s2
  else trySeal s1

/-- The stop begins: every stream's outputs become records. -/
def beginStop (s : State) : State :=
  engineStep (updLog (fun l => { l with stopping := true }) (forAll (List.range 64) flushOuts s))

/-- The stop is complete. -/
def endStop (s : State) : State :=
  let s1 := enterLog 1 (updLog (fun l => { l with stopping := false, stopCmd := none }) s)
  match s.log.stopCmd with
  | some id => finish id scSUCCESS s.log.lastSealed 0 s1
  | none => s1

/-! ### Rewinding and pausing (R368, R370) -/

/-- The streams of records that have become durable stand after them. -/
def markDurable (rs : List LogRec) (s : State) : State :=
  forAll rs (fun r s => if r.again then updStream r.stream (fun x => { x with durable := (r.pos, r.expect) }) s else s) s

/-- Chunks of a namespace whose CHUNK entry is being written. -/
def chunksInJournal (s : State) (i : Nat) : List Nat :=
  (s.log.jq.filter fun e => e.typ == 2 && e.ns == i).map (·.chunk)

/-- Everything not durable is formed again: streams go back to their durable positions, other records are staged
anew, chunks that are not durable are given up. -/
def rewind (s : State) : State :=
  let keep (i : Nat) (g : Segment) (c : Nat) : Bool := g.durable.contains c || (chunksInJournal s i).contains c
  let segs := (nsList s).filterMap fun i => ((s.ns i).bind (·.seg)).map fun g => (i, g)
  let gone := segs.flatMap fun p => (p.2.recs.filter fun e => !keep p.1 p.2 e.1).map (·.2)
  let kept := segs.flatMap fun p => (p.2.recs.filter fun e => keep p.1 p.2 e.1).map (·.2)
  let s1 := forAll (nsList s) (fun i s => updNs i (fun x => { x with
    seg := x.seg.map fun g => { g with
      taken := g.taken.filter fun e => keep i g e.1, recs := g.recs.filter fun e => keep i g e.1,
      index := g.index.filter fun e => keep i g e.1, ends := g.ends.filter fun e => keep i g e.1 },
    cmds := x.cmds.filter fun c => (match c.purpose with | .write _ | .flush _ => false | _ => true),
    wait := x.wait.filter fun c => (match c.purpose with | .write _ | .flush _ => false | _ => true) }) s) (markDurable kept s)
  let s2 := updLog (fun l => { l with cur := none, fill := [], staged := gone.filter (!·.again) ++ l.staged.filter (!·.again) }) s1
  forAll (List.range 64) (fun k => updStream k fun x =>
    if x.event.isSome then x else { x with pos := x.durable.1, expect := x.durable.2, block := [], outs := [] }) s2

/-- Every open namespace has a command in retry. -/
def allRetry (s : State) : Bool :=
  let xs := (nsList s).filterMap fun i => match s.ns i with
    | some x => if x.seg.isSome && !x.failed then some x else none
    | none => none
  xs != [] && xs.all fun x => x.cmds.any (·.fails != 0) || x.wait.any (·.fails != 0)

/-- A cause of PAUSED begins or ends. -/
def setPause (b : Nat) (on : Bool) (s : State) : State :=
  let s1 := updLog (fun l => { l with pause := withBit l.pause b on }) s
  if logState s1 = 2 ∧ s1.log.pause ≠ 0 then enterLog 3 s1
  else if logState s1 = 3 ∧ s1.log.pause = 0 then
    let s2 := issueAll (enterLog 2 (rewind s1))
    if s2.log.stopCmd.isSome && !s2.log.stopping then beginStop s2 else engineStep s2
  else s1

/-! ### Failures (R358) -/

/-- The session commands of the engine end with a status. -/
def failLogCmds (st : Nat) (s : State) : State :=
  let l := s.log
  let s1 := updLog (fun l => { l with stopCmd := none, createCmd := none, reclaim := none, resumeCmd := none, resumeStep := 0,
                                      stopping := false, rdata := [] }) s
  forAll (l.stopCmd.toList ++ l.createCmd.toList ++ (match l.reclaim with | some (some c, _, _) => [c] | _ => []) ++ l.resumeCmd.toList)
    (fun id => finish id st 0 0) s1

/-- The engine enters FAULT; commands that wait for it end. -/
def logFault (st : Nat) (s : State) : State :=
  let rs := s.log.staged ++ (nsList s).flatMap fun i => match (s.ns i).bind (·.seg) with
    | some g => g.recs.map (·.2)
    | none => []
  enterLog 4 (failLogCmds st (endAppends st rs (updLog (fun l => { l with staged := [], cur := none, fill := [] }) s)))

/-- A namespace fails: its open segment is abandoned, and what it held is formed again. -/
def nsFail (i : Nat) (c : NvCmd) (sct sc : Nat) (s : State) : State :=
  let s1 := logItem 0x13 ([i, sct, sc, 0] ++ leBytes 4 c.slot) (event 12 0 i s)
  let s2 := match (s1.ns i).bind (·.seg) with
    | some g => journal 4 i 0 g.slot g.seq [] s1
    | none => s1
  let lost := match (s2.ns i).bind (·.seg) with | some g => (g.recs.map (·.2)).filter (!·.again) | none => []
  let s3 := updNs i (fun x => { x with failed := true, seg := none, cmds := [], wait := [] })
    (updLog (fun l => { l with
      staged := lost ++ l.staged, jq := l.jq.filter fun e => !(e.ns == i && (e.typ == 2 || e.typ == 3)),
      cur := (match l.cur with | some (j, k) => if j = i then none else some (j, k) | none => none),
      fill := (match l.cur with | some (j, _) => if j = i then [] else l.fill | none => []) }) s2)
  let s4 := if logState s3 = 2 ∨ logState s3 = 3 then rewind s3 else failLogCmds 0x42 s3
  if (nsList s4).all fun j => match s4.ns j with | some x => x.failed | none => true then logFault 0x42 s4
  else setPause 2 (allRetry s4) (engineStep s4)

/-- An NVMe command has failed: reissued, or at the third failure its namespace fails. -/
def nvFailed (i : Nat) (c : NvCmd) (sct sc : Nat) (s : State) : State :=
  let s1 := updNs i (fun x => { x with cmds := x.cmds.erase c }) s
  if 3 ≤ c.fails + 1 then nsFail i c sct sc s1
  else
    let s2 := updNs i (fun x => { x with wait := { c with fails := c.fails + 1 } :: x.wait }) s1
    issueAll (setPause 2 (allRetry s2) s2)

/-! ### Reading the rings (R349 to R351) -/

/-- The ring index of the record that TOTAL will count as number `pos` + 1. -/
def ringIndex (s : State) (r pos : Nat) : Nat :=
  let size := rd s (F.cnvCapsizeSize r)
  let age := (rd s (F.cnvCaptotalTotal r) + 2 ^ 32 - pos % 2 ^ 32) % 2 ^ 32
  (rd s (F.cnvCapstatWrptr r) + size - age % size) % size

/-- A request for one record, to the ring read service. -/
def askRing (k idx pos : Nat) (s : State) : State :=
  request 13 12 0 0x1B 0x58 (rd s (F.logStreamcfgRing k) + idx * 2 ^ 8 + 2 ^ 40) [] (.log k)
    (updStream k (fun x => { x with reading := some pos }) s)

/-- Every stream that can go on asks for its next record. -/
def logPoll (s : State) : State :=
  if logState s ≠ 2 ∨ s.deviceHalted = true ∨ s.log.staged ≠ [] ∨ s.log.stopping = true then s
  else
    forAll (List.range 64) (fun k s =>
      let x := logStream s k
      let r := rd s (F.logStreamcfgRing k)
      if !rdB s (F.logStreamcfgEn k) || x.reading.isSome || !rdB s (F.cnvCapcfgEn r) || rd s (F.cnvCapsizeSize r) == 0 then s
      else
        match x.event with
        | some (i, n) => if n = 0 then s else askRing k i (2 ^ 32 + i) s
        | none =>
          if rdB s (F.logStreamcfgKind k) || x.pos == rd s (F.cnvCaptotalTotal r) then s
          else askRing k (ringIndex s r x.pos) x.pos s) s

/-- A ring reaches HELD: the EVENT streams that name it write its descriptor and read the capture. -/
def logHeld (r desc : Nat) (s : State) : State :=
  if logState s ≠ 2 then s
  else
    logPoll <| engineStep <| forAll (List.range 64) (fun k s =>
      if rdB s (F.logStreamcfgEn k) && rdB s (F.logStreamcfgKind k) && rd s (F.logStreamcfgRing k) == r
          && (logStream s k).event.isNone then
        let bs := recordBytes 2 k (tick s) (bits desc 192 64) (bits desc 160 22 + 2 ^ 22) (leBytes 32 desc)
        let rec_ : LogRec := ⟨2, k, bits desc 160 22, tick s, bs, none, false, 0, none⟩
        updStream k (fun x => { x with event := some (bits desc 32 32, bits desc 96 32 + bits desc 128 32), expect := none, outs := [] })
          (updLog (fun l => { l with staged := l.staged ++ [rec_] }) s)
      else s) s

/-- An output is held; 256 of them make a record. -/
def addOutput (k seq stamp : Nat) (o : List Nat) (s : State) : State :=
  let x := logStream s k
  let s1 := updStream k (fun _ => { x with
    outs := x.outs ++ [o], firstSeq := if x.outs = [] then seq else x.firstSeq,
    firstStamp := if x.outs = [] then stamp else x.firstStamp }) s
  if 255 ≤ x.outs.length then flushOuts k s1 else s1

/-- The words of a stream's channels in a ring record. -/
def streamWords (s : State) (k : Nat) (bs : List Nat) : List Nat :=
  (List.range (rd s (F.logStreamcfgNchm1 k) + 1)).map fun c => fieldLe bs (16 + 4 * (rd s (F.logStreamcfgChofs k) + c)) 4

/-- The frame of a block whose stamp begins it is kept with the words, as the last element. -/
def contFrame (k n seq stamp : Nat) (ws : List Nat) (s : State) : State :=
  let x := logStream s k
  let deck := rd s (F.logStreamcfgDeck k)
  let block := x.block ++ [(seq, ws ++ [stamp])]
  let s1 := updStream k (fun x => { x with pos := (n + 1) % 2 ^ 32, expect := some ((seq + 1) % 2 ^ 22), block := block }) s
  if seq % 2 ^ deck = 2 ^ deck - 1 then
    let first := block.headD (seq, ws ++ [stamp])
    addOutput k first.1 (first.2.getLast?.getD 0)
      (blockOutput (rd s (F.logStreamcfgDmode k)) deck (rd s (F.logStreamcfgNchm1 k) + 1) (block.map (·.2)))
      (updStream k (fun x => { x with block := [] }) s1)
  else s1

/-- A record of a CONT stream (R350, R351): `n` is its number. -/
def contRecord (k n seq stamp : Nat) (ws : List Nat) (s : State) : State :=
  let x := logStream s k
  let d := 2 ^ rd s (F.logStreamcfgDeck k)
  let skip := (d - seq % d) % d
  let next := (seq + skip) % 2 ^ 22
  let goOn (s : State) : State :=
    if skip = 0 then contFrame k n seq stamp ws s
    else updStream k (fun x => { x with pos := (n + skip) % 2 ^ 32, expect := some next }) s
  match x.expect with
  | none => goOn s
  | some e =>
    if e = seq then contFrame k n seq stamp ws s
    else
      let s1 := updStream k (fun x => { x with block := [] }) (flushOuts k s)
      let last := (next + 2 ^ 22 - 1) % 2 ^ 22
      let bs := recordBytes 3 k (tick s) 0 e (leBytes 4 e ++ leBytes 4 last ++ zeros 8)
      let rec_ : LogRec := ⟨3, k, e, tick s, bs, none, true, (n + skip) % 2 ^ 32, some next⟩
      let s2 := updLog (fun l => { l with staged := l.staged ++ [rec_] }) s1
      goOn (logItem 0x11 ([k, 0, 0, 0] ++ leBytes 4 e ++ leBytes 4 last) (event 12 4 k (putSat s2 F.logGapsCount 1)))

/-- A record of an event capture, one output each (R349). -/
def eventRecord (k seq stamp : Nat) (ws : List Nat) (s : State) : State :=
  let x := logStream s k
  match x.event with
  | some (i, n) =>
    let size := rd s (F.cnvCapsizeSize (rd s (F.logStreamcfgRing k)))
    let s1 := addOutput k seq stamp ws (updStream k (fun x => { x with event := some ((i + 1) % size, n - 1) }) s)
    if n ≤ 1 then updStream k (fun x => { x with event := none }) (flushOuts k s1) else s1
  | none => s

/-- The answer of the ring read service to a stream: TOTAL, then the record. An answer that a rewind has overtaken, or
that reports an error, brings nothing; the sequence then shows what is missing. -/
def logAnswer (k status : Nat) (us : List Nat) (s : State) : State :=
  let x := logStream s k
  let s0 := updStream k (fun x => { x with reading := none }) s
  if logState s ≠ 2 then s0
  else
    let bs := us.tail.flatMap (leBytes 16)
    let seq := bits (fieldLe bs 8 4) 0 22
    let stamp := fieldLe bs 0 8
    let ws := streamWords s k bs
    let s1 :=
      match x.event with
      | some (i, n) =>
        if x.reading ≠ some (2 ^ 32 + i) then s0
        else if status = 0 then eventRecord k seq stamp ws s0
        else
          let size := rd s (F.cnvCapsizeSize (rd s (F.logStreamcfgRing k)))
          if n ≤ 1 then updStream k (fun x => { x with event := none }) (flushOuts k s0)
          else updStream k (fun x => { x with event := some ((i + 1) % size, n - 1) }) s0
      | none =>
        if x.reading ≠ some x.pos then s0
        else if status = 0 then
          let size := rd s (F.cnvCapsizeSize (rd s (F.logStreamcfgRing k)))
          let age := (us.headD 0 + 2 ^ 32 - x.pos) % 2 ^ 32
          contRecord k (x.pos + (age - 1) / size * size) seq stamp ws s0
        else updStream k (fun x => { x with pos := (x.pos + 1) % 2 ^ 32 }) s0
    logPoll (engineStep s1)

end Sys2Proof.Machine
end

