-- ==== Sys2Proof/Machine/Conv.lean ====
section
/-! DEFINITION. The converter ports and capture rings: strobes and stamps, input frames, sample tokens, capture records
and their trigger, and the commit of the CNV block (R182 to R200, R214, R216, R217). -/

namespace Sys2Proof.Machine

open Sys2Proof

/-! ### Ports -/

/-- Port channels that a lane carries, in ascending order (R184). -/
def portChans (s : State) (n : Nat) : List Nat :=
  let cpl := rd s (F.cnvPortcfgCpl n)
  (List.range 32).filter fun c => c % 16 < cpl

/-- The context that the binding of an input channel names, when it is LIVE or QUIESCED with the binding's generation
(R193). -/
def boundCtx (s : State) (c : Nat) : Option Nat :=
  let k := rd s (F.cnvChbindhiCtx c)
  if (s.ctx k).liveOrQuiesced && (s.ctx k).gen == rd s (F.cnvChbindhiGen c) then some k else none

/-- Device channels of a port whose binding is enabled. -/
def boundChans (s : State) (n : Nat) : List Nat :=
  ((portChans s n).map (32 * n + ·)).filter fun c => rdB s (F.cnvChbindloEn c)

/-- The contexts bound to the channels of a port, each once (R217). -/
def portCtxs (s : State) (n : Nat) : List Nat := ((boundChans s n).filterMap (boundCtx s)).eraseDups

/-- A context cause raised against every context bound to a port. -/
def portFault (n cause : Nat) (s : State) : State := forAll (portCtxs s n) (fun c => cnvFault c cause 0 n) s

/-! ### Sample tokens (R192 to R194) -/

/-- The sample word of a port channel in a frame. -/
def wordOf (ws : List (Nat × Nat)) (pc : Nat) : Nat :=
  match ws.find? (·.1 == pc) with | some (_, w) => w | none => 0

/-- The tokens of one bound channel: the SAMPLE token, and the PHASE token to IA + 1. -/
def sampleToks (s : State) (q : Strobe) (ws : List (Nat × Nat)) (c : Nat) : List Tok :=
  let ia := rd s (F.cnvChbindloIa c)
  let tag (ia : Nat) : Tag :=
    { dev := devnum s, ctx := rd s (F.cnvChbindhiCtx c),
      iter := if rdB s (F.cnvChbindloItersel c) then q.seq % 4096 else 0, ia := ia, pe := rd s (F.cnvChbindloPe c),
      port := rd s (F.cnvChbindloPort c), pri := rd s (F.cnvChbindloPri c), phg := false }
  let v := wordOf ws (c % 32) + c * 2 ^ 32 + q.seq % 2 ^ 22 * 2 ^ 42
  ⟨tag ia, ⟨BitVec.ofNat 64 v, 0xA, false⟩⟩ ::
    (if rdB s (F.cnvChbindloStamp c) then [⟨tag (ia + 1), ⟨BitVec.ofNat 64 q.stamp, 0x5, false⟩⟩] else [])

/-- Tokens that wait in the buffer of 8,192: those not yet injected at the CNV station (R194). -/
def bufUsed (s : State) : Nat :=
  (s.net.filter fun p => p.src == 12 && p.cmd == 0x01 && p.epoch == waiting).length + (s.stn 12).remoteQ.length

/-- A frame's tokens formed and sent: each for a bound context, or counted UNBOUND; none when the buffer lacks room for
all of them. -/
def frameToks (n : Nat) (q : Strobe) (ws : List (Nat × Nat)) (s : State) : State :=
  let l := (boundChans s n).flatMap fun c => (sampleToks s q ws c).map fun t => (c, t)
  if bufUsed s + l.length ≤ 8192 then
    forAll l (fun e s => if (boundCtx s e.1).isSome then injectTok 12 0x59 e.2 s else putSat s (F.cnvPortcntUnbound n) 1)
      (s.updPort n fun p => { p with smpLost := false })
  else
    let s1 := if (s.port n).smpLost then s else portFault n 0x41 s
    s1.updPort n fun p => { p with smpLost := true }

/-- OVERRANGE of one bound channel: an episode begins at a sample with OVR on a binding with OVRF (R217). -/
def overrange (n : Nat) (ws : List (Nat × Nat)) (c : Nat) (s : State) : State :=
  let was := (s.port n).ovr.contains c
  let is_ := (wordOf ws (c % 32)).testBit 6
  let s1 := s.updPort n fun p =>
    { p with ovr := if is_ then (if was then p.ovr else p.ovr ++ [c]) else p.ovr.filter (· != c) }
  if is_ && !was && rdB s (F.cnvChbindloOvrf c) then
    match boundCtx s c with
    | some k => cnvFault k 0x40 0 c s1
    | none => s1
  else s1

/-! ### Capture rings (R195 to R200) -/

/-- Channels of a ring: NCH. -/
def ringNch (s : State) (r : Nat) : Nat := rd s (F.cnvCapchNchm1 r) + 1

/-- Bytes of a record of `nch` channels. -/
def capLen (nch : Nat) : Nat := 16 + (4 * nch + 15) / 16 * 16

/-- The ring's port. -/
def ringPort (s : State) (r : Nat) : Nat := rd s (F.cnvCapchFirst r) / 32

/-- The state of a ring (R197). -/
def ringState (s : State) (r : Nat) : Nat := rd s (F.cnvCapstatState r)

/-- Scratch address of record `i` of a ring. -/
def capAddr (s : State) (r i : Nat) : Nat :=
  rd s (F.cnvCapcfgBank r) * 2 ^ 20 + rd s (F.cnvCapcfgOffset r) * 64 + i * capLen (ringNch s r)

/-- A capture write fails: the ring enters FAULT and CAPERR is raised (R196). -/
def capErr (r : Nat) (s : State) : State := event 4 4 r (put s (F.cnvCapstatState r) 6)

/-- The words of a record's samples, in ascending channel order. -/
def capWords (s : State) (r : Nat) (ws : List (Nat × Nat)) : List Nat :=
  (List.range (ringNch s r)).map fun i => wordOf ws (rd s (F.cnvCapchFirst r) % 32 + i)

/-- The bytes of a record (R195). -/
def capBytes (q : Strobe) (subst trig : Bool) (ws : List Nat) : List Nat :=
  let hd := natBytes 8 q.stamp ++ natBytes 4 (q.seq % 2 ^ 22 + q.st % 16 * 2 ^ 22 + bit subst * 2 ^ 26 + bit trig * 2 ^ 27)
    ++ natBytes 4 (ws.foldl (fun m w => m ||| w % 256) 0)
  let body := ws.flatMap (natBytes 4)
  hd ++ body ++ List.replicate ((16 - body.length % 16) % 16) 0

/-- Bytes as data units of 16 bytes. -/
def toUnits (bs : List Nat) : List Nat :=
  (List.range ((bs.length + 15) / 16)).map fun i => ((bs.drop (16 * i)).take 16).foldr (fun b a => b + 256 * a) 0

/-- The WRITE packets of a record, of at most eight units, from the CNV station to the bank. -/
def writeRec (r a : Nat) (us : List Nat) (s : State) : State :=
  forAll (List.range ((us.length + 7) / 8)) (fun i =>
    request 12 (bgStation (a / 2 ^ 20)) (a / 2 ^ 20 % 8) 0x1A 0x59 (scrBase + a + 128 * i) ((us.drop (8 * i)).take 8)
      (.ring r)) s

/-- The signed sample of a sample word (R186). -/
def smpOf (w : Nat) : Int := signed 24 (w / 256)

/-- The sources that hold for a record, lowest code first (R199). -/
def trigCodes (s : State) (r : Nat) (q : Strobe) (ws : List Nat) : List Nat :=
  let x := s.ring r
  let en := rd s (F.cnvCapcfgTrigsrc r)
  let w := ws.getD (rd s (F.cnvCapchTrigoff r)) 0
  let lvl := signed 24 (rd s (F.cnvCaplevelLevel r))
  let level := match x.prev with
    | some p => !w.testBit 2 && (if rdB s (F.cnvCapcfgSlope r) then decide (lvl < p) && decide (smpOf w ≤ lvl)
        else decide (p < lvl) && decide (lvl ≤ smpOf w))
    | none => false
  let status := ws.any fun w => w % 256 &&& rd s (F.cnvCappreStatmask r) != 0
  let phase := (q.st % 8 == 2 || q.st % 8 == 3) && decide (0 ≤ along (!x.armRev) (phDiff q.stamp x.trigPh))
  (if x.swTrig then [0] else []) ++ (if en.testBit 0 && level then [1] else [])
    ++ (if en.testBit 1 && status then [2] else []) ++ (if en.testBit 2 && phase then [3] else [])
    ++ (if en.testBit 3 && x.abortSeen != s.abortCount then [4] else [])

/-- The capture descriptor (R200) as the payload of an observation item: its 32 bytes as one number. -/
def capDesc (s : State) (r : Nat) : Nat :=
  let x := s.ring r
  let size := rd s (F.cnvCapsizeSize r)
  let post := rd s (F.cnvCapsizePost r)
  let sub := match x.substAge with | some a => decide (a ≤ x.since + post) | none => false
  r + rd s (F.cnvCapstatHistshort r) * 2 ^ 8 + bit sub * 2 ^ 9 + x.trigCode * 2 ^ 10
    + (x.trig + size - x.since % size) % size * 2 ^ 32 + x.trig * 2 ^ 64 + x.since * 2 ^ 96 + post * 2 ^ 128
    + x.trigSeq % 2 ^ 22 * 2 ^ 160 + x.trigStamp * 2 ^ 192

/-- The mark and the trigger after a record is written (R198, R199). `ws` are the record's words. -/
def advance (r i : Nat) (q : Strobe) (ws : List Nat) (subst : Bool) (codes : List Nat) (s : State) : State :=
  let size := rd s (F.cnvCapsizeSize r)
  let post := rd s (F.cnvCapsizePost r)
  let lw := ws.getD (rd s (F.cnvCapchTrigoff r)) 0
  let x := s.ring r
  let age := if subst then some 1 else x.substAge.map (· + 1)
  let x1 := { x with avail := min (x.avail + 1) size, swTrig := false, abortSeen := s.abortCount, substAge := age,
                     prev := if lw.testBit 2 then none else some (smpOf lw) }
  let s1 := put (put (s.setRing r x1) (F.cnvCapstatWrptr r) ((i + 1) % size)) (F.cnvCaptotalTotal r)
    (rd s (F.cnvCaptotalTotal r) + 1)
  let s2 :=
    if ringState s r = 3 then
      match codes with
      | c :: _ =>
        put (s1.setRing r { x1 with trig := i, left := post, trigCode := c, trigSeq := q.seq, trigStamp := q.stamp })
          (F.cnvCapstatState r) 4
      | [] =>
        let n := x1.since + 1
        if rdB s (F.cnvCapcfgMarksel r) then s1.setRing r { x1 with since := min n (rd s (F.cnvCapprePre r)) }
        else if size - post < n then
          put (put (s1.setRing r { x1 with since := size - post }) (F.cnvCapstatMarkvalid r) 0) (F.cnvCapstatHistshort r) 1
        else s1.setRing r { x1 with since := n }
    else s1
  if ringState s2 r = 4 then
    let left := (s2.ring r).left - 1
    let s3 := s2.updRing r fun x => { x with left := left }
    if left = 0 then
      let s4 := put s3 (F.cnvCapstatState r) 5
      logHeld r (capDesc s4 r) (push (rd s4 (F.cnvCapchObq r)) 0x02 (capDesc s4 r) s4)
    else s3
  else s2

/-- One frame of the ring's port recorded, in the states that write (R197). -/
def capRecord (q : Strobe) (subst : Bool) (ws : List (Nat × Nat)) (r : Nat) (s : State) : State :=
  let st := ringState s r
  if st = 1 ∨ st = 2 ∨ st = 3 ∨ st = 4 then
    if rd s (F.sbOwnerOwner (rd s (F.cnvCapcfgBank r))) ≠ 0x59 then capErr r s
    else
      let i := rd s (F.cnvCapstatWrptr r)
      let l := capWords s r ws
      let codes := if st = 3 then trigCodes s r q l else []
      advance r i q l subst codes (writeRec r (capAddr s r i) (toUnits (capBytes q subst (codes != []) l)) s)
  else s

/-- The rings that record a port. -/
def ringsOf (s : State) (n : Nat) : List Nat :=
  (List.range 64).filter fun r => rdB s (F.cnvCapcfgEn r) && ringPort s r == n

/-! ### A frame, accepted or substituted (R189, R192) -/

/-- The samples that a TACH source takes from the frame (R152). -/
def frameTach (n : Nat) (q : Strobe) (ws : List (Nat × Nat)) (s : State) : State :=
  forAll (List.range 16) (fun k s =>
    let c := rd s (F.phSrcauxAux k) % 1024
    if srcType s k = 4 ∧ c / 32 = n ∧ (portChans s n).contains (c % 32) then
      tachSample k (smpOf (wordOf ws (c % 32))) q.at_.toNat s
    else s) s

/-- What every frame brings: OVERRANGE, tokens, capture records, tachometer samples. -/
def frameIn (n : Nat) (q : Strobe) (subst : Bool) (ws : List (Nat × Nat)) (s : State) : State :=
  frameTach n q ws <| logPoll <| forAll (ringsOf s n) (capRecord q subst ws) <| frameToks n q ws <|
    forAll (boundChans s n) (overrange n ws) s

/-- The live bit of LINKSYNC: a port has lost its synchronisation (R380). -/
def syncLive (s : State) : State := setLive 4 2 ((List.range 32).any fun n => (s.port n).lostSync) s

/-- An accepted frame, in its turn (R189, R217). -/
def acceptFrame (n : Nat) (q : Strobe) (ws : List (Nat × Nat)) (mf : Bool) (s : State) : State :=
  let p := s.port n
  let ok := p.okRun + 1
  let sync := decide (8 ≤ ok)
  let s1 := s.setPort n { p with
    lastWord := ws.foldl (fun m e => mset 0 m e.1 e.2) p.lastWord, okRun := ok, missRun := 0, frameMiss := false,
    modFault := mf, lostSync := p.lostSync && !sync }
  let s2 := syncLive (if sync then put s1 (F.cnvPortstatSync n) 1 else s1)
  let s3 := if mf && !p.modFault then portFault n 0x48 s2 else s2
  frameIn n q false ws s3

/-- The words that replace those of a missing frame (R189). -/
def substWords (s : State) (n : Nat) : List (Nat × Nat) :=
  (portChans s n).map fun c =>
    (c, if rdB s (F.cnvPortcfgSubpol n) then 4
        else let w := mget 0 (s.port n).lastWord c; (w - (w &&& 0x84)) + 4)

/-- A missing frame is substituted; `quiet` at the commit that restarts the framing. -/
def missFrame (quiet : Bool) (n : Nat) (q : Strobe) (s : State) : State :=
  let p := s.port n
  let miss := p.missRun + 1
  let lose := !quiet && rdB s (F.cnvPortstatSync n) && decide (4 ≤ miss)
  let ws := substWords s n
  let s1 := putSat (s.setPort n { p with
    okRun := 0, missRun := miss, frameMiss := p.frameMiss || !quiet, lostSync := p.lostSync || lose })
    (F.cnvPortcntMissed n) 1
  let s2 := if !quiet && !p.frameMiss then portFault n 0x42 s1 else s1
  let s3 := if lose then syncLive (event 4 2 n (put s2 (F.cnvPortstatSync n) 0)) else s2
  frameIn n q true ws s3

/-- Strobe `seq` of a port marked as processed. -/
def doneStrobe (n seq : Nat) (s : State) : State :=
  s.updPort n fun p => { p with strobes := p.strobes.map fun q => if q.seq = seq then { q with done := true } else q }

/-- The frames of a port are processed in the order of their strobes, up to the first strobe that still waits. -/
def settlePort (n : Nat) : List Strobe → State → State
  | [], s => s
  | q :: qs, s =>
    if q.done then settlePort n qs s
    else
      match q.got with
      | some (ws, mf) => settlePort n qs (acceptFrame n q ws mf (doneStrobe n q.seq s))
      | none => s

/-- The strobe that a later edge has closed is substituted when no frame was accepted for it (R189). -/
def closeOldest (n : Nat) (s : State) : State :=
  match (s.port n).strobes with
  | q :: rest =>
    if 2 ≤ rest.length then
      let s1 := s.updPort n fun p => { p with strobes := rest }
      let s2 := if q.done then s1
        else match q.got with
          | some (ws, mf) => acceptFrame n q ws mf s1
          | none => missFrame false n q s1
      settlePort n rest s2
    else s
  | [] => s

/-! ### OSTB, INPUT_FRAME, FRAME_MISSING -/

/-- An output frame strobe at etu `te` (R189, R190): the module applies the frame before (R206), and a strobe that three
edges have closed is settled first. -/
def ostbEff (n te : Nat) (s : State) : State :=
  if n < 32 && portOn s n && rdB s F.cnvPllcfgLock then
    let s := applyFrame n (closeOldest n s)
    let p := s.port n
    let seq := p.ostbs % 2 ^ 22
    let src := rd s (F.cnvPortcfgSrc n)
    let at_ : Int := te + signed 16 (rd s (F.cnvPorttimeStampofs n))
    let q : Strobe := ⟨seq, src, (stampAt s src at_).1, (stampAt s src at_).2, at_, none, false⟩
    put (s.setPort n { p with ostbs := p.ostbs + 1, strobes := p.strobes ++ [q] }) (F.cnvPortstatSeq n) seq
  else s

/-- The header of an input frame is valid; its SEQ (R185). -/
def inHeader (lane : List Nat) : Option Nat :=
  let h := lane.headD 0
  if bits h 20 12 = 0xD4B ∧ bits h 16 4 = 1 then some (bits h 8 8) else none

/-- The trailer of a lane of `n` sample or drive words matches (R188). -/
def laneCrcOk (n : Nat) (lane : List Nat) : Bool :=
  bits (lane.getD (n + 1) 0) 16 16 == crc16 ((lane.take (n + 1)).flatMap beWord)

/-- The sample words of a frame by port channel, SUB cleared (R186). -/
def laneWords (cpl : Nat) (l0 l1 : List Nat) : List (Nat × Nat) :=
  let one (k : Nat) (l : List Nat) : List (Nat × Nat) :=
    (List.range cpl).map fun j => (16 * k + j, let w := l.getD (j + 1) 0 % 2 ^ 32; w - (w &&& 4))
  one 0 l0 ++ one 1 l1

/-- An input frame of a module, checked against the two outstanding strobes (R189). -/
def inputFrameEff (n : Nat) (l0 l1 : List Nat) (s : State) : State :=
  if n < 32 && portOn s n then
    let s := closeOldest n s
    let p := s.port n
    let cpl := rd s (F.cnvPortcfgCpl n)
    match inHeader l0, inHeader l1 with
    | some a, some b =>
      if a ≠ b then s
      else
        match p.strobes.find? (fun q => q.seq % 256 == a) with
        | none => s
        | some q =>
          if q.got.isSome then putSat s (F.cnvPortcntDupl n) 1
          else if !(laneCrcOk cpl l0 && laneCrcOk cpl l1) then event 4 3 n (putSat s (F.cnvPortcntCrcerr n) 1)
          else
            let mf := (l0.headD 0).testBit 0 || (l1.headD 0).testBit 0
            let q' := { q with got := some (laneWords cpl l0 l1, mf) }
            let ss := p.strobes.map fun x => if x.seq = q.seq then q' else x
            settlePort n ss (s.setPort n { p with strobes := ss })
    | _, _ => s
  else s

/-- Strobe s of a port has been closed by OSTB(s + 2) with no frame accepted (R189). -/
def frameMissingEff (n : Nat) (s : State) : State :=
  if n < 32 && portOn s n then closeOldest n s else s

/-! ### The clock of the converter (R182, R218, R423) -/

/-- CMCLK is present: CLK_REFSTAT bit 2. -/
def cmclk (s : State) : Bool := (rd s F.clkRefstatPresent).testBit 2

/-- The PLL locks (R182). -/
def pllLockEff (s : State) : State :=
  if cmclk s && rd s F.cnvPllcfgPllmul != 0 then setLive 4 0 false (clockBit 6 true (put s F.cnvPllcfgLock 1)) else s

/-- The PLL loses lock: no port has OCLK or OSTB until it locks again. -/
def pllUnlockEff (s : State) : State :=
  if rdB s F.cnvPllcfgLock then condition 4 0 0 (clockBit 6 false (put s F.cnvPllcfgLock 0)) else s

def cmclkLossEff (s : State) : State :=
  if cmclk s then condition 4 1 0 (put s F.clkRefstatPresent (rd s F.clkRefstatPresent - 4)) else s

def cmclkRestoredEff (s : State) : State := setLive 4 1 false (putOr s F.clkRefstatPresent 4)

/-! ### Ring read service (R196) -/

/-- The fields of a RINGRD request: ring, first record, number of records (log entry 6). -/
def ringrdFields (p : Packet) : Nat × Nat × Nat := (bits p.addr 0 8, bits p.addr 8 32, bits p.addr 40 24)

/-- The words of `n` records of ring `r` from record `first` on, read by the complex as the bank's owner; the word at position `i`
reads as `e`. None when the bank refuses. -/
def ringRecords (r first i : Nat) (e : Ecc) : Nat → State → Option (List Nat × Bool) × State
  | 0, s => (some ([], false), s)
  | n + 1, s =>
    let l := capLen (ringNch s r) / 8
    match complexRead 0x59 (capAddr s r (first % rd s (F.cnvCapsizeSize r))) l i (if i < l then e else .ok) s with
    | (none, s1) => (none, s1)
    | (some (ws, bad), s1) =>
      match ringRecords r (first + 1) (i - l) (if i < l then .ok else e) n s1 with
      | (some (vs, bad'), s2) => (some (ws ++ vs, bad || bad'), s2)
      | (none, s2) => (none, s2)

/-- Units in runs of at most seven: with TOTAL they fill a packet. -/
def unitRuns : Nat → List Nat → List (List Nat)
  | 0, us => [us]
  | n + 1, us => if us.length ≤ 7 then [us] else us.take 7 :: unitRuns n (us.drop 7)

/-- The answers of the ring read service: each packet holds TOTAL, in bits 127:64 of the same unit the units that are still to come
after it, and the next units of the records (log entry 6). -/
def ringAnswer (p : Packet) (total : Nat) (us : List Nat) (s : State) : State :=
  ((unitRuns us.length us).foldl (fun (x : Nat × State) (r : List Nat) =>
    (x.1 - r.length, reply p 0x20 stOK ((total + (x.1 - r.length) * 2 ^ 64) :: r) x.2)) (us.length, s)).2

/-- A RINGRD request at the converter complex, which takes it once its own writes of the ring are answered: TOTAL, then
the units of the records. -/
def ringrdServe (d : Deliver) (p : Packet) (s : State) : Option State :=
  match ringrdFields p with
  | (r, first, n) =>
    if (s.stn 12).pend.any (·.asker == .ring r) then none
    else if 64 ≤ r ∨ !rdB s (F.cnvCapcfgEn r) ∨ rd s (F.cnvCapsizeSize r) = 0 then some (reply p 0x21 stNOTARGET [] s)
    else
      match ringRecords r first d.word d.mem n s with
      | (none, s1) => some (reply p 0x21 stREFUSED [] s1)
      | (some (ws, bad), s1) =>
        if bad then some (reply p 0x21 stUNCORR [] s1)
        else some (ringAnswer p (rd s (F.cnvCaptotalTotal r)) (pairUnits ws) s1)

def ringrdEff (d : Deliver) (s : State) : State := deliverEff d [0x1B] (ringrdServe d) s

/-! ### CNV_CAPrCTL (R198, R214) -/

/-- ARM in WAIT, ARMED, POST or HELD. -/
def capArmEff (r : Nat) (s : State) : State :=
  let st := ringState s r
  if r < 64 && 2 ≤ st && st ≤ 5 then
    let x := s.ring r
    let b := s.bs (16 * 16 + rd s (F.cnvPortcfgSrc (ringPort s r)))
    let s1 := s.setRing r { x with
      since := if rdB s (F.cnvCapcfgMarksel r) then min (rd s (F.cnvCapprePre r)) x.avail else 0,
      trigPh := rd s (F.cnvCaptphloTrigph r) + rd s (F.cnvCaptphhiTrigph r) * 2 ^ 32, armRev := b.status.testBit 3 }
    put (put (put s1 (F.cnvCapstatState r) 3) (F.cnvCapstatMarkvalid r) 1) (F.cnvCapstatHistshort r) 0
  else s

/-- The software trigger, for the next record. -/
def capTrigEff (r : Nat) (s : State) : State :=
  if r < 64 then s.updRing r fun x => { x with swTrig := true } else s

/-- STOP: to WAIT from ARMED, POST or HELD. -/
def capStopEff (r : Nat) (s : State) : State :=
  let st := ringState s r
  if r < 64 && 3 ≤ st && st ≤ 5 then put s (F.cnvCapstatState r) 2 else s

/-! ### CNV_COMMIT (R216) -/

/-- A commit changes the timing of an enabled port (R189, R216). -/
def portTiming (s : State) (n : Nat) : Bool :=
  portOn s n && (shChanges s (F.cnvPortcfgBitdiv n) || shChanges s (F.cnvPortcfgFlen n)
    || shChanges s (F.cnvPortcfgCpl n) || shChanges s (F.cnvPortcfgOpl n))

/-- A port stays enabled under another timing: its framing restarts (R189). -/
def portRetimed (s : State) (n : Nat) : Bool := portTiming s n && rdShB s (F.cnvPortcfgEn n)

/-- A port's fields agree (R216). -/
def portAgrees (s : State) (n : Nat) : Bool :=
  let cpl := rdSh s (F.cnvPortcfgCpl n)
  let opl := rdSh s (F.cnvPortcfgOpl n)
  (!rdShB s (F.cnvPortcfgEn n) || (4 ≤ rdSh s (F.cnvPortcfgBitdiv n) && cpl ≤ 16 && opl ≤ 4
      && max cpl opl + 2 ≤ rdSh s (F.cnvPortcfgFlen n) && rdSh s F.cnvPllcfgPllmul != 0))
    && (!portTiming s n || (List.range 8).all fun c => chState s (8 * n + c) == 0 || chState s (8 * n + c) == 3)

/-- Input channel `c` is present under the shadows: a lane carries it under the CPL of its port (R184). -/
def shPresent (s : State) (c : Nat) : Bool := c < 1024 && c % 16 < rdSh s (F.cnvPortcfgCpl (c / 32))

/-- A binding agrees: its channel is present and IA + 1 is an instruction address. -/
def bindAgrees (s : State) (c : Nat) : Bool :=
  !rdShB s (F.cnvChbindloEn c) ||
    (shPresent s c && (!rdShB s (F.cnvChbindloStamp c) || rdSh s (F.cnvChbindloIa c) < 4095))

/-- Scratch bytes of a ring under the shadows: first and length. -/
def shRange (s : State) (r : Nat) : Nat × Nat :=
  (rdSh s (F.cnvCapcfgBank r) * 2 ^ 20 + rdSh s (F.cnvCapcfgOffset r) * 64,
    rdSh s (F.cnvCapsizeSize r) * capLen (rdSh s (F.cnvCapchNchm1 r) + 1))

/-- A ring agrees (R216). -/
def ringAgrees (s : State) (r : Nat) : Bool :=
  (!rdB s (F.cnvCapcfgEn r) || !([F.cnvCapcfgBank r, F.cnvCapcfgOffset r, F.cnvCapsizeSize r,
      F.cnvCapchFirst r, F.cnvCapchNchm1 r].any (shChanges s))) &&
  (!rdShB s (F.cnvCapcfgEn r) ||
    (let first := rdSh s (F.cnvCapchFirst r)
     let nch := rdSh s (F.cnvCapchNchm1 r) + 1
     let size := rdSh s (F.cnvCapsizeSize r)
     let post := rdSh s (F.cnvCapsizePost r)
     let rg := shRange s r
     (List.range nch).all (fun i => shPresent s (first + i) && (first + i) / 32 == first / 32)
       && rdSh s (F.cnvCapchTrigoff r) < nch
       && rg.1 % 2 ^ 20 + rg.2 ≤ 2 ^ 20
       && ((List.range 64).all fun q => q == r || !rdShB s (F.cnvCapcfgEn q)
            || rg.1 + rg.2 ≤ (shRange s q).1 || (shRange s q).1 + (shRange s q).2 ≤ rg.1)
       && rd s (F.sbOwnerOwner (rdSh s (F.cnvCapcfgBank r))) == 0x59
       && post ≤ size && (!rdShB s (F.cnvCapcfgMarksel r) || rdSh s (F.cnvCapprePre r) ≤ size - post)))

/-- The commit is not refused (R216). -/
def cnvAgrees (s : State) : Bool :=
  (!shChanges s F.cnvPllcfgPllmul || (List.range 32).all fun n => !portOn s n)
    && (List.range 32).all (portAgrees s) && (List.range 1024).all (bindAgrees s) && (List.range 64).all (ringAgrees s)

/-- The frames still outstanding at a commit that restarts the framing of a port (R189). -/
def endFraming (n : Nat) (s : State) : State :=
  let qs := (s.port n).strobes.filter (!·.done)
  let s1 := forAll qs (fun q s => match q.got with
    | some (ws, mf) => acceptFrame n q ws mf s
    | none => missFrame true n q s) s
  put ((clearSent n s1).updPort n fun p => { p with ostbs := 0, strobes := [], lastWord := [], okRun := 0, missRun := 0 })
    (F.cnvPortstatSync n) 0

/-- A ring after a commit: OFF when not enabled, else in STREAM or WAIT; one newly enabled starts at record 0 (R197). -/
def ringCommit (on : List Nat) (r : Nat) (s : State) : State :=
  if !rdB s (F.cnvCapcfgEn r) then put s (F.cnvCapstatState r) 0
  else
    let st := if rdB s (F.cnvCapcfgMode r) then 2 else 1
    if on.contains r then put s (F.cnvCapstatState r) st
    else
      put (put (put (put (s.setRing r { Ring.init with abortSeen := s.abortCount }) (F.cnvCapstatState r) st)
        (F.cnvCapstatWrptr r) 0) (F.cnvCaptotalTotal r) 0) (F.cnvCapstatMarkvalid r) 0

/-- CNV_COMMIT: refused as a whole, or applied: a changed PLL unlocks, a retimed port restarts its framing, a port
newly enabled starts it, a ring enters its state. -/
def cnvCommitEff (s : State) : State :=
  if cnvAgrees s then
    let newPll := shChanges s F.cnvPllcfgPllmul
    let retimed := (List.range 32).filter (portRetimed s)
    let switched := (List.range 32).filter fun n => shChanges s (F.cnvPortcfgEn n)
    let on := (List.range 64).filter fun r => rdB s (F.cnvCapcfgEn r)
    let s1 := commitOk (forAll retimed endFraming s) 4
    let s2 := if newPll then put s1 F.cnvPllcfgLock 0 else s1
    let s3 := forAll switched (fun n s => put ((clearSent n s).setPort n .init) (F.cnvPortstatSync n) 0) s2
    syncLive (forAll (List.range 64) (ringCommit on) s3)
  else cfgErr 4 (dropShadow s 4)

/-! ### The rows -/

/-- CNV_COMMIT (R216). -/
def execCnvCommit (s : State) : Host.Outcome State Fault Refusal := act 3 s cnvCommitEff

/-- CNV_PLL_LOCK (R182). -/
def execCnvPllLock (s : State) : Host.Outcome State Fault Refusal := act 3 s pllLockEff

/-- CNV_PLLUNLOCK (R182). -/
def execCnvPllunlock (s : State) : Host.Outcome State Fault Refusal := act 3 s pllUnlockEff

/-- CMCLKLOSS (R218). -/
def execCmclkloss (s : State) : Host.Outcome State Fault Refusal := act 3 s cmclkLossEff

/-- CMCLK_RESTORED (R423). -/
def execCmclkRestored (s : State) : Host.Outcome State Fault Refusal := act 3 s cmclkRestoredEff

/-- OSTB (R190). -/
def execOstb (n te : Nat) (s : State) : Host.Outcome State Fault Refusal := act 3 s (ostbEff n te)

/-- INPUT_FRAME (R189). -/
def execInputFrame (n : Nat) (l0 l1 : List Nat) (s : State) : Host.Outcome State Fault Refusal :=
  act 3 s (inputFrameEff n l0 l1)

/-- FRAME_MISSING (R189). -/
def execFrameMissing (n : Nat) (s : State) : Host.Outcome State Fault Refusal := act 3 s (frameMissingEff n)

/-- RINGRD (R196). -/
def execRingrd (d : Deliver) (s : State) : Host.Outcome State Fault Refusal := act 3 s (ringrdEff d)

/-- CAP_ARM (R198). -/
def execCapArm (r : Nat) (s : State) : Host.Outcome State Fault Refusal := act 3 s (capArmEff r)

/-- CAP_TRIG (R199). -/
def execCapTrig (r : Nat) (s : State) : Host.Outcome State Fault Refusal := act 3 s (capTrigEff r)

/-- CAP_STOP (R197). -/
def execCapStop (r : Nat) (s : State) : Host.Outcome State Fault Refusal := act 3 s (capStopEff r)

end Sys2Proof.Machine
end

