-- ==== Sys2Proof/Machine/SpanLink.lean ====
section
/-! DEFINITION. Tokens at their stations, route changeovers, and the span links: training, codewords, credits, transit and
latency (R224, R233 to R236, R243 to R254). -/

namespace Sys2Proof.Machine

open Sys2Proof

/-! ### Where an address is served (R22, R454) -/

/-- The station and the port there of a device address; none outside every row of R454. -/
def addrStation (a : Nat) : Option (Nat × Nat) :=
  if a < 0x1000000 then
    match blkOf a with
    | some b => some (regStation a, if 17 ≤ b ∧ b ≤ 32 then 17 else 0)
    | none => some (0, 0)
  else if (0x08000000 ≤ a ∧ a < 0x082C0000) ∨ (0x0D000000 ≤ a ∧ a < 0x0D040000) ∨ (0x0E000000 ≤ a ∧ a < 0x0E010000)
  then some (24, 0)
  else if 0x100000000 ≤ a ∧ a < 0x106100000 then
    let r := a - 0x100000000
    let b := (if r < 0x6000000 then r % 0x2000000 else (r - 0x6000000) * 32) / 2 ^ 20
    some (bgStation b, b % 8)
  else if 0x200000000 ≤ a ∧ a < 0x204000000 then some (0, 0)
  else none

/-! ### Egress and transit (R247) -/

/-- A token or an MGT packet of this device leaves on a port in class 0. -/
def egress (port : Nat) (p : Packet) (s : State) : State := spanSend port { p with epoch := 0 } s

/-- The DEV that routes a packet: of a token its tag's, of an MGT request the target, of an answer SDEV of the
request. -/
def routeDev (p : Packet) : Nat := if p.vn = vnTok then bits p.f 52 12 else p.mgtDev

/-- A packet of a link for a remote device, arrived on `port`: forwarded on its route's port, or discarded. -/
def transit (port : Nat) (p : Packet) (s : State) : State :=
  let dev := routeDev p
  let dst := rd s (F.spnRoutePort dev)
  if !rdB s (F.spnRouteValid dev) then event 13 4 port s
  else if dst = port ∨ p.sphops = 15 then event 13 3 port s
  else
    let cls := if p.epoch % 2 = 1 ∨ rdB s (F.spnRouteDl dev) then 1 else 0
    spanSend dst { p with epoch := cls, f := setBits p.f 72 4 (p.sphops + 1) } s

/-- An MGT request for a remote device at the span complex: one of 256 span TXNs is taken, and the request waits while
none is free. -/
def spanRequest (p : Packet) (s : State) : Option State :=
  let dev := p.mgtDev
  if !rdB s (F.spnRouteValid dev) then some (reply p 0x43 stNOROUTE [] (event 13 4 (rd s (F.spnRoutePort dev)) s))
  else
    match (List.range 256).find? fun t => !s.spanTxns.any (·.txn == t) with
    | none => none
    | some t =>
      let port := rd s (F.spnRoutePort dev)
      let q : SpanTxn := ⟨t, p.src, p.init, p.txn, p.asker, port⟩
      some (egress port { p with f := setBits (setBits p.f 64 8 t) 76 12 (devnum s) } { s with spanTxns := s.spanTxns ++ [q] })

/-- An MGT answer for a remote requester at the span complex. -/
def spanAnswer (p : Packet) (s : State) : State :=
  let dev := p.mgtDev
  if rdB s (F.spnRouteValid dev) then egress (rd s (F.spnRoutePort dev)) p s
  else event 13 4 (rd s (F.spnRoutePort dev)) s

/-- An answer from a link for this device: mapped back to its request; a late one is discarded (R231, R247). -/
def answerBack (p : Packet) (s : State) : State :=
  match s.spanTxns.find? (·.txn == p.txn) with
  | some q =>
    inject { p with src := 25, dstn := q.src, dstp := 0, init := q.init, asker := q.asker,
                    f := setBits p.f 64 8 q.origTxn } { s with spanTxns := s.spanTxns.filter (· != q) }
  | none => s

/-! ### TOKEN (R224) -/

/-- A token at its station: for the span complex it leaves the device, else it enters a PE's input queue. -/
def tokenRow (d : Deliver) (p : Packet) (s : State) : Option State :=
  if p.dstn = 25 then
    some (egress p.via (if d.data = .uncorrectable then { p with f := setBits p.f 64 4 tyPoison } else p) s)
  else tokenAt d.data p s

/-! ### Packets from a link -/

/-- The units that a packet returns to the sender as credit when it leaves the receive buffer (R246). -/
def returnCredit (port : Nat) (p : Packet) (s : State) : State :=
  spanSend port (linkUnit 0x71 ((1 + p.len) * 2 ^ (16 * creditIdx p))) s

/-- A TOK or MGT packet leaves the receive buffer: into the local rings under initiator 0x5B and the local epoch, or on
to its route. -/
def fromLink (port : Nat) (p : Packet) (s : State) : State :=
  returnCredit port p <|
    if p.cmd = 0x44 then phframeEff port p.f (p.units.headD 0) s
    else if routeDev p ≠ devnum s then transit port p s
    else if p.vn = vnTok then
      inject { p with src := 25, dstn := clStation (bits p.f 10 4), dstp := 0, epoch := 0, init := 0x5B, asker := .nobody } s
    else if p.cmd = 0x42 ∨ p.cmd = 0x43 then answerBack { p with epoch := 0 } s
    else
      match addrStation p.mgtAddr with
      | some (st, port') =>
        inject { p with src := 25, dstn := st, dstp := port', epoch := 0, init := 0x5B, asker := .nobody } s
      | none => reply { p with src := 25, dstn := 25, epoch := 0, init := 0x5B, asker := .nobody } 0x43 stNOTARGET [] s

/-- A TOK packet that arrives during a full quiesce is held in the receive buffer (R253). -/
def received (port : Nat) (p : Packet) (s : State) : State :=
  if p.vn = vnTok && s.injectStop then s.updSpan port fun x => { x with recvQ := x.recvQ ++ [p] } else fromLink port p s

/-- The receive buffers held by a full quiesce are emptied at RESUME. -/
def releaseRecv (s : State) : State :=
  forAll (List.range 4) (fun port s =>
    forAll (s.span port).recvQ (fromLink port) (s.updSpan port fun x => { x with recvQ := [] })) s

/-! ### Training and loss (R248, R251) -/

/-- The live bit of LINKDOWN: a port that was TRAINED is not (R380). -/
def linkLive (s : State) : State := setLive 13 0 ((List.range 4).any fun p => (s.span p).oldPeer.isSome) s

/-- The port's state. -/
def setSpanState (port st : Nat) (s : State) : State := put s (F.spnPortstatState port) st

/-- A port leaves its state for PMD training, or goes down when it is not enabled; from TRAINED it raises LINKDOWN and
remembers its peer. -/
def spanDown (port : Nat) (s : State) : State :=
  let st := spanState s port
  let next := if rdB s (F.spnPortcfgEn port) then 1 else 0
  let s1 := setSpanState port next (s.updSpan port fun x => { x with samples := [], granted := false, credits := [0, 0, 0, 0] })
  if st = 5 then
    event 13 0 port <| linkLive <| s1.updSpan port fun x =>
      { x with oldPeer := some (rd s (F.spnPortstatPeerdev port), rd s (F.spnPortstatPeerport port), s.now) }
  else s1

/-- Training has not completed in time, or to another peer: what is unacknowledged is discarded (R251). -/
def spanLoss (port : Nat) (s : State) : State :=
  let x := s.span port
  let n := x.replay.length
  let s1 := linkLive (s.setSpan port { x with
    replay := [], txPart := [], rxPart := [], txSeq := 0, rxSeq := 0, nakOwed := false, oldPeer := none })
  event 13 2 port (putSat s1 (F.spnPorterrLost port) n)

/-- EN written for a port: training begins after GEN_COMMIT (R24, R248). -/
def spanEnableEff (port en : Nat) (s : State) : State :=
  if 4 ≤ port then s
  else
    let was := rd s (F.spnPortcfgEn port)
    let s1 := put s (F.spnPortcfgEn port) en
    if en % 2 = was then s1
    else if en % 2 = 0 then spanDown port s1
    else if s.locked.contains 0 then setSpanState port 1 s1
    else s1

/-- PMD training is complete. -/
def pmdEff (port : Nat) (s : State) : State :=
  if port < 4 && spanState s port == 1 then setSpanState port 2 s else s

/-- F of IDENT (R246). -/
def identF (s : State) (port : Nat) : Nat := devnum s + port * 2 ^ 12 + s.stepping % 16 * 2 ^ 14 + 2 ^ 18

/-- IDENT sent. -/
def sendIdent (port : Nat) (s : State) : State := spanSend port (linkUnit 0x74 (identF s port)) s

/-- The lanes are aligned and codewords lock. -/
def alignedEff (port : Nat) (s : State) : State :=
  if port < 4 && spanState s port == 2 then sendIdent port (setSpanState port 3 s) else s

/-- PROBE sent (R249). -/
def sendProbe (port : Nat) (s : State) : State := spanSend port (linkUnit 0x72 (s.now % 2 ^ 64)) s

/-- The replay buffer sent again. -/
def resend (port : Nat) (s : State) : State :=
  let x := s.span port
  forAll x.replay (fun e => emitOut (.span port (message e.1 ((x.rxSeq + 63) % 64) e.2.1 x.nakOwed false e.2.2))) s

/-- IDENT received in state IDENT (R246, R248, R251). -/
def identEff (port f : Nat) (s : State) : State :=
  if 4 ≤ port ∨ spanState s port ≠ 3 then s
  else
    let dev := bits f 0 12
    let pp := bits f 12 2
    if dev = devnum s then event 13 1 port (setLive 13 1 true (setSpanState port 6 s))
    else
      let s1 := setSpanState port 4 (put (put s (F.spnPortstatPeerdev port) dev) (F.spnPortstatPeerport port) pp)
      let s2 := match (s.span port).oldPeer with
        | some (d, q, t) => if d = dev ∧ q = pp ∧ s.now ≤ t + msEtu 100 then s1 else spanLoss port s1
        | none => s1
      sendProbe port s2

/-- The port is TRAINED once sixteen probes have returned and the peer has granted its buffers; sending resumes from
the replay buffer. -/
def tryTrained (port : Nat) (s : State) : State :=
  let x := s.span port
  if spanState s port == 4 && x.granted && x.samples.length == 16 then
    let s1 := linkLive (setSpanState port 5 (s.setSpan port { x with oldPeer := none }))
    drainRemotes (spanFlush port (resend port s1))
  else s

/-- CREDIT received (R246). -/
def creditEff (port f : Nat) (s : State) : State :=
  if 4 ≤ port ∨ spanState s port < 3 then s
  else
    let s1 := s.updSpan port fun x =>
      { x with credits := (List.range 4).map fun i => x.credits.getD i 0 + bits f (16 * i) 16, granted := true }
    drainRemotes (spanFlush port (tryTrained port s1))

/-- PROBE received: the ECHO carries its count and the holding time (R249). -/
def probeEff (port f hold : Nat) (s : State) : State :=
  if port < 4 && 3 ≤ spanState s port then spanSend port (linkUnit 0x73 (f % 2 ^ 64 + hold % 2 ^ 16 * 2 ^ 64)) s else s

/-- ECHO received: the latency is the mean over the last sixteen probes; the sixteenth of the training grants the
port's receive buffers. -/
def echoEff (port f : Nat) (s : State) : State :=
  let st := spanState s port
  if 4 ≤ port ∨ (st ≠ 4 ∧ st ≠ 5) then s
  else
    let x := s.span port
    let d := s.now - f % 2 ^ 64 - bits f 64 16
    let l := x.samples ++ [d]
    let l := l.drop (l.length - 16)
    let s1 := put (s.setSpan port { x with samples := l }) (F.spnPortlatPs port) (l.sum * 625 / (2 * l.length))
    if st = 5 then s1
    else if l.length < 16 then sendProbe port s1
    else tryTrained port (spanSend port (linkUnit 0x71 (512 + 512 * 2 ^ 16 + 64 * 2 ^ 32 + 64 * 2 ^ 48)) s1)

/-- The IDENT timer: every microsecond in IDENT, every millisecond while TRAINED. -/
def identTimerEff (port : Nat) (s : State) : State :=
  if port < 4 && (spanState s port == 3 || spanState s port == 5) then sendIdent port s else s

/-- The probe timer, every millisecond while TRAINED. -/
def probeTimerEff (port : Nat) (s : State) : State :=
  if port < 4 && spanState s port == 5 then sendProbe port s else s

/-- Codeword lock is lost, or the signal: the port trains afresh. -/
def spanLostEff (port : Nat) (s : State) : State :=
  if port < 4 && 1 ≤ spanState s port && spanState s port != 6 then spanDown port s else s

/-- A retrain has not completed within 100 ms. -/
def retrainTimeoutEff (port : Nat) (s : State) : State :=
  match (s.span port).oldPeer with
  | some (_, _, t) => if port < 4 && spanState s port != 5 && t + msEtu 100 ≤ s.now then spanLoss port s else s
  | none => s

/-! ### CODEWORD (R244, R245) -/

/-- The distance of a SEQ behind the next one to be sent. -/
def seqBack (next q : Nat) : Nat := (next + 64 - q % 64) % 64

/-- The acknowledgement of a codeword releases the replay buffer up to ACK. -/
def ackTo (port ack : Nat) (s : State) : State :=
  s.updSpan port fun x => { x with replay := x.replay.filter fun e => seqBack x.txSeq e.1 < seqBack x.txSeq ack }

/-- A NAK resends the replay buffer; the sixteenth replay within a millisecond takes the port down. -/
def nakEff (port : Nat) (s : State) : State :=
  let x := s.span port
  let rs := (x.replays.filter fun t => s.now < t + msEtu 1) ++ [s.now]
  let s1 := resend port (putSat (s.setSpan port { x with replays := rs }) (F.spnPorterrReplay port) 1)
  if 16 ≤ rs.length then spanDown port (s1.updSpan port fun x => { x with replays := [] }) else s1

/-- A packet whose units have arrived on a port, by its command. A header with a reserved value is treated as one with a reserved
command (DESIGN CHOICE, log entry 83). -/
def cwPacket (port : Nat) (us : List Nat) (s : State) : State :=
  let p := ofHeader (us.headD 0) us.tail
  if p.vn = vnLink ∧ p.cmd = 0x70 then s
  else if p.vn = vnLink ∧ p.cmd = 0x71 then creditEff port p.f s
  else if p.vn = vnLink ∧ p.cmd = 0x72 then probeEff port p.f 0 s
  else if p.vn = vnLink ∧ p.cmd = 0x73 then echoEff port p.f s
  else if p.vn = vnLink ∧ p.cmd = 0x74 then identEff port p.f s
  else if p.vn ≠ vnTok ∧ p.vn ≠ vnMgt ∨ !headerOk (us.headD 0) then event 6 1 25 s
  else if cmdVn p.cmd ≠ some p.vn then badPacket { p with dstn := 25, dstp := 0, epoch := 0, init := 0x5B } s
  else if spanState s port = 5 then received port { p with dstn := 25, dstp := 0 } s
  else s

/-- Units of a link sorted into whole packets and the units of one that has not ended. -/
def gatherUnits (part us : List Nat) : List (List Nat) × List Nat :=
  us.foldl (fun (x : List (List Nat) × List Nat) u =>
    let q := x.2 ++ [u]
    let n := if headerLen (q.headD 0) < 9 then headerLen (q.headD 0) else 0
    if n + 1 ≤ q.length then (x.1 ++ [q], []) else (x.1, q)) ([], part)

/-- The units of a codeword in sequence: those of a packet that an earlier one began, then from FHO on. -/
def codewordUnits (port : Nat) (c : Codeword) (s : State) : State :=
  let x := s.span port
  let r := gatherUnits x.rxPart (if x.rxPart = [] then c.units.drop c.fho else c.units)
  forAll r.1 (cwPacket port) (s.setSpan port { x with rxSeq := (x.rxSeq + 1) % 64, nakOwed := false, rxPart := r.2 })

/-- A received codeword. -/
def codewordEff (port : Nat) (c : Codeword) (s : State) : State :=
  if 4 ≤ port ∨ spanState s port < 3 then s
  else if !c.good ∨ (40 ≤ c.fho ∧ c.fho ≤ 62) then
    sendNull port true (s.updSpan port fun x => { x with nakOwed := true })
  else
    let s1 := if c.corrected then putSat s (F.spnPorterrCorr port) 1 else s
    let s2 := ackTo port c.ack s1
    let s3 := if c.nak then nakEff port s2 else s2
    let x := s3.span port
    let s4 :=
      if c.isNull then s3
      else if c.seq = x.rxSeq then
        let s4 := codewordUnits port c s3
        sendNull port (s4.span port).nakOwed s4
      else if seqBack x.rxSeq c.seq ≤ 32 then s3
      else sendNull port true (s3.setSpan port { x with nakOwed := true })
    drainRemotes (spanFlush port s4)

/-! ### SPN_COMMIT (R254) -/

/-- A valid entry names a remote device and an enabled port. -/
def routeAgrees (s : State) (d : Nat) : Bool :=
  !rdShB s (F.spnRouteValid d) || (d != devnum s && rdB s (F.spnPortcfgEn (rdSh s (F.spnRoutePort d))))

/-- SPN_COMMIT. -/
def spnCommitEff (s : State) : State :=
  if (List.range 4096).all (routeAgrees s) then commitOk s 13 else cfgErr 13 (dropShadow s 13)

/-! ### Changeovers (R234, R235) -/

/-- The entry of station `a` for `d` in epoch `e`: valid, and its ring. -/
def rtEntry (s : State) (a e d : Nat) : Bool × Nat := (rdB s (F.rngRtValid a e d), rd s (F.rngRtRing a e d))

/-- The entries followed from a station in one direction reach `d` within `n` hops. -/
def reaches (s : State) (e d : Nat) (cw : Bool) : Nat → Nat → Bool
  | 0, _ => false
  | n + 1, a =>
    let b := if cw then (a + 1) % 26 else (a + 25) % 26
    if b = d then true
    else if (rd s F.rngBypnextByp).testBit b then reaches s e d cw n b
    else (rtEntry s b e d).1 && ((rtEntry s b e d).2 < 2) == cw && reaches s e d cw n b

/-- The conditions of R234. -/
def epochAgrees (s : State) : Bool :=
  let new := 1 - rd s F.rngEpochCur
  let mask := rd s F.rngChgmaskMask
  let byp := rd s F.rngBypnextByp
  rd s F.rngEpochState == 0
    && ((List.range 26).all fun a => mask.testBit a ||
      ((List.range 26).all fun d => a == d || rtEntry s a 0 d == rtEntry s a 1 d) && byp.testBit a == (rd s F.rngBypassByp).testBit a)
    && (List.range 26).all fun a => (List.range 26).all fun d =>
      a == d || !(rtEntry s a new d).1 || (!byp.testBit d && reaches s new d ((rtEntry s a new d).2 < 2) 25 a)

/-- START: refused with CFGERR, or the stations of the mask stop injecting and STATE is STOP. -/
def epochStartEff (s : State) : State :=
  if epochAgrees s then put s F.rngEpochState 1 else cfgErr 6 s

/-- A changeover at a tick: STOP has become DRAIN, and FLIP IDLE (R235; log entry 84). -/
def changeoverTick (s : State) : State :=
  if rd s F.rngEpochState = 1 then { put s F.rngEpochState 2 with epochAt := some s.now }
  else if rd s F.rngEpochState = 3 then put s F.rngEpochState 0
  else s

/-- A changeover has stopped injection and drains the old epoch. -/
def draining (s : State) : Bool := rd s F.rngEpochState == 1 || rd s F.rngEpochState == 2

/-- Stations in whose buffers packets of the old epoch are resident, as RNG_DRAIN shows them. -/
def drainMask (s : State) : Nat :=
  if draining s then
    (List.range 26).foldl (fun m a =>
      if s.net.any fun p => p.onRing && p.at_ == a && p.epoch == rd s F.rngEpochCur then m + 2 ^ a else m) 0
  else 0

/-- No packet of the old epoch is resident: the epoch flips, the bypass changes apply, injection resumes, and STATE
is FLIP until the next tick. -/
def epochDrainedEff (s : State) : State :=
  if draining s && drainMask s == 0 then
    let s1 := put (put (put s F.rngEpochCur (1 - rd s F.rngEpochCur)) F.rngBypassByp (rd s F.rngBypnextByp)) F.rngEpochState 3
    reinject { s1 with epochAt := none }
  else s

/-- The drain has lasted one millisecond. -/
def epochtoEff (s : State) : State :=
  match s.epochAt with
  | some t => if rd s F.rngEpochState == 2 && t + msEtu 1 ≤ s.now then event 6 4 0 { s with epochAt := none } else s
  | none => s

/-! ### The rows -/

/-- TOKEN (R224). -/
def execToken (d : Deliver) (s : State) : Host.Outcome State Fault Refusal := act 3 s (deliverEff d [0x01] (tokenRow d))

/-- EPOCH_START (R234). -/
def execEpochStart (s : State) : Host.Outcome State Fault Refusal := act 3 s epochStartEff

/-- EPOCH_DRAINED (R235). -/
def execEpochDrained (s : State) : Host.Outcome State Fault Refusal := act 3 s epochDrainedEff

/-- EPOCHTO (R235). -/
def execEpochto (s : State) : Host.Outcome State Fault Refusal := act 3 s epochtoEff

/-- SPAN_PORT_ENABLE (R248). -/
def execSpanPortEnable (port en : Nat) (s : State) : Host.Outcome State Fault Refusal := act 3 s (spanEnableEff port en)

/-- PMD_TRAINED (R248). -/
def execPmdTrained (port : Nat) (s : State) : Host.Outcome State Fault Refusal := act 3 s (pmdEff port)

/-- SPAN_ALIGNED (R248). -/
def execSpanAligned (port : Nat) (s : State) : Host.Outcome State Fault Refusal := act 3 s (alignedEff port)

/-- CODEWORD (R245). -/
def execCodeword (port : Nat) (c : Codeword) (s : State) : Host.Outcome State Fault Refusal := act 3 s (codewordEff port c)

/-- LINK_IDLE (R246): an IDLE unit fills the link and carries nothing. -/
def execLinkIdle (_port : Nat) (s : State) : Host.Outcome State Fault Refusal := act 3 s id

/-- CREDIT (R246). -/
def execCredit (port f : Nat) (s : State) : Host.Outcome State Fault Refusal := act 3 s (creditEff port f)

/-- PROBE (R249). -/
def execProbe (port f hold : Nat) (s : State) : Host.Outcome State Fault Refusal := act 3 s (probeEff port f hold)

/-- ECHO (R249). -/
def execEcho (port f : Nat) (s : State) : Host.Outcome State Fault Refusal := act 3 s (echoEff port f)

/-- LINK_IDENT (R246). -/
def execLinkIdent (port f : Nat) (s : State) : Host.Outcome State Fault Refusal := act 3 s (identEff port f)

/-- SPAN_IDENT_TIMER (R246). -/
def execSpanIdentTimer (port : Nat) (s : State) : Host.Outcome State Fault Refusal := act 3 s (identTimerEff port)

/-- SPAN_PROBE_TIMER (R249). -/
def execSpanProbeTimer (port : Nat) (s : State) : Host.Outcome State Fault Refusal := act 3 s (probeTimerEff port)

/-- CODEWORD_LOCK_LOSS (R251). -/
def execCodewordLockLoss (port : Nat) (s : State) : Host.Outcome State Fault Refusal := act 3 s (spanLostEff port)

/-- SPAN_LOS (R251). -/
def execSpanLos (port : Nat) (s : State) : Host.Outcome State Fault Refusal := act 3 s (spanLostEff port)

/-- SPAN_RETRAIN_TIMEOUT (R251). -/
def execSpanRetrainTimeout (port : Nat) (s : State) : Host.Outcome State Fault Refusal :=
  act 3 s (retrainTimeoutEff port)

/-- SPN_COMMIT (R254). -/
def execSpnCommit (s : State) : Host.Outcome State Fault Refusal := act 3 s spnCommitEff

end Sys2Proof.Machine
end

