-- ==== Sys2Proof/Machine/SupCore.lean ====
section
/-! DEFINITION. The supervisor cores: address space, memory attributes, interrupts, exceptions, fault halt, and the frame of
every instruction (R283 to R310, R445, R446). -/

namespace Sys2Proof.Machine

open Sys2Proof

/-! ### Cores and threads -/

/-- SUP_COREcSTAT.STATE: 0 reset, 1 held, 2 running, 3 fault halt, 4 halted by the debug port (R307). -/
def coreState (s : State) (c : Nat) : Nat := rd s (F.supCorestatState c)

/-- A core that counts as running: a debug halt does (R445). -/
def coreRuns (s : State) (c : Nat) : Bool := coreState s c == 2 || coreState s c == 4

/-- A thread may reach its next instruction boundary. -/
def threadRuns (s : State) (t : Nat) : Bool :=
  t < 8 && !s.deviceHalted && (t % 2 == 0 || rdB s (F.supCorectlThr1en (t / 2)))
    && (coreState s (t / 2) == 2 || (coreState s (t / 2) == 4 && (s.thr t).stepping))

/-- A general register (R286). -/
def gRead (th : Thread) (i : Nat) : Word :=
  if i = 0 then 0 else if i = 31 then BitVec.ofNat 64 (th.sp.getD th.ring 0) else mget 0 th.g i

/-- The stack pointer of a ring. -/
def setSp (th : Thread) (n v : Nat) : Thread := { th with sp := th.sp.set n (v % 2 ^ 64) }

/-- A general register written: g0 discards, g31 is the stack pointer of the current ring (R286). -/
def gWrite (th : Thread) (i : Nat) (v : Word) : Thread :=
  if i = 0 then th else if i = 31 then setSp th th.ring v.toNat else { th with g := mset 0 th.g (i % 32) v }

/-- STATUS as it reads (R288). -/
def statusWord (th : Thread) : Nat :=
  th.ring % 4 + th.mask % 16 * 2 ^ 4 + bit th.inRescue * 2 ^ 8 + bit (th.lcount != 0) * 2 ^ 9

/-! ### The address space (R284) -/

/-- What lies at an address of a thread of core `c`. Memory is named by its device address (R454). -/
inductive Place where
  | reg (a : Nat)
  | mem (a : Nat)
  | rom (a : Nat)
  | scratch (a : Nat)
  | store (a : Nat)
  | host (a : Nat)
  | none
  deriving DecidableEq, Repr

def placeOf (c a : Nat) : Place :=
  if a < 0x1000000 then .reg a
  else if 0x08000000 ≤ a ∧ a < 0x082C0000 then .mem a
  else if 0x0C000000 ≤ a ∧ a < 0x0C010000 then .mem (0x0D000000 + c * 0x10000 + (a - 0x0C000000))
  else if 0x0E000000 ≤ a ∧ a < 0x0E010000 then .rom (a - 0x0E000000)
  else if 0x100000000 ≤ a ∧ a < 0x108000000 then .scratch a
  else if 0x200000000 ≤ a ∧ a < 0x204000000 then .store a
  else if 2 ^ 63 ≤ a then .host (a - 2 ^ 63)
  else .none

/-- `n` bytes of the boot ROM as a number. -/
def romNat (a n : Nat) : Nat := ofLe ((List.range n).map fun i => (Config.bootRom (a + i)).toNat)

/-- `n` bytes that the hardware of core `c` reads in memory or the boot ROM. -/
def coreNat (s : State) (c a n : Nat) : Option Nat :=
  match placeOf c a with
  | .mem p => some (memNat s.mem p n)
  | .rom o => some (romNat o n)
  | _ => none

/-- The retire target of an error in supervisor or core-local memory (R391, R392). The manual gives the rows of these arrays no
width: a row is taken as one 8-byte word (log entry 28). -/
def supTarget (p : Nat) : Retire :=
  if p < 0x082C0000 then ⟨1, 3, (p - 0x08000000) / 0x40000, (p - 0x08000000) % 0x40000 / 8⟩
  else ⟨1, 4, (p - 0x0D000000) / 0x10000, (p - 0x0D000000) % 0x10000 / 8⟩

/-- MEMCORR (3) or MEMUNCORR (4) at a device address (R310). -/
def supMemErr (src p : Nat) (s : State) : State :=
  fault { FEv.plain 15 src 0 with detail := p, tgt := some (supTarget p) } s

/-! ### The memory attribute table (R290, R291) -/

/-- The lowest-numbered valid entry of core `c` that contains an address. -/
def matLookup (s : State) (c a : Nat) : Option Nat :=
  (List.range 32).find? fun i =>
    let m := s.mat (c * 32 + i)
    m.attr.testBit 0 && m.base / 4096 ≤ a / 4096 && a / 4096 ≤ m.lim / 4096

/-- XMAX, WMAX or RMAX admits a ring. -/
def ringFits (v r : Nat) : Bool := v < 4 && r ≤ v

/-- The kinds of access that the table checks. -/
inductive Use where
  | fetch | read | write
  deriving DecidableEq, Repr

/-- Where an attribute word holds the highest ring for a use. -/
def useBit : Use → Nat
  | .fetch => 12
  | .write => 8
  | .read => 4

/-- The defaults of R291 for an address that no entry contains. An address outside every row is not denied: it ends in
BUSERR (R284). -/
def ring0Default (u : Use) (p : Place) : Bool :=
  match u, p with
  | .fetch, .mem _ | .fetch, .rom _ => true
  | .fetch, _ => false
  | .write, .rom _ => false
  | _, _ => true

/-- The access of a thread passes the table. -/
def allowed (s : State) (t : Nat) (u : Use) (a : Nat) : Bool :=
  let r := (s.thr t).ring
  match matLookup s (t / 2) a with
  | some i => ringFits (bits (s.mat (t / 2 * 32 + i)).attr (useBit u) 3) r
  | none => r == 0 && ring0Default u (placeOf (t / 2) a)

/-! ### Interrupts (R306, R307) -/

/-- Something that can end a WAIT is pending. -/
def eventPending (th : Thread) : Bool := th.pend != 0 || th.busErr.isSome || th.wdogPend || th.peerHalt != 0

/-- The lowest-numbered core that is running. -/
def lowestRunning (s : State) : Option Nat := (List.range 4).find? (coreRuns s)

/-- The thread that an interrupt source reaches: that of its route, or thread 0 of the lowest running core while the
routed core is in fault halt or in reset. -/
def irqThread (s : State) (n : Nat) : Option Nat :=
  let c := rd s (F.supIrqrouteCore n)
  if coreState s c = 0 ∨ coreState s c = 3 then (lowestRunning s).map (2 * ·)
  else some (c * 2 + rd s (F.supIrqrouteThread n))

/-- A thread has something pending. -/
def wake (f : Thread → Thread) (th : Thread) : Thread := { f th with waiting := false }

/-- An interrupt source's event: delivered when its route is enabled. Sources 43 to 63 do not exist. -/
def raiseIrq (n : Nat) (s : State) : State :=
  if n < 43 && rdB s (F.supIrqrouteEn n) then
    match irqThread s n with
    | some t => s.updThr t (wake fun th => { th with pend := th.pend ||| 2 ^ n })
    | none => s
  else s

/-! ### Fault halt and device halt (R305, R306, R387) -/

/-- The device halts: the abort ramp starts on every drive channel, and clusters, converter token formation, log engine
and cores stop. -/
def deviceHalt (s : State) : State := haltStops (abortBy 1 (fun _ => true) s)

/-- The agent is a thread of core `c`. -/
def Asker.ofCore (c : Nat) : Asker → Bool
  | .core t _ _ _ _ => t / 2 == c
  | .coreStore t _ => t / 2 == c
  | .corePres t _ _ _ => t / 2 == c
  | .coreFrame t _ _ => t / 2 == c
  | _ => false

/-- The accesses of core `c` that are outstanding will be discarded as they complete. -/
def dropAccesses (c : Nat) (s : State) : State :=
  s.updStn 24 fun x => { x with pend := x.pend.filter fun q => !q.asker.ofCore c }

/-- A thread that stops at once. -/
def stopThread (th : Thread) : Thread :=
  { th with loading := false, stores := 0, waiting := false, slot := none, stepping := false }

/-- Sources pending at the threads of a core that stopped reach the thread that now takes them (R306). -/
def movePend (c : Nat) (s : State) : State :=
  forAll [c * 2, c * 2 + 1] (fun t s =>
    let p := (s.thr t).pend
    forAll ((List.range 43).filter p.testBit) raiseIrq (s.updThr t fun th => { th with pend := 0 })) s

/-- No core remains running while one is in fault halt or in reset: the device halts (R306). -/
def haltIfNone (s : State) : State :=
  if (lowestRunning s).isNone && (List.range 4).any (fun c => coreState s c == 0 || coreState s c == 3) && !s.deviceHalted
  then deviceHalt s else s

/-- Core `c` enters fault halt through thread `t` with the cause word being entered. -/
def faultHalt (t why cause : Nat) (s : State) : State :=
  let c := t / 2
  let pc := (s.thr t).pc
  let s1 := put (put s (F.supCorestatState c) 3) (F.supCorestatHaltwhy c) why
  let s2 := put (put s1 (F.supCorehpcloPc c) (pc % 2 ^ 32)) (F.supCorehpchiPc c) (pc / 2 ^ 32)
  let s3 := put (put s2 (F.supCorehcauseThread c) (t % 2)) (F.supCorehcauseCause c) cause
  let s4 := dropAccesses c (forAll [c * 2, c * 2 + 1] (fun u s => s.updThr u stopThread) s3)
  let s5 := abandonLocks (fun h => h / 256 == 0x50 + c) s4
  let peers := (List.range 8).filter fun u => u / 2 != c && coreState s5 (u / 2) != 0 && coreState s5 (u / 2) != 3
  let s6 := forAll peers (fun u s => s.updThr u (wake fun th => { th with peerHalt := th.peerHalt ||| 2 ^ c })) s5
  haltIfNone (event 15 0 c (movePend c s6))

/-! ### Exception entry (R295 to R299) -/

/-- A vector table entry: handler, level, ring, and whether it is valid (R295). -/
structure Vector where
  handler : Nat
  level : Nat
  ring : Nat
  valid : Bool
  deriving DecidableEq, Repr

/-- The entry of a cause. -/
def vectorOf (s : State) (t code : Nat) : Vector :=
  let a := (s.thr t).vbase + 16 * code
  match coreNat s (t / 2) a 8, coreNat s (t / 2) (a + 8) 8 with
  | some h, some w =>
    ⟨h, w % 16, bits w 4 2, w.testBit 8 && w % 16 != 0 && bits w 4 2 < 2 && bits w 6 2 == 0 && w / 2 ^ 9 == 0 && h % 4 == 0⟩
  | _, _ => ⟨0, 0, 0, false⟩

/-- The stack check of R297 for a frame of `n` bytes below `sp`, written by ring `r`. -/
def stackOk (s : State) (c r sp n : Nat) : Bool :=
  sp % 16 == 0 && n ≤ sp &&
    (match placeOf c (sp - n), placeOf c (sp - 1) with
     | .mem p, .mem q => q == p + (n - 1)
     | _, _ => false) &&
    (match matLookup s c (sp - n), matLookup s c (sp - 1) with
     | some i, some j =>
       let m := (s.mat (c * 32 + i)).attr
       i == j && ringFits (bits m 8 3) r && !m.testBit 2
     | none, none => r == 0
     | _, _ => false)

/-- 64-bit words written upwards from an address of core `c` that lies in memory. -/
def writeFrame (c a : Nat) (ws : List Nat) (s : State) : State :=
  match placeOf c a with
  | .mem p => { s with mem := memWrite s.mem p (ws.flatMap (natBytes 8)) }
  | _ => s

/-- An exception as it is entered: cause code, level, EADDR, EPC, whether it arose in a delay slot, was escalated, is an
imprecise store error, and the faulting instruction word of a synchronous cause. -/
structure Entry1 where
  code : Nat
  level : Nat
  eaddr : Nat
  epc : Nat
  ds : Bool
  esc : Bool
  imp : Bool
  insn : Nat
  deriving DecidableEq, Repr

/-- The cause word of R298. -/
def causeWord (e : Entry1) (code level : Nat) (rescue : Bool) : Nat :=
  code + level * 2 ^ 8 + bit e.ds * 2 ^ 12 + bit e.esc * 2 ^ 13 + bit rescue * 2 ^ 14 + bit e.imp * 2 ^ 15
    + (if rescue then e.code * 2 ^ 16 + e.level * 2 ^ 24 else 0)

/-- The ten words of the frame (R298). -/
def frameWords (th : Thread) (e : Entry1) (cause badsp : Nat) : List Nat :=
  [e.epc, statusWord th, cause, e.eaddr, th.sp.getD th.ring 0, th.lcount, th.lstart, th.lend, badsp, e.insn]

/-- The thread inside the handler. -/
def inHandler (th : Thread) (ring sp level handler : Nat) : Thread :=
  { setSp th ring sp with ring := ring, mask := level, lcount := 0, pc := handler, slot := none, loading := false,
                          waiting := false, stepping := false }

/-- The rescue entry of R299. -/
def rescue (t : Nat) (e : Entry1) (badsp : Nat) (frameBad : Bool) (s : State) : State :=
  let th := s.thr t
  let level := if th.mask = 14 then 15 else 14
  let cause := causeWord e 0x0A level true
  let v := vectorOf s t 0x0A
  let a := 0x0C00FE00 + t % 2 * 512 - 80
  if !v.valid then faultHalt t 5 cause s
  else if frameBad then faultHalt t 4 cause s
  else
    event 15 2 t <| (writeFrame (t / 2) a (frameWords th e cause badsp) s).updThr t fun th =>
      { inHandler th 0 a level v.handler with inRescue := true }

/-- Exception entry (R297). -/
def enter (t : Nat) (e : Entry1) (v : Vector) (frameBad : Bool) (s : State) : State :=
  let th := s.thr t
  let cause := causeWord e e.code e.level false
  let tr := min v.ring th.ring
  let sp := th.sp.getD tr 0
  if !v.valid then faultHalt t 5 cause s
  else if stackOk s (t / 2) tr sp 80 then
    if frameBad then faultHalt t 4 cause s
    else
      (writeFrame (t / 2) (sp - 80) (frameWords th e cause 0) s).updThr t fun th =>
        inHandler th tr (sp - 80) e.level v.handler
  else if th.inRescue then faultHalt t 1 cause s
  else rescue t e sp frameBad s

/-- A synchronous cause (R296): it cannot wait, so it is escalated above MASK; at level 15 it is a double fault. -/
def takeSync (t code eaddr insn : Nat) (frameBad : Bool) (s : State) : State :=
  let th := s.thr t
  let v := vectorOf s t code
  let esc := decide (v.level ≤ th.mask)
  let pos := match th.slot with
    | some (br, _, _) => (br, true)
    | none => (th.pc, false)
  let e : Entry1 := ⟨code, if esc then th.mask + 1 else v.level, eaddr, pos.1, pos.2, esc, false, insn⟩
  if th.mask = 15 then faultHalt t 2 (causeWord { e with level := 15 } code 15 false) s
  else enter t e v frameBad s

/-! ### Breakpoints (R446) -/

/-- An enabled breakpoint of the fetching thread names an address. -/
def breakAt (s : State) (t a : Nat) : Bool :=
  (List.range 4).any fun k =>
    (if t % 2 = 0 then rdB s (F.dbgCorebploEn0 (t / 2) k) else rdB s (F.dbgCorebploEn1 (t / 2) k))
      && rd s (F.dbgCorebploAddr (t / 2) k) * 4 + rd s (F.dbgCorebphiAddr (t / 2) k) * 2 ^ 32 == a

/-- Both threads of a core stop for the debug port. -/
def debugHalt (c : Nat) (s : State) : State :=
  forAll [c * 2, c * 2 + 1] (fun t s => s.updThr t fun th => { th with stepping := false, haltAt := s.now })
    (put s (F.supCorestatState c) 4)

/-! ### One instruction -/

/-- What an instruction comes to. -/
inductive SupRes where
  /-- It completes; the next address follows from the slot, the loop or the order. -/
  | done (s : State)
  /-- A serialising transfer to an address. -/
  | jump (target : Nat) (s : State)
  /-- A branch: its delay slot comes next. -/
  | branch (target : Nat) (taken : Bool) (s : State)
  /-- A synchronous exception with its EADDR. -/
  | exc (code eaddr : Nat) (s : State)
  /-- It completes, and the core halts for the debug port. -/
  | stop (s : State)
  /-- It does not complete yet. -/
  | hold (s : State)

/-- The instruction at pc has completed: after a delay slot the branch takes effect, after LEND the loop (R301, R302). -/
def nextPc (th : Thread) : Thread :=
  match th.slot with
  | some (_, target, taken) =>
    if taken then
      { th with pc := target, slot := none,
                lcount := if th.lcount ≠ 0 ∧ (target < th.lstart ∨ th.lend < target) then 0 else th.lcount }
    else { th with pc := th.pc + 4, slot := none }
  | none =>
    if th.lcount ≠ 0 ∧ th.pc = th.lend then
      { th with pc := if 1 < th.lcount then th.lstart else th.pc + 4, lcount := th.lcount - 1 }
    else { th with pc := th.pc + 4 }

/-- The end of an instruction: a breakpoint counts again, and a step ends unless a delay slot follows. -/
def retire (t : Nat) (f : Thread → Thread) (s : State) : State :=
  s.updThr t fun th =>
    let th' := f { th with loading := false }
    { th' with pc := th'.pc % 2 ^ 64, skipBreak := false, stepping := th'.stepping && th'.slot.isSome }

/-- The word at pc, when it can be read. -/
def insnWord (s : State) (t : Nat) : Option Nat := coreNat s (t / 2) (s.thr t).pc 4

/-- A synchronous exception of the instruction at pc. A word that could not be fetched is left open (log entry 3). -/
def raiseSync (t code eaddr : Nat) (fetched frameBad : Bool) (s : State) : State :=
  match (if fetched then insnWord s t else none) with
  | some w => takeSync t code eaddr w frameBad s
  | none => match s.takeFree with
    | (v, s1) => takeSync t code eaddr (v.toNat % 2 ^ 32) frameBad s1

/-- The result of an instruction applied. -/
def settleInsn (t : Nat) (frameBad : Bool) : SupRes → State
  | .done s => retire t nextPc s
  | .jump target s => retire t (fun th => { th with pc := target, slot := none }) s
  | .branch target taken s => retire t (fun th => { th with pc := th.pc + 4, slot := some (th.pc, target, taken) }) s
  | .exc code eaddr s => raiseSync t code eaddr true frameBad s
  | .stop s => debugHalt (t / 2) (retire t nextPc s)
  | .hold s => s

/-- An instruction at a thread: breakpoints, fetch, the checks of LEND and of the delay slot, then its own meaning.
`br` marks a branch, `ser` an instruction that a delay slot does not allow. -/
def supInsn (x : Sup) (br ser : Bool) (f : State → SupRes) (s : State) : State :=
  let t := x.t
  let th := s.thr t
  if !threadRuns s t || th.waiting || th.loading then s
  else if th.slot.isNone && !th.skipBreak && (breakAt s t th.pc || (br && breakAt s t (th.pc + 4))) then
    debugHalt (t / 2) (s.updThr t fun th => { th with skipBreak := true })
  else if th.pc % 4 ≠ 0 then raiseSync t 0x06 th.pc false x.frameBad s
  else if (insnWord s t).isNone || !allowed s t .fetch th.pc then raiseSync t 0x03 th.pc false x.frameBad s
  else
    let mem? := match placeOf (t / 2) th.pc with | .mem p => some p | _ => none
    let s := match x.fetch, mem? with
      | .uncorrectable, some p => supMemErr 4 p s
      | .corrected, some p => supMemErr 3 p s
      | _, _ => s
    if x.fetch = .uncorrectable then raiseSync t 0x08 th.pc false x.frameBad s
    else if x.reserved then raiseSync t 0x01 th.pc true x.frameBad s
    else if th.lcount ≠ 0 ∧ th.pc = th.lend ∧ (br || th.slot.isSome) = true then raiseSync t 0x0D th.pc true x.frameBad s
    else if th.slot.isSome && (br || ser) then raiseSync t 0x0E th.pc true x.frameBad s
    else settleInsn t x.frameBad (f s)

/-! ### Answers to a thread's accesses (R285, R294, R309) -/

/-- The bytes of a load's answer, extended to 64 bits. -/
def extend (size : Nat) (sx : Bool) (v : Nat) : Word :=
  let n := v % 2 ^ (8 * size)
  if sx then BitVec.ofInt 64 (signed (8 * size) n) else BitVec.ofNat 64 n

/-- The thread still waits for an access. -/
def awaits (s : State) (t : Nat) : Bool := (s.thr t).loading

/-- The bytes of an answer's unit from an address on: a scratch unit is read whole, a register from its address (R309). -/
def unitFrom (t addr v : Nat) : Nat :=
  match placeOf (t / 2) addr with
  | .scratch a => v / 2 ^ (8 * (a % 16))
  | _ => v

/-- A load is answered: its register and the next instruction, or BUSERR or UNCORR. -/
def coreLoadAnswer (t addr reg size : Nat) (sx : Bool) (status v : Nat) (frameBad : Bool) (s : State) : State :=
  if !awaits s t then s
  else if status = stOK then retire t (fun th => nextPc (gWrite th reg (extend size sx (unitFrom t addr v)))) s
  else raiseSync t (if status = stUNCORR then 0x08 else 0x07) addr true frameBad s

/-- A presence instruction is answered; DEFERRED completes it, with a register that the manual leaves open. -/
def corePresAnswer (t addr reg status : Nat) (v : Option Nat) (frameBad : Bool) (s : State) : State :=
  if !awaits s t then s
  else if status = stOK then
    retire t (fun th => nextPc (match v with | some n => gWrite th reg (BitVec.ofNat 64 n) | none => th)) s
  else if status = stDEFERRED then
    match s.takeFree with
    | (w, s1) => retire t (fun th => nextPc (gWrite th reg w)) s1
  else raiseSync t (if status = stUNCORR then 0x08 else 0x07) addr true frameBad s

/-- A deferred value reaches the mailbox in core-local memory (R309). A value that the answer does not carry is left
open. -/
def mailbox (t box : Nat) (v : Option Nat) (s : State) : State :=
  let a := 0x0D000000 + t / 2 * 0x10000 + box % 0x10000 / 16 * 16
  let (w, s1) := match v with
    | some n => (n, s)
    | none => match s.takeFree with | (x, s1) => (x.toNat, s1)
  { s1 with mem := memWrite (memWrite s1.mem a (natBytes 8 w)) (a + 8) (natBytes 8 (memNat s1.mem (a + 8) 8 ||| 1)) }

/-- A store is answered; an error stays pending as an imprecise BUSERR (R294). -/
def coreStoreAnswer (t addr status : Nat) (s : State) : State :=
  s.updThr t fun th =>
    let th' := { th with stores := th.stores - 1 }
    if status = stOK then th' else wake (fun th => { th with busErr := some (th.busErr.getD addr) }) th'

end Sys2Proof.Machine
end

