-- ==== Sys2Proof/Machine/Sec.lean ====
section
/-! DEFINITION. The security block: measurement log, device configuration record, identity index, quotes, image checks, the
security commands and the hash engine (R424 to R438, R462). -/

namespace Sys2Proof.Machine

open Sys2Proof

/-! ### Measurement log (R434) -/

/-- An entry appended (the manual gives byte 5 of a service image's entry two contents, so its caller passes a free
value): the accumulator is extended, and the first 4,096 entries are stored. -/
def measure (kind slot id : Nat) (digest : List Nat) (s : State) : State :=
  let n := rd s F.secMlogcntCount
  let e := leBytes 4 n ++ [kind, slot] ++ leBytes 2 id ++ leBytes 8 (tick s) ++ (digest ++ List.replicate 32 0).take 32
    ++ List.replicate 16 0
  let s1 := put { s with mAcc := shake256 (s.mAcc ++ e) 32 } F.secMlogcntCount (n + 1)
  if s.mlog.length < 4096 then { s1 with mlog := s.mlog ++ [e] } else put s1 F.secStatusOverflow 1

/-! ### Device configuration record (R430) -/

/-- The record in force. -/
def cfgOf (s : State) : CfgRec := s.cfgRec.getD .shipped

/-- A record written as the next copy and read back. -/
def cfgWrite (f : CfgRec → CfgRec) (s : State) : State :=
  { s with cfgRec := some { f (cfgOf s) with seqNo := (cfgOf s).seqNo + 1 } }

/-- The supervisor cores, whose writes of SEC_CFGCTL, SEC_CFGDATA and SEC_HASH are accepted (R430, R456, R462). -/
def coreInit (init : Nat) : Bool := 0x50 ≤ init && init ≤ 0x53

/-- A write of SEC_CFGCTL with GO and an operation: OP is stored; GO is ignored with CFGERR while BUSY, refused with a RESULT, or
accepted. -/
def cfgGo (init op result : Nat) (f : CfgRec → CfgRec) (s : State) : State :=
  if !coreInit init then s
  else
    let s1 := put s F.secCfgctlOp op
    if rdB s F.secCfgctlBusy then cfgErr 14 s1
    else if result ≠ 0 then put s1 F.secCfgctlResult result
    else put { s1 with cfgPending := some { f (cfgOf s) with seqNo := (cfgOf s).seqNo + 1 } } F.secCfgctlBusy 1

/-- The device is an SKD-9400-L (R32). -/
def variantL (s : State) : Bool := s.variant == 2

def cfgSetBootEff (init : Nat) (s : State) : State :=
  let d := rd s (F.secCfgdataData 0)
  cfgGo init 1 0 (fun r => { r with prefer := d % 2, trial := d.testBit 1, trials := bits d 2 2 }) s

def cfgSetProfdefEff (init : Nat) (s : State) : State :=
  let b := rd s (F.secCfgdataData 0) % 2
  cfgGo init 2 (if variantL s && b == 1 then 3 else 0) (fun r => { r with profDef := b }) s

def cfgSetKeyslotEff (init slot : Nat) (s : State) : State :=
  let k := slot % 4
  let key := (List.range 8).flatMap fun i => leBytes 4 (rd s (F.secCfgdataData i))
  cfgGo init 3 (if ((cfgOf s).keySlots.getD k none).isSome then 2 else 0)
    (fun r => { r with keySlots := r.keySlots.set k (some key) }) (if coreInit init then put s F.secCfgctlSlot k else s)

def cfgBadOpEff (init op : Nat) (s : State) : State :=
  if op % 16 = 1 ∨ op % 16 = 2 ∨ op % 16 = 3 then s else cfgGo init (op % 16) 1 id s

/-- The read-back completes: the new copy is in force, or the previous one stays. -/
def cfgReadbackEff (ok : Bool) (s : State) : State :=
  match s.cfgPending with
  | none => s
  | some r =>
    put (put { s with cfgRec := if ok then some r else s.cfgRec, cfgPending := none } F.secCfgctlResult (if ok then 0 else 4))
      F.secCfgctlBusy 0

/-! ### Image checks (R426, R427) -/

/-- Where a firmware slot lies in the persistent store window (R455). -/
def slotBase (slot : Nat) : Nat := 0x200000000 + slot % 2 * 0x800000

/-- The header's fields. -/
def hdrLen (h : List Nat) : Nat := fieldLe h 0x14 4

/-- Every byte of a range of a header is zero. -/
def zeroBytes (h : List Nat) (off n : Nat) : Bool := ((h.drop off).take n).all (· == 0)

/-- Check 1: the header is as R426 states, for an image of a kind. -/
def hdrOk (kind : Nat) (h : List Nat) : Bool :=
  let ring := h.getD 5 0
  let key := h.getD 6 0
  h.length == 4096 && fieldLe h 0 4 == 0x46574B53 && h.getD 4 0 == kind
    && (if kind = 1 then ring == 0 && key == 0xFF else 1 ≤ ring && ring ≤ 3 && (key == 0xFF || key < 4))
    && hdrLen h % 16 == 0 && hdrLen h ≤ 0x800000 - 4096 && h.getD 0x20 0 % 4 == 0
    && zeroBytes h 7 1 && zeroBytes h 0x8C 116 && zeroBytes h 0xC04 1020

/-- The hash against which the signer's key is checked; none for an empty key slot. -/
def keyHash (s : State) (h : List Nat) : Option (List Nat) :=
  let key := h.getD 6 0
  if key = 0xFF then some s.fwKeyHash else (cfgOf s).keySlots.getD key none

/-- The first check of R427 that an image fails, 0 where it is valid. -/
def checkImage (s : State) (kind : Nat) (h body : List Nat) : Nat :=
  let pub := (h.drop 0x48).take 68
  if !hdrOk kind h || body.length != hdrLen h then 1
  else if keyHash s h != some (shake256 pub 32) || (h.getD 6 0 != 0xFF && h.getD 5 0 < 2) then 2
  else if !Config.sigVerify pub (h.take 0x100) ((h.drop 0x100).take 2820) then 3
  else if shake256 body 32 != (h.drop 0x28).take 32 then 4
  else if fieldLe h 0x10 4 < s.svnFloor then 5
  else 0

/-- The image at an offset of a byte string: header and body. -/
def imageAt (bs : List Nat) (off : Nat) : List Nat × List Nat :=
  let h := (bs.drop off).take 4096
  (h, (bs.drop (off + 4096)).take (hdrLen h))

/-- The image at an offset of a firmware slot. -/
def slotImage (s : State) (slot off : Nat) : List Nat × List Nat :=
  let a := slotBase slot + off
  let h := memRead s.mem a 4096
  (h, memRead s.mem (a + 4096) (min (hdrLen h) 0x800000))

/-- The body of an image placed in supervisor memory at its load address. -/
def loadImage (h body : List Nat) (s : State) : State := { s with mem := memWrite s.mem (fieldLe h 0x18 8) body }

/-- The status of a failed check for a command: ROLLBACK, KEYSLOT for an empty slot, or SIGFAIL (R437). -/
def imgStatus (s : State) (h : List Nat) (n : Nat) : Nat :=
  if n = 5 then 0x51 else if n = 2 ∧ (keyHash s h).isNone then 0x57 else 0x50

/-- A command ends with the result of a failed image check. -/
def failImage (c : Cmd) (h : List Nat) (n : Nat) (s : State) : State :=
  let st := imgStatus s h n
  finishCmd c st 0 (if st = 0x50 then n else 0) 0 s

/-! ### Identity key index (R431, R432) -/

/-- Where the pointer records lie in the persistent store window (R455). -/
def sigBase : Nat := 0x203C00000

/-- A pointer record of R431. -/
def idxRecord (next rseq : Nat) : List Nat :=
  let b := leBytes 8 next ++ leBytes 8 rseq ++ List.replicate 40 0
  b ++ leBytes 8 (crc64 b)

/-- A pointer record of the identity index that is valid: NEXT and RSEQ (R431). -/
def idxRead (s : State) (off : Nat) : Option (Nat × Nat) :=
  let b := memRead s.mem (sigBase + off) 64
  if fieldLe b 56 8 = crc64 (b.take 56) ∧ fieldLe b 0 8 ≤ 2 ^ 40 ∧ ((b.drop 16).take 40).all (· == 0) = true then
    some (fieldLe b 0 8, fieldLe b 8 8) else none

/-- Where the record with the lower RSEQ lies; a record that is not valid counts as lower. -/
def idxOlder (s : State) : Nat :=
  match idxRead s 0, idxRead s 0x40 with
  | some a, some b => sigBase + (if a.2 < b.2 then 0 else 0x40)
  | none, some _ => sigBase
  | _, none => sigBase + 0x40

/-- The next index c. -/
def idxNext (s : State) : Nat := rd s F.secIdxnextloNext + rd s F.secIdxnexthiNext * 2 ^ 32

def setIdx (n : Nat) (s : State) : State := put (put s F.secIdxnextloNext (n % 2 ^ 32)) F.secIdxnexthiNext (n / 2 ^ 32)

/-- What a reservation comes to: the status that fails the command, or none. -/
def reserveIdx (bad : Bool) (s : State) : Option Nat × State :=
  let n := s.idxL + 4096
  if 2 ^ 40 < n then (some 0x54, s)
  else if bad then (some 0x53, event 14 2 0 s)
  else
    let s1 := { s with idxL := n, idxRseq := s.idxRseq + 1, mem := memWrite s.mem (idxOlder s) (idxRecord n (s.idxRseq + 1)) }
    if !s.idxLow && decide (2 ^ 40 - n < rd s F.secIdxwarnWarn * 2 ^ 24) then (none, event 14 1 0 { s1 with idxLow := true })
    else (none, s1)

/-! ### Quotes (R435) -/

/-- The log engine has sealed a segment and is not DETACHED. -/
def chainValid (s : State) : Bool := rd s F.logStateState != 0 && s.log.lastSealed != 0

/-- The body of a quote for a nonce. -/
def quoteBody (s : State) (nonce : List Nat) : List Nat :=
  let cv := chainValid s
  leBytes 4 0x54514B53 ++ leBytes 2 1
    ++ leBytes 2 (rd s F.secStatusOverflow + rd s F.secStatusTrial * 2 + bit cv * 4) ++ nonce ++ leBytes 8 (tick s)
    ++ leBytes 8 (phase0 s) ++ leBytes 2 (devnum s) ++ [bit (profA s) + s.variant * 16, s.stepping + rd s F.secStatusSlot * 16]
    ++ leBytes 4 0 ++ leBytes 8 (fieldLe s.fwInfo 8 8) ++ leBytes 4 s.svnFloor ++ leBytes 4 0
    ++ ((s.fwInfo ++ List.replicate 0x48 0).drop 0x28).take 32 ++ s.mAcc ++ leBytes 4 (rd s F.secMlogcntCount) ++ leBytes 4 0
    ++ leBytes 8 s.log.lastSealed ++ (if cv then (s.log.chain ++ List.replicate 32 0).take 32 else List.replicate 32 0)

/-- Data into a command's host buffer. -/
def toHost (c : Cmd) (off : Nat) (bs : List Nat) (s : State) : State :=
  if (s.sess c.sess).mute then s else emitOut (.host (s.sess c.sess).fn (c.e.dptr + off) bs) s

/-- SEC_QUOTE: index taken, body formed; the signature follows. -/
def secQuoteEff (r : Run) (resBad : Bool) (s : State) : State :=
  if s.quoteCmd.isSome then s
  else
    runCmd r 0x50 0 true [full64, full64, full64, full64] (fun c s =>
      if c.e.dlen < 10085 then invField c 16 s
      else if !rdB s F.secStatusIdv then failCmd c 0x55 s
      else if r.bad then bufferError c s
      else
        match (if idxNext s < s.idxL then (none, s) else reserveIdx resBad s) with
        | (some st, s1) => failCmd c st s1
        | (none, s1) =>
          let i := idxNext s1
          let body := quoteBody s1 (((List.range 4).map c.par).flatMap (leBytes 8))
          setIdx (i + 1) { s1 with quoteCmd := some (c.id, i, body) }) s

/-- The signature completes. -/
def quoteDoneEff (s : State) : State :=
  match s.quoteCmd with
  | none => s
  | some (id, i, body) =>
    let s1 := { s with quoteCmd := none }
    match findCmd s1 id with
    | some c => succeed c i 0 (toHost c 0 (body ++ Config.sigMake i body) s1)
    | none => s1

/-! ### The other commands (R436) -/

/-- Entries from the first on, up to the last stored one; a range that begins beyond them ends with MLOGRANGE (R436, R437). -/
def secMlogreadEff (r : Run) : State → State :=
  runCmd r 0x51 0 true [0xFFF, 0x1FFF] fun c s =>
    let n := c.par 1
    if n = 0 ∨ 4096 < n then invField c 32 s
    else if c.e.dlen < 64 * n then invField c 16 s
    else if s.mlog.length ≤ c.par 0 then failCmd c 0x56 s
    else if r.bad then bufferError c s
    else succeed c s.mlog.length 0 (toHost c 0 (((s.mlog.drop (c.par 0)).take n).flatten) s)

def secIdkeyEff (r : Run) : State → State :=
  runCmd r 0x52 0 true [] fun c s =>
    if c.e.dlen < 68 then invField c 16 s
    else if r.bad then bufferError c s
    else succeed c 0 0 (toHost c 0 Config.identityKey s)

/-- The first image of a slot's contents that fails R427: its header and the check; the firmware image lies at offset 0
and service images follow at multiples of 4 KB. -/
def badImage (s : State) (bs : List Nat) : Nat → Nat → Option (List Nat × Nat)
  | 0, _ => none
  | fuel + 1, off =>
    if off ≠ 0 ∧ bs.length ≤ off then none
    else
      match imageAt bs off with
      | (h, body) =>
        let n := checkImage s (if off = 0 then 1 else 2) h body
        if n ≠ 0 then some (h, n) else badImage s bs fuel (off + 4096 + (hdrLen h + 4095) / 4096 * 4096)

def secFwwriteEff (r : Run) : State → State :=
  runCmd r 0x53 1 true [1] fun c s =>
    let slot := c.par 0
    let bs := r.data.take c.e.dlen
    if c.e.dlen = 0 ∨ 0x800000 < c.e.dlen then invField c 16 s
    else if slot = rd s F.secStatusSlot then failCmd c 0x52 s
    else if r.bad then bufferError c s
    else
      match badImage s bs 2048 0 with
      | some (h, n) => failImage c h n s
      | none =>
        succeed c 0 0 (cfgWrite (fun x => { x with prefer := slot, trial := true, trials := 3 })
          { s with mem := memWrite s.mem (slotBase slot) bs })

def secFwconfirmEff (r : Run) : State → State :=
  runCmd r 0x54 1 false [] fun c s =>
    succeed c 0 0 (put (cfgWrite (fun x => { x with trial := false }) s) F.secStatusTrial 0)

def secSvnraiseEff (r : Run) : State → State :=
  runCmd r 0x55 1 false [0xFFFFFFFF] fun c s =>
    let n := c.par 0
    if n < s.svnFloor ∨ fieldLe s.fwInfo 0x10 4 < n then invField c 24 s else succeed c 0 0 { s with svnFloor := n }

def secSvckeyEff (r : Run) : State → State :=
  runCmd r 0x56 1 true [3] fun c s =>
    let k := c.par 0
    if c.e.dlen ≠ 32 then invField c 16 s
    else if ((cfgOf s).keySlots.getD k none).isSome then failCmd c 0x57 s
    else if r.bad then bufferError c s
    else succeed c 0 0 (cfgWrite (fun x => { x with keySlots := x.keySlots.set k (some (r.data.take 32)) }) s)

def secSvcloadEff (r : Run) : State → State :=
  runCmd r 0x57 1 false [1, 0x7FFFFF] fun c s =>
    let slot := c.par 0
    let off := c.par 1
    if off % 4096 ≠ 0 then invField c 32 s
    else
      match slotImage s slot off with
      | (h, body) =>
        let n := checkImage s 2 h body
        if n ≠ 0 then failImage c h n s
        else
          match s.takeFree with
          | (w, s1) => succeed c 0 0 (loadImage h body (measure 3 (w.toNat % 256) (h.getD 6 0) ((h.drop 0x28).take 32) s1))

def secProfdefEff (r : Run) (ok : Bool) : State → State :=
  runCmd r 0x58 1 false [1] fun c s =>
    if variantL s && c.par 0 == 1 then invField c 24 s
    else if !ok then failCmd c scDEVERR s
    else succeed c 0 0 (cfgWrite (fun x => { x with profDef := c.par 0 }) s)

/-! ### The hash engine (R462) -/

def hashGoEff (init : Nat) (s : State) : State :=
  if !coreInit init then s
  else if rdB s F.secHashctlBusy then cfgErr 14 s
  else
    put { s with hashReq := some (rd s F.secHashsrcloAddr + rd s F.secHashsrchiAddr * 2 ^ 32, rd s F.secHashlenLen) }
      F.secHashctlBusy 1

/-- The words of `n` words from scratch address `a`, read by the engine; none when a bank refuses or a word is lost. -/
def hashWords (a : Nat) : Nat → State → Option (List Nat) × State
  | 0, s => (some [], s)
  | n + 1, s =>
    match complexRead 0x5C a 1 0 .ok s with
    | (some (w :: _, false), s1) =>
      match hashWords (a + 8) n s1 with
      | (some ws, s2) => (some (w :: ws), s2)
      | (none, s2) => (none, s2)
    | (_, s1) => (none, s1)

/-- The bytes that the engine reads: in supervisor memory, or in scratch banks of the supervisor complex that answer OK. -/
def hashInput (a n : Nat) (s : State) : Option (List Nat) × State :=
  if 0x08000000 ≤ a ∧ a + n ≤ 0x082C0000 then (some (memRead s.mem a n), s)
  else if scrBase ≤ a ∧ a + n ≤ scrBase + 0x2000000 then
    let r := a - scrBase
    match hashWords (r / 8 * 8) ((r % 8 + n + 7) / 8) s with
    | (some ws, s1) => (some ((List.range n).map fun i => bits (ws.getD ((r % 8 + i) / 8) 0) ((r % 8 + i) % 8 * 8) 8), s1)
    | (none, s1) => (none, s1)
  else (none, s)

/-- A hash request completes. -/
def hashDoneEff (s : State) : State :=
  match s.hashReq with
  | none => s
  | some (a, n) =>
    let s1 := put { s with hashReq := none } F.secHashctlBusy 0
    raiseIrq 37 <| match hashInput a n s1 with
      | (some bs, s2) =>
        let h := shake256 bs 32
        forAll (List.range 8) (fun k s => put s (F.secHashoutOut k) (fieldLe h (4 * k) 4)) (put s2 F.secHashctlErr 0)
      | (none, s2) => put s2 F.secHashctlErr 1

/-! ### The rows -/

/-- CFG_SET_BOOT (R430). -/
def execCfgSetBoot (init : Nat) (s : State) : Host.Outcome State Fault Refusal := act 3 s (cfgSetBootEff init)

/-- CFG_SET_PROFDEF (R430). -/
def execCfgSetProfdef (init : Nat) (s : State) : Host.Outcome State Fault Refusal := act 3 s (cfgSetProfdefEff init)

/-- CFG_SET_KEYSLOT (R430). -/
def execCfgSetKeyslot (init slot : Nat) (s : State) : Host.Outcome State Fault Refusal :=
  act 3 s (cfgSetKeyslotEff init slot)

/-- CFG_BAD_OP (R430). -/
def execCfgBadOp (init op : Nat) (s : State) : Host.Outcome State Fault Refusal := act 3 s (cfgBadOpEff init op)

/-- CFG_READBACK_DONE (R430). -/
def execCfgReadbackDone (ok : Bool) (s : State) : Host.Outcome State Fault Refusal := act 3 s (cfgReadbackEff ok)

/-- SEC_QUOTE (R435). -/
def execSecQuote (r : Run) (resBad : Bool) (s : State) : Host.Outcome State Fault Refusal := act 6 s (secQuoteEff r resBad)

/-- QUOTE_DONE (R435). -/
def execQuoteDone (s : State) : Host.Outcome State Fault Refusal := act 6 s quoteDoneEff

/-- SEC_MLOGREAD (R436). -/
def execSecMlogread (r : Run) (s : State) : Host.Outcome State Fault Refusal := act 6 s (secMlogreadEff r)

/-- SEC_IDKEY (R436). -/
def execSecIdkey (r : Run) (s : State) : Host.Outcome State Fault Refusal := act 6 s (secIdkeyEff r)

/-- SEC_FWWRITE (R436). -/
def execSecFwwrite (r : Run) (s : State) : Host.Outcome State Fault Refusal := act 6 s (secFwwriteEff r)

/-- SEC_FWCONFIRM (R436). -/
def execSecFwconfirm (r : Run) (s : State) : Host.Outcome State Fault Refusal := act 6 s (secFwconfirmEff r)

/-- SEC_SVNRAISE (R436). -/
def execSecSvnraise (r : Run) (s : State) : Host.Outcome State Fault Refusal := act 6 s (secSvnraiseEff r)

/-- SEC_SVCKEY (R436). -/
def execSecSvckey (r : Run) (s : State) : Host.Outcome State Fault Refusal := act 6 s (secSvckeyEff r)

/-- SEC_SVCLOAD (R436). -/
def execSecSvcload (r : Run) (s : State) : Host.Outcome State Fault Refusal := act 6 s (secSvcloadEff r)

/-- SEC_PROFDEF (R436). -/
def execSecProfdef (r : Run) (ok : Bool) (s : State) : Host.Outcome State Fault Refusal := act 6 s (secProfdefEff r ok)

/-- SEC_HASHCTL_GO (R462). -/
def execSecHashctlGo (init : Nat) (s : State) : Host.Outcome State Fault Refusal := act 3 s (hashGoEff init)

/-- HASH_DONE (R462). -/
def execHashDone (s : State) : Host.Outcome State Fault Refusal := act 3 s hashDoneEff

end Sys2Proof.Machine
end

