-- ==== Sys2Proof/Machine/Log.lean ====
section
/-! DEFINITION. The rows of the log engine: attachment, creation, resume, start, stop, reclaim, NVMe completions and
timeouts, MRAM completions, and LOG_COMMIT (R355 to R377). -/

namespace Sys2Proof.Machine

open Sys2Proof

/-! ### Commands (R371) -/

/-- A log command: issued by a PF session, in a state its row allows. -/
def logCmd (r : Run) (opc : Nat) (buf : Bool) (m : List Nat) (ok : State → Bool) (f : Cmd → State → State) : State → State :=
  runCmd r opc 2 buf m fun c s => if ok s then f c s else failCmd c 0x40 s

/-- A command that rewrites the log is in progress. -/
def logBusy (s : State) : Bool := s.log.createCmd.isSome || s.log.resumeCmd.isSome || s.log.reclaim.isSome

/-- The states of LOG_CREATE and LOG_RESUME. -/
def creatable (s : State) : Bool := logState s == 1 || (logState s == 0 && nsList s != [])

/-- The attach block (R356). -/
def nsOf (bs : List Nat) : Ns :=
  let n (o k : Nat) : Nat := fieldLe bs o k
  { nsid := n 0 4, qid := n 4 2, qsize := n 6 2, sqBase := n 8 8, cqBase := n 16 8, sqDb := n 24 8, cqDb := n 32 8,
    stBase := n 40 8, stSize := n 48 4, lbads := n 52 1, mdts := n 53 1, slots := n 56 8 * 2 ^ n 52 1 / 2 ^ 26,
    sealedSegs := [], seg := none, cmds := [], wait := [], nextCid := 0, sqTail := 0, cqHead := 0, failed := false }

/-- The fields of the attach block that R356 bounds, but for LBADS and MDTS. -/
def Ns.fieldsOk (x : Ns) (rsvd : Nat) : Bool :=
  2 ≤ x.qsize && x.sqBase % 4096 == 0 && x.cqBase % 4096 == 0 && x.stBase % 4096 == 0 && x.stSize % 2 ^ 20 == 0
    && 4 * 2 ^ 20 ≤ x.stSize && rsvd == 0

/-- The attach is refused with NSFORMAT (R357, R373). -/
def Ns.badFormat (x : Ns) (s : State) : Bool :=
  (x.lbads != 9 && x.lbads != 12) || x.mdts < 12 || 21 < x.mdts || x.slots < 2
    || 1048576 < x.slots + (nsList s).foldl (fun n i => n + (match s.ns i with | some y => y.slots | none => 0)) 0

def logQattachEff (r : Run) : State → State :=
  logCmd r 0x40 true [7] (fun s => logState s == 0 || logState s == 1) fun c s =>
    let i := c.par 0
    let x := nsOf r.data
    if c.e.dlen ≠ 64 then invField c 16 s
    else if r.bad then bufferError c s
    else if (s.ns i).isSome ∨ logBusy s = true then failCmd c scBUSY s
    else if !x.fieldsOk (fieldLe r.data 54 2) then invField c 8 s
    else if x.badFormat s then failCmd c 0x41 s
    else succeed c x.slots 0 (setNs i (some x) s)

def logQdetachEff (r : Run) : State → State :=
  logCmd r 0x41 false [7] (fun s => logState s == 0 || logState s == 1 || logState s == 4) fun c s =>
    let i := c.par 0
    if (s.ns i).isNone then failCmd c scNOTFOUND s
    else if logBusy s then failCmd c scBUSY s
    else
      let s1 := setNs i none s
      succeed c 0 0 (if nsList s1 = [] then enterLog 0 s1 else s1)

/-- The first state record of a new log follows when every label, directory and deallocation is done. -/
def createNext (s : State) : State :=
  if s.log.createCmd.isSome && !anyBusy s (fun p => p == .label || p == .deallocate) then journal 0 0 0 0 0 [] s else s

def logCreateEff (r : Run) : State → State := logCmd r 0x42 false [full64] creatable fun c s =>
  let id := c.par 0
  if id = 0 then invField c 24 s
  else if logBusy s then failCmd c scBUSY s
  else
    let h0 := match nsList s with
      | i :: _ => (match s.ns i with | some x => labelHash id i x.slots | none => [])
      | [] => []
    let s1 := updLog (fun l => { l with
      createCmd := some c.id, logId := id, nextSeq := 1, lastSealed := 0, chain := [], h0 := h0, staged := [], cur := none,
      fill := [], streams := [] }) s
    forAll (nsList s) (fun i s =>
      match s.ns i with
      | some x =>
        submit i (writes x.mdts .label 0 0 (fitBytes (2 ^ 26) (labelBytes id i x.slots))
            ++ [nvCmd 0x09 .deallocate 1 0 ((x.slots - 1) * 2 ^ 26)])
          (updNs i (fun x => { x with sealedSegs := [], seg := none, failed := false }) s)
      | none => s) (put s1 F.logSealedSeq 0)

/-! ### Resume (R369) -/

/-- The state record to go on from: the one with the higher JSEQ. -/
def lastState (s : State) : Option JState :=
  s.log.jstates.foldl (fun m j => match m with | some k => if k.jseq < j.jseq then some j else some k | none => some j) none

/-- The entries after it whose JSEQ runs on without a break. -/
def runOn (n : Nat) : List JEntry → List JEntry
  | [] => []
  | e :: es => if e.jseq ≤ n then runOn n es else if e.jseq = n + 1 then e :: runOn e.jseq es else []

/-- The journal from which a resume goes on. -/
def resumeEntries (s : State) : List JEntry :=
  match lastState s with
  | some j => runOn j.jseq s.log.jlog
  | none => []

/-- Segments that have an OPEN entry and no SEAL or ABANDON entry. -/
def openEntries (es : List JEntry) : List JEntry :=
  es.filter fun e => e.typ == 1 && !es.any fun f => (f.typ == 3 || f.typ == 4) && f.seq == e.seq

/-- The CHUNK entries of a segment. -/
def chunkEntries (es : List JEntry) (seq : Nat) : List JEntry := es.filter fun e => e.typ == 2 && e.seq == seq

/-- What has been read of a slot, in address order from an offset. -/
def readBack (s : State) (i slot off len : Nat) : List Nat :=
  let ps := s.log.rdata.filter fun e => e.1 == i && e.2.1 == slot && off ≤ e.2.2.1 && e.2.2.1 < off + len
  (ps.foldl (fun bs e => overlay bs (e.2.2.1 - off) e.2.2.2) (zeros len)).take len

/-- The labels and the state record agree. -/
def labelsAgree (s : State) (j : JState) : Bool :=
  (nsList s).all fun i => match s.ns i with
    | some x => readBack s i 0 0 64 == labelBytes j.logId i x.slots
        && j.nss.contains (i, x.nsid, x.slots, labelHash j.logId i x.slots)
    | none => true

/-- The sealed segments that a directory names. -/
def dirSegs (logId slots : Nat) (bs : List Nat) : List SealedSeg :=
  ((List.range slots).drop 1).filterMap fun n =>
    let e := (bs.drop (64 * n)).take 64
    if fieldLe e 0 8 ≠ 0 ∧ fieldLe e 8 8 = logId then some ⟨n, fieldLe e 0 8, fieldLe e 16 8, fieldLe e 24 8, e.drop 32⟩
    else none

/-- Index entries and the end of the last record of a chunk, parsed from its bytes (R362). -/
def parseChunk (base : Nat) : Nat → Nat → List Nat → List (List Nat) → Nat → List (List Nat) × Nat
  | 0, _, _, ix, last => (ix, last)
  | fuel + 1, off, bs, ix, last =>
    let len := fieldLe bs 4 4
    if fieldLe bs 0 2 ≠ 0xA55A ∨ len < 32 then (ix, last)
    else
      let kind := bs.getD 2 0
      let stream := bs.getD 3 0
      if kind = 0x0F then parseChunk base fuel (off + len) (bs.drop len) ix last
      else
        let fresh := kind != 1 || !ix.any fun e => e.getD 4 0 == stream && e.getD 5 0 == 1
        let e := indexEntry (base + off) stream kind (fieldLe bs 24 4) (fieldLe bs 8 8)
        parseChunk base fuel (off + len) (bs.drop len) (if fresh then ix ++ [e] else ix) (base + off + len)

/-- A resumed segment, its index rebuilt; a trailer on the media gives the tick of its sealing. -/
def resumeSeg (s : State) (i : Nat) (es : List JEntry) (o : JEntry) : Segment :=
  let cs := chunkEntries es o.seq
  let parsed := cs.map fun e =>
    let start := if e.chunk = 0 then 4096 else 0
    (e.chunk, parseChunk (e.chunk * 0x100000) 32768 start ((readBack s i o.slot (e.chunk * 0x100000) (chunkCap e.chunk)).drop start) [] 0)
  let header := readBack s i o.slot 0 4096
  let tr := readBack s i o.slot 0x3FFF000 4096
  { seq := o.seq, slot := o.slot, opened := fieldLe header 0x20 8, taken := cs.map fun e => (e.chunk, e.hash),
    durable := cs.map (·.chunk), recs := [], index := parsed.flatMap fun p => p.2.1.map fun e => (p.1, e),
    ends := parsed.map fun p => (p.1, p.2.2), header := header, early := false,
    closedAt := if fieldLe tr 0 8 = logMagic ∧ fieldLe tr 8 8 = o.seq then some (fieldLe tr 16 8) else none, sealing := none }

/-- The hash of a chunk as read. -/
def readHash (s : State) (i slot c : Nat) : List Nat :=
  shake256 (readBack s i slot (c * 0x100000) (if c = 63 then 0xFF000 else 0x100000)) 32

/-- A resume ends without success. -/
def failResume (st : Nat) (s : State) : State :=
  let s1 := updLog (fun l => { l with resumeCmd := none, resumeStep := 0, rdata := [] }) s
  match s.log.resumeCmd with
  | some id => finish id st 0 0 s1
  | none => s1

/-- Journal and media disagree: the engine enters FAULT. -/
def resumeBad (s : State) : State := enterLog 4 (event 12 3 0 (failResume 0x43 s))

/-- Step 2 and 3 of R369: the open segments are read, and of sealed ones header and trailer, for their entries. -/
def readSegments (j : JState) (es : List JEntry) (s : State) : State :=
  let s1 := forAll (nsList s) (fun i s =>
    updNs i (fun x => { x with sealedSegs := dirSegs j.logId x.slots (readBack s i 0 0 (64 * x.slots)) }) s)
    (updLog (fun l => { l with resumeStep := 2 }) s)
  forAll (nsList s1) (fun i s =>
    match s.ns i with
    | some x =>
      submit i (((openEntries es).filter (·.ns == i)).flatMap (fun o =>
          reads x.mdts o.slot 0 4096 ++ reads x.mdts o.slot 0x3FFF000 4096
            ++ (chunkEntries es o.seq).flatMap fun e =>
              reads x.mdts o.slot (e.chunk * 0x100000) (if e.chunk = 63 then 0xFF000 else 0x100000))
        ++ (es.filter fun e => e.typ == 3 && e.ns == i).flatMap fun e =>
          reads x.mdts e.slot 0 4096 ++ reads x.mdts e.slot 0x3FFF000 4096) s
    | none => s) s1

/-- The RESUME record: JSEQ of the last entry found; its tick is in no entry and is left open (log entry 3). -/
def resumeRecord (n : Nat) (s : State) : State :=
  match s.takeFree with
  | (w, s1) =>
    let bs := recordBytes 4 0xFF (tick s) 0 0 (leBytes 8 n ++ leBytes 8 w.toNat)
    updLog (fun l => { l with staged := [⟨4, 0xFF, 0, tick s, bs, none, false, 0, none⟩] }) s1

/-- Steps 4 and 5: the segments are rebuilt; entries of sealed segments are written again. -/
def rebuild (j : JState) (es : List JEntry) (s : State) : State :=
  let opens := openEntries es
  if opens.any fun o => (chunkEntries es o.seq).any fun e => readHash s o.ns o.slot e.chunk != e.hash then resumeBad s
  else
    let seals := es.filter (·.typ == 3)
    let lastSeal := seals.getLast?
    let n := (es.getLast?.map (·.jseq)).getD j.jseq
    let maxSeq := es.foldl (fun m e => max m e.seq) j.lastSealed
    let s1 := updLog (fun l => { l with
      logId := j.logId, h0 := j.h0, jseq := n, nextSeq := maxSeq + 1, resumeStep := 3, cur := none, fill := [], streams := [],
      lastSealed := (lastSeal.map (·.seq)).getD j.lastSealed, chain := (lastSeal.map (·.hash)).getD j.chain }) s
    let s2 := forAll opens (fun o s => updNs o.ns (fun x => { x with seg := some (resumeSeg s o.ns es o) }) s) s1
    let s3 := forAll seals (fun e s =>
      match s.ns e.ns with
      | some x =>
        let hd := readBack s e.ns e.slot 0 4096
        let tr := readBack s e.ns e.slot 0x3FFF000 4096
        let x' := { x with sealedSegs := x.sealedSegs.filter (·.slot != e.slot)
                      ++ [⟨e.slot, e.seq, fieldLe hd 0x20 8, fieldLe tr 16 8, e.hash⟩] }
        submit e.ns (writes x.mdts .directory 0 (e.slot / 64 * 4096) (dirGroup j.logId e.ns x' e.slot)) (setNs e.ns (some x') s)
      | none => s) s2
    put (trySeal (resumeRecord n s3)) F.logSealedSeq (s3.log.lastSealed % 2 ^ 32)

/-- The resume is complete: nothing is being written and no complete segment is unsealed. -/
def resumeDone (s : State) : State :=
  if anyBusy s (fun _ => true) || s.log.jq != [] || (nsList s).any fun i =>
      match (s.ns i).bind (·.seg) with | some g => g.taken.length == 64 | none => false then s
  else
    let s1 := enterLog 1 (updLog (fun l => { l with resumeCmd := none, resumeStep := 0, rdata := [] }) s)
    match s.log.resumeCmd with
    | some id => finish id scSUCCESS s.log.lastSealed 0 s1
    | none => s1

/-- A resume goes on when what it asked for has been read. -/
def resumeNext (s : State) : State :=
  if s.log.resumeStep = 0 ∨ anyBusy s (· == .resumeRead) = true then s
  else
    match lastState s with
    | none => failResume 0x45 s
    | some j =>
      let es := resumeEntries s
      if s.log.resumeStep = 1 then
        (if labelsAgree s j then
          let s1 := readSegments j es s
          if anyBusy s1 (· == .resumeRead) then s1 else resumeDone (rebuild j es s1)
        else failResume 0x45 s)
      else if s.log.resumeStep = 2 then resumeDone (rebuild j es s)
      else resumeDone s

def logResumeEff (r : Run) : State → State := logCmd r 0x43 false [] creatable fun c s =>
  if logBusy s then failCmd c scBUSY s
  else if (lastState s).isNone then failCmd c 0x45 s
  else
    let s1 := updLog (fun l => { l with resumeCmd := some c.id, resumeStep := 1, rdata := [] }) s
    forAll (nsList s) (fun i s =>
      match s.ns i with
      | some x => submit i (reads x.mdts 0 0 ((64 * x.slots + 4095) / 4096 * 4096)) (updNs i (fun x => { x with seg := none }) s)
      | none => s) s1

/-! ### Start, stop, status, append, reclaim -/

/-- A stream whose ring is OFF, or whose channels pass the ring's NCH. -/
def badStream (s : State) (k : Nat) : Bool :=
  let r := rd s (F.logStreamcfgRing k)
  rdB s (F.logStreamcfgEn k) && (ringState s r == 0
    || ringNch s r < rd s (F.logStreamcfgChofs k) + rd s (F.logStreamcfgNchm1 k) + 1)

def logStartEff (r : Run) : State → State := logCmd r 0x44 false [] (fun s => logState s == 1) fun c s =>
  if logBusy s then failCmd c scBUSY s
  else if c.sess ≠ 0 ∧ devQuiesce s = true then failCmd c scQUIESCING s
  else if (List.range 64).any (badStream s) then invField c 0 s
  else
    let s1 := forAll (List.range 64) (fun k s =>
      let p := rd s (F.cnvCaptotalTotal (rd s (F.logStreamcfgRing k)))
      updStream k (fun _ => if rdB s (F.logStreamcfgEn k) then { Stream.init with pos := p, durable := (p, none) } else .init) s) s
    let s2 := openSegments (succeed c 0 0 (enterLog 2 s1))
    if s2.log.pause ≠ 0 then enterLog 3 s2 else logPoll (engineStep s2)

def logStopEff (r : Run) : State → State :=
  logCmd r 0x45 false [] (fun s => logState s == 2 || logState s == 3) fun c s =>
    if s.log.stopCmd.isSome then failCmd c scBUSY s
    else
      let s1 := updLog (fun l => { l with stopCmd := some c.id }) s
      if logState s = 2 then beginStop s1 else s1

/-- The 64 bytes of LOG_STATUS; their layout is the model's (log entry 6). -/
def logStatusBytes (s : State) : List Nat :=
  fitBytes 64 (leBytes 4 (logState s) ++ leBytes 4 (rd s F.logDurableCount) ++ leBytes 8 s.log.lastSealed ++ fitBytes 32 s.log.chain)

def logStatusEff (r : Run) : State → State := logCmd r 0x46 true [] (fun _ => true) fun c s =>
  if c.e.dlen ≠ 64 then invField c 16 s
  else if r.bad then bufferError c s
  else succeed c (logState s) 0 (toHost c 0 (logStatusBytes s) s)

def logAppendEff (r : Run) : State → State :=
  logCmd r 0x47 true [] (fun s => logState s == 2 && !s.log.stopping) fun c s =>
    if c.e.dlen < 16 ∨ 81888 < c.e.dlen then invField c 16 s
    else if r.bad then bufferError c s
    else
      let bs := recordBytes 5 0xFF (tick s) 0 0 (fitBytes c.e.dlen r.data)
      engineStep (updLog (fun l => { l with staged := l.staged ++ [⟨5, 0xFF, 0, tick s, bs, some c.id, false, 0, none⟩] }) s)

def logReclaimEff (r : Run) : State → State :=
  logCmd r 0x48 false [full64] (fun s => 1 ≤ logState s && logState s ≤ 3) fun c s =>
    if logBusy s then failCmd c scBUSY s else endReclaim (startReclaim (some c.id) (c.par 0) s)

/-! ### NVMe completions (R355, R358, R367) -/

/-- What follows a command that completed. -/
def nvNext (i : Nat) (c : NvCmd) (data : List Nat) (s : State) : State :=
  let more (f : NvPurpose → Bool) : Bool := match s.ns i with | some x => x.busyWith f | none => false
  match c.purpose with
  | .write k => if more (· == .write k) then s else submit i [flushCmd (.flush k)] s
  | .flush k =>
    match (s.ns i).bind (·.seg) with
    | some g => match g.taken.find? (·.1 == k) with
      | some e => journal 2 i k g.slot g.seq e.2 s
      | none => s
    | none => s
  | .trailer => if more (· == .trailer) then s else submit i [flushCmd .sealFlush] s
  | .sealFlush =>
    match (s.ns i).bind (·.seg) with
    | some g => match g.sealing with
      | some (_, h) => journal 3 i 0 g.slot g.seq h s
      | none => s
    | none => s
  | .directory => if more (· == .directory) then s else submit i [flushCmd .dirFlush] s
  | .dirFlush => journal 0 i 0 0 0 [] s
  | .label | .deallocate => createNext s
  | .reclaim => engineStep (endReclaim s)
  | .resumeRead => resumeNext (updLog (fun l => { l with rdata := l.rdata ++ [(i, c.slot, c.off, fitBytes c.len data)] }) s)

/-- A completion found by polling. -/
def nvmeDoneEff (n : NvDone) (s : State) : State :=
  match s.ns n.ns with
  | none => s
  | some x =>
    match x.cmds.find? (·.cid == n.cid) with
    | none => s
    | some c =>
      let s1 := updNs n.ns (fun x => { x with cqHead := (x.cqHead + 1) % x.qsize }) s
      if n.sct ≠ 0 ∨ n.sc ≠ 0 then nvFailed n.ns c n.sct n.sc (setPause 1 false s1)
      else
        let s2 := nvNext n.ns c n.data (updNs n.ns (fun x => { x with cmds := x.cmds.erase c }) s1)
        issueAll (setPause 2 (allRetry s2) (setPause 1 false s2))

/-- No completion within 2 s. -/
def nvmeTimeoutEff (i cid : Nat) (s : State) : State :=
  match s.ns i with
  | none => s
  | some x =>
    match x.cmds.find? (·.cid == cid) with
    | none => s
    | some c => if s.now - c.sent < msEtu 2000 then s else nvFailed i c 0 0 (event 12 1 i s)

/-! ### MRAM completions (R307, R366, R367) -/

/-- Where the journal's circular area lies in MRAM (R366, R455). -/
def journalBase : Nat := 0x203A01000

/-- A chunk is durable. -/
def chunkDurable (e : JEntry) (s : State) : State :=
  match (s.ns e.ns).bind (·.seg) with
  | some g =>
    if g.seq ≠ e.seq then s
    else
      let rs := (g.recs.filter (·.1 == e.chunk)).map (·.2)
      let s1 := updSeg e.ns (fun g => { g with durable := g.durable ++ [e.chunk], recs := g.recs.filter (·.1 != e.chunk) }) s
      let s2 := put s1 F.logDurableCount (rd s1 F.logDurableCount + 1)
      forAll rs (fun r s => match r.cmd with | some id => finish id scSUCCESS e.seq 0 s | none => s) (markDurable rs s2)
  | none => s

/-- The SEAL entry is written: the chain goes on, the item is pushed, the directory follows. -/
def sealWritten (e : JEntry) (s : State) : State :=
  let s1 := put (updLog (fun l => { l with lastSealed := e.seq, chain := e.hash }) s) F.logSealedSeq (e.seq % 2 ^ 32)
  let s2 := logItem 0x10 (leBytes 8 e.seq ++ leBytes 4 e.slot ++ [e.ns, 0, 0, 0] ++ e.hash.take 24) s1
  match s2.ns e.ns with
  | some x =>
    match x.seg with
    | some g =>
      let t := match g.sealing with | some (t, _) => t | none => tick s
      let x' := { x with sealedSegs := x.sealedSegs ++ [⟨e.slot, e.seq, g.opened, t, e.hash⟩] }
      submit e.ns (writes x.mdts .directory 0 (e.slot / 64 * 4096) (dirGroup s2.log.logId e.ns x' e.slot)) (setNs e.ns (some x') s2)
    | none => s2
  | none => s2

/-- The state record that the engine writes now. -/
def stateRecord (jseq : Nat) (s : State) : JState :=
  { jseq := jseq, logId := s.log.logId, h0 := s.log.h0, lastSealed := s.log.lastSealed, chain := s.log.chain,
    nss := (nsList s).filterMap fun i => (s.ns i).map fun x => (i, x.nsid, x.slots, labelHash s.log.logId i x.slots) }

/-- The state record is written: a new log is complete, or a segment is sealed and closed. -/
def stateWritten (e : JEntry) (s : State) : State :=
  let s1 := updLog (fun l => { l with jstates := (l.jstates ++ [stateRecord e.jseq s]).drop (l.jstates.length - 1) }) s
  match s.log.createCmd with
  | some id =>
    let n := (nsList s1).foldl (fun n i => n + (match s1.ns i with | some x => x.slots | none => 0)) 0
    finish id scSUCCESS n 0 (enterLog 1 (updLog (fun l => { l with createCmd := none }) s1))
  | none => updNs e.ns (fun x => { x with seg := x.seg.filter (·.seq != s.log.lastSealed) }) s1

/-- A journal entry in its place, and what follows it. -/
def journalWritten (e : JEntry) (s : State) : State :=
  if e.typ = 0 then stateWritten e s
  else
    let a := journalBase + s.log.jcount % 32704 * 64
    let s1 := updLog (fun l => { l with jcount := l.jcount + 1, jlog := (l.jlog ++ [e]).drop (l.jlog.length + 1 - 32704) })
      { s with mem := memWrite s.mem a (journalBytes e) }
    if e.typ = 2 then chunkDurable e s1
    else if e.typ = 3 then sealWritten e s1
    else if e.typ = 5 then endStop s1
    else s1

/-- The MRAM has completed an operation: the oldest journal write, when one waits. -/
def mramDoneEff (ok : Bool) (s : State) : State :=
  raiseIrq 36 <|
    match s.log.jq with
    | [] => s
    | e :: es =>
      let s1 := updLog (fun l => { l with jq := es }) s
      if ok then
        let s2 := journalWritten e s1
        logPoll (if s2.log.resumeStep = 3 then resumeDone (trySeal s2) else engineStep s2)
      else logFault scDEVERR (event 12 2 0 s1)

/-! ### LOG_COMMIT (R377) -/

/-- Two enabled EVENT streams of the shadows name one ring. -/
def eventRingTwice (s : State) : Bool :=
  let ev (k : Nat) : Bool := rdShB s (F.logStreamcfgEn k) && rdShB s (F.logStreamcfgKind k)
  let ks := (List.range 64).filter ev
  ks.any fun a => ks.any fun b => a < b && rdSh s (F.logStreamcfgRing a) == rdSh s (F.logStreamcfgRing b)

/-- An enabled EVENT stream of the shadows decimates. -/
def eventDecimates (s : State) : Bool :=
  (List.range 64).any fun k => rdShB s (F.logStreamcfgEn k) && rdShB s (F.logStreamcfgKind k)
    && (rdSh s (F.logStreamcfgDmode k) != 0 || rdSh s (F.logStreamcfgDeck k) != 0)

def logCommitEff (s : State) : State :=
  if logState s = 2 ∨ logState s = 3 ∨ eventRingTwice s = true ∨ eventDecimates s = true then cfgErr 12 (dropShadow s 12)
  else commitOk s 12

/-! ### The rows -/

/-- LOG_COMMIT (R377). -/
def execLogCommit (s : State) : Host.Outcome State Fault Refusal := act 3 s logCommitEff

/-- LOG_QATTACH (R356). -/
def execLogQattach (r : Run) (s : State) : Host.Outcome State Fault Refusal := act 6 s (logQattachEff r)

/-- LOG_QDETACH (R371). -/
def execLogQdetach (r : Run) (s : State) : Host.Outcome State Fault Refusal := act 6 s (logQdetachEff r)

/-- LOG_CREATE (R371). -/
def execLogCreate (r : Run) (s : State) : Host.Outcome State Fault Refusal := act 6 s (logCreateEff r)

/-- LOG_RESUME (R369). -/
def execLogResume (r : Run) (s : State) : Host.Outcome State Fault Refusal := act 6 s (logResumeEff r)

/-- LOG_START (R371). -/
def execLogStart (r : Run) (s : State) : Host.Outcome State Fault Refusal := act 6 s (logStartEff r)

/-- LOG_STOP (R371). -/
def execLogStop (r : Run) (s : State) : Host.Outcome State Fault Refusal := act 6 s (logStopEff r)

/-- LOG_STATUS (R371). -/
def execLogStatus (r : Run) (s : State) : Host.Outcome State Fault Refusal := act 6 s (logStatusEff r)

/-- LOG_APPEND (R371). -/
def execLogAppend (r : Run) (s : State) : Host.Outcome State Fault Refusal := act 6 s (logAppendEff r)

/-- LOG_RECLAIM (R371). -/
def execLogReclaim (r : Run) (s : State) : Host.Outcome State Fault Refusal := act 6 s (logReclaimEff r)

/-- NVME_COMPLETION (R355). -/
def execNvmeCompletion (n : NvDone) (s : State) : Host.Outcome State Fault Refusal := act 3 s (nvmeDoneEff n)

/-- NVME_TIMEOUT (R358). -/
def execNvmeTimeout (i cid : Nat) (s : State) : Host.Outcome State Fault Refusal := act 3 s (nvmeTimeoutEff i cid)

/-- MRAM_OP_DONE (R307). -/
def execMramOpDone (ok : Bool) (s : State) : Host.Outcome State Fault Refusal := act 3 s (mramDoneEff ok)

end Sys2Proof.Machine
end

