-- ==== Sys2Proof/Machine/Spill.lean ====
section
/-! DEFINITION. The spill agent of a cluster: records, the directory, chains, writes, lookups, reads, frees, draining
windows, and its part of the orphan census (R122, R125 to R128, R131, R133, R137, R142, R144, R146). -/

namespace Sys2Proof.Machine

open Sys2Proof

/-! ### Records (R120, R126) -/

/-- A slot of a matching entry. -/
def slotBits : Option Val → Nat
  | some v => v.v.toNat + v.ty % 16 * 2 ^ 64 + bit v.cap * 2 ^ 68
  | none => 0

def slotOf (present : Bool) (n : Nat) : Option Val :=
  if present then some ⟨BitVec.ofNat 64 n, bits n 64 4, bits n 68 1 == 1⟩ else none

def EKind.code : EKind → Nat
  | .operand => 0
  | .ready => 1
  | .const => 2
  | .counter => 3

def EKind.ofCode (n : Nat) : EKind := if n = 0 then .operand else if n = 1 then .ready else if n = 2 then .const else .counter

/-- IMAGE of a record. -/
def Rec.image : Rec → Nat
  | .entry e => 1 + e.kind.code * 2 + bit e.l.isSome * 2 ^ 3 + bit e.r.isSome * 2 ^ 4 + bit e.t.isSome * 2 ^ 5
      + e.pri % 8 * 2 ^ 6 + e.ctx % 2 ^ 14 * 2 ^ 9 + e.iter % 2 ^ 12 * 2 ^ 23 + e.ia % 2 ^ 12 * 2 ^ 35
      + slotBits e.l * 2 ^ 48 + slotBits e.r * 2 ^ 117 + slotBits e.t * 2 ^ 186
  | .held h => h.tok.tag.pack + h.tok.val.v.toNat * 2 ^ 64 + h.tok.val.ty % 16 * 2 ^ 128 + bit h.tok.val.cap * 2 ^ 132
      + h.loop % 8 * 2 ^ 133 + (match h.rel with | some r => r % 2 ^ 64 * 2 ^ 136 + 2 ^ 200 | none => 0)

/-- The record that an IMAGE holds. A held token's firing is not in it: its IA in bits 11:0 of `v`, its port in bits 13:12 and its
ITER in bits 25:14 are a value left open where they are needed (log entry 3). -/
def recOf (kind n v : Nat) : Rec :=
  if kind = 0 then
    .entry ⟨.ofCode (bits n 1 2), bits n 6 3, bits n 9 14, bits n 23 12, bits n 35 12, slotOf (n.testBit 3) (bits n 48 69),
      slotOf (n.testBit 4) (bits n 117 69), slotOf (n.testBit 5) (bits n 186 69), 0, 0⟩
  else
    .held ⟨⟨Tag.unpack (bits n 0 64), ⟨BitVec.ofNat 64 (n / 2 ^ 64), bits n 128 4, n.testBit 132⟩⟩, bits n 133 3,
      (if n.testBit 200 then some (bits n 136 64) else none), bits v 0 12, bits v 12 2, bits v 14 12⟩

/-- The set whose chain a record belongs to. The manual names none for a held record: SET is zero in it, and in the DETAIL of an
NSFULL or FSFULL for its token (DESIGN CHOICE, log entry 76). -/
def Rec.set : Rec → Nat
  | .entry e => e.set
  | .held _ => 0

/-- The 64 bytes of a record as a number: IMAGE, LINK, LPE and KIND, SET, GEN and STAMP of its eviction, CRC. -/
def recBytes (x : Evicted) (lpe link : Nat) : Nat :=
  let kind : Nat := match x.r with | .entry _ => 0 | .held _ => 1
  let n := x.r.image + link % 2 ^ 32 * 2 ^ 256 + (lpe % 16 + kind * 16) * 2 ^ 288 + x.r.set % 1024 * 2 ^ 296
    + x.gen % 256 * 2 ^ 312 + x.tick * 2 ^ 320
  n + crc64 (natBytes 56 n) * 2 ^ 448

/-- LINK of a record replaced, with its CRC. -/
def relink (n link : Nat) : Nat :=
  let m := setBits (n % 2 ^ 448) 256 32 link
  m + crc64 (natBytes 56 m) * 2 ^ 448

def recLink (n : Nat) : Nat := bits n 256 32
def recLpe (n : Nat) : Nat := bits n 288 4
def recKind (n : Nat) : Nat := bits n 292 2
def recSet (n : Nat) : Nat := bits n 296 10
def recCrcOk (n : Nat) : Bool := crc64 (natBytes 56 n) == bits n 448 64

/-- Far pointers are kept above 2^32. -/
def farTag : Nat := 2 ^ 32

def isFar (ptr : Nat) : Bool := farTag ≤ ptr

/-- No further record, in the form of a level. -/
def endOf (far : Bool) : Nat := if far then 0xFFFFFFFF else 0xFFFFF

/-- A pointer as LINK holds it. -/
def linkOf (ptr : Nat) : Nat := if isFar ptr then ptr - farTag else ptr

/-- CLn_NSWINk as it applies to the records of window `w`: a draining window keeps its place. -/
def winWord (s : State) (cl w : Nat) : Nat :=
  mget (rd s (F.clNswinBank cl w) * 1024 + rd s (F.clNswinSize cl w) * 32 + rd s (F.clNswinStart cl w) * 2) (s.cl cl).oldWin w

/-- Scratch address of byte `off` of window `w`. -/
def winAddr (s : State) (cl w off : Nat) : Nat :=
  bits (winWord s cl w) 10 5 * 2 ^ 20 + bits (winWord s cl w) 1 4 * 2 ^ 16 + off

/-- The station of a record: its bank group's, or HIF's for far spill. -/
def recStation (s : State) (cl ptr : Nat) : Nat :=
  if isFar ptr then 1 else bgStation (bits (winWord s cl (ptr / 2 ^ 14)) 10 5)

/-- The bank of a near record; 0xFFFF for the host link (R146). -/
def recBank (s : State) (cl ptr : Nat) : Nat := if isFar ptr then 0xFFFF else bits (winWord s cl (ptr / 2 ^ 14)) 10 5

/-- The 64 bytes of a record in its place. -/
def getRec (s : State) (cl ptr : Nat) : Nat :=
  if isFar ptr then mget 0 (s.cl cl).far (ptr - farTag)
  else memNat s.mem (scrPhys s (winAddr s cl (ptr / 2 ^ 14) (ptr % 2 ^ 14 * 64))) 64

/-- A record written: to its bank, or over the host link to the far region. -/
def putRec (cl ptr n : Nat) (s : State) : State :=
  if isFar ptr then
    emitOut (.host 0 ((rd s (F.clFsbaseloAddr cl) + rd s (F.clFsbasehiAddr cl) * 2 ^ 32) + (ptr - farTag) * 64)
        (natBytes 64 n))
      (s.updCl cl fun c => { c with far := mset 0 c.far (ptr - farTag) n })
  else
    scrWrite s (winAddr s cl (ptr / 2 ^ 14) (ptr % 2 ^ 14 * 64)) (natBytes 64 n)

/-- Some word of a near record is held uncorrectable. -/
def recBad (s : State) (cl ptr : Nat) : Bool :=
  !isFar ptr && (List.range 8).any fun i => scrBad s (winAddr s cl (ptr / 2 ^ 14) (ptr % 2 ^ 14 * 64 + 8 * i))

/-! ### The directory and the chains (R125) -/

def dirAddr (s : State) (cl lpe set : Nat) : Nat := winAddr s cl 0 ((lpe * 1024 + set) * 16)

def getDir (s : State) (cl lpe set : Nat) : Nat := memNat s.mem (scrPhys s (dirAddr s cl lpe set)) 16

def putDir (cl lpe set n : Nat) (s : State) : State :=
  scrWrite s (dirAddr s cl lpe set) (natBytes 16 n)

def dirHead (far : Bool) (n : Nat) : Nat := if far then bits n 64 32 + farTag else bits n 0 20
def dirCount (far : Bool) (n : Nat) : Nat := if far then bits n 96 32 else bits n 20 20

/-- Head and count of one chain of a directory entry replaced. -/
def dirSet (far : Bool) (n head count : Nat) : Nat :=
  if far then setBits (setBits n 64 32 (linkOf head)) 96 32 count else setBits (setBits n 0 20 (linkOf head)) 20 20 count

/-- The head that an empty chain has. -/
def noPtr (far : Bool) : Nat := if far then farTag + 0xFFFFFFFF else 0xFFFFF

/-- The set's count that answers carry (R127). -/
def setCount (s : State) (cl lpe set : Nat) : Nat :=
  let n := getDir s cl lpe set
  dirCount false n + dirCount true n

/-- The records of a chain of the directory in their order. -/
def chainFrom (s : State) (cl : Nat) (far : Bool) : Nat → Nat → List Nat
  | 0, _ => []
  | n + 1, ptr => ptr :: chainFrom s cl far n (recLink (getRec s cl ptr) + (if far then farTag else 0))

def chainOf (s : State) (cl lpe set : Nat) (far : Bool) : List Nat :=
  let n := getDir s cl lpe set
  chainFrom s cl far (dirCount far n) (dirHead far n)

/-! ### Allocation (R128) -/

/-- The lowest free near record (the order of the free list is open: log entry 14). -/
def allocNear (s : State) (cl : Nat) : Option Nat :=
  if rdB s (F.clSpillcfgNsen cl) then
    (List.range 8).findSome? fun w =>
      match winRecords s cl w with
      | (a, n) => ((List.range n).find? fun i => !mget false (s.cl cl).nearUsed (w * 2 ^ 14 + a + i)).map
          (w * 2 ^ 14 + a + ·)
  else none

/-- A far record: from the free list first, then by the bump pointer. -/
def allocFar (s : State) (cl : Nat) : Option Nat :=
  match (s.cl cl).farFree with
  | p :: _ => some (farTag + p)
  | [] => if (s.cl cl).farBump < rd s (F.clFssizeSize cl) * 1024 then some (farTag + (s.cl cl).farBump) else none

/-- A record taken into use. -/
def takeRec (cl ptr : Nat) (s : State) : State :=
  if isFar ptr then
    put (s.updCl cl fun c =>
      match c.farFree with
      | _ :: l => { c with farFree := l }
      | [] => { c with farBump := c.farBump + 1 }) (F.clFsstatUsed cl) (rd s (F.clFsstatUsed cl) + 1)
  else
    put (s.updCl cl fun c => { c with nearUsed := mset false c.nearUsed ptr true }) (F.clNsstatUsed cl)
      (rd s (F.clNsstatUsed cl) + 1)

/-- A record freed onto its level's list. -/
def freeRec (cl ptr : Nat) (s : State) : State :=
  if isFar ptr then
    put (s.updCl cl fun c => { c with far := mset 0 c.far (ptr - farTag) 0, farFree := (ptr - farTag) :: c.farFree })
      (F.clFsstatUsed cl) (rd s (F.clFsstatUsed cl) - 1)
  else
    put (s.updCl cl fun c => { c with nearUsed := mset false c.nearUsed ptr false }) (F.clNsstatUsed cl)
      (rd s (F.clNsstatUsed cl) - 1)

/-! ### SPL packets (R224 to R226, R231, R233, R238) -/

/-- The request of an access by the agent of a cluster, at the record's station. -/
def splRequest (s : State) (cl cmd ptr : Nat) (us : List Nat) : Packet :=
  { src := clStation cl, dstn := recStation s cl ptr, dstp := 0, ring := 0, cmd := cmd, vn := vnSpl, epoch := 0, init := cl,
    f := reqF (if isFar ptr then (ptr - farTag) * 64 else winAddr s cl (ptr / 2 ^ 14) (ptr % 2 ^ 14 * 64))
      (s.stn (clStation cl)).nextTxn 17,
    body := .units us, who := none, asker := .nobody }

/-- Packets and units of a packet in the statistics of a station (R241). -/
def countPacket (st : Nat) (p : Packet) (s : State) : State := bumpStat st p.init 1 p.size (bumpStat st p.init 0 1 s)

/-- An access of a spill agent, request and answer in one step (log entry 77): the STATUS it completes with, `status` where the
record's station answers; NOTARGET without a route, and LOST at a station that is bypassed or whose command is not served. None
while the request may not be injected. -/
def splAccess (cl cmd ptr status : Nat) (us : List Nat) (s : State) : Option (Nat × State) :=
  let p := splRequest s cl cmd ptr us
  match mayInject s p with
  | none => none
  | some e =>
    if !rdB s (F.rngRtValid p.src e p.dstn) then some (stNOTARGET, s)
    else
      let s1 := countPacket p.src p (s.updStn p.src fun x => { x with nextTxn := (x.nextTxn + 1) % 4096 })
      if (rd s F.rngBypassByp).testBit p.dstn || cmdVn p.cmd != some vnSpl then some (stLOST, s1)
      else
        let a := answerTo s p (if cmd = 0x31 ∨ cmd = 0x33 then 0x34 else 0x35) status
          (.units (if cmd = 0x31 ∨ cmd = 0x33 then [0, 0, 0, 0] else []))
        some (a.status, latency p.src p.init s.now (bumpStat p.src p.init 3 1 (countPacket p.dstn a s1)))

/-- The four data units of a record. -/
def recUnits (n : Nat) : List Nat := (List.range 4).map fun i => bits n (128 * i) 128

/-- An answer on its way to a PE. -/
def queueSpAns (k : Nat) (a : SpAns) (s : State) : State := s.updPe k fun p => { p with spAns := p.spAns ++ [a] }

def ackAns (set : Nat) : SpAns := ⟨set, 0, false, 0, 0, 0, false, none, false, none⟩

/-! ### Agent chains (R125) -/

/-- LINK of the record `q` of an agent chain, when `next` follows it: the end where no record of its level does. -/
def chainLink (q : Nat) (next : Option Nat) : Nat :=
  match next with
  | some p => if isFar p = isFar q then linkOf p else endOf (isFar q)
  | none => endOf (isFar q)

/-- The record before a position of an agent chain takes a new successor. -/
def relinkBefore (cl : Nat) (chain : List Nat) (i : Nat) (next : Option Nat) (s : State) : State :=
  if i = 0 then s
  else
    let q := chain.getD (i - 1) 0
    putRec cl q (relink (getRec s cl q) (chainLink q next)) s

/-- An agent chain of a logical PE: the held chain or the spilled-ready chain. -/
def agentChain (s : State) (cl lpe : Nat) (held : Bool) : List Nat :=
  if held then mget [] (s.cl cl).heldChain lpe else mget [] (s.cl cl).readyChain lpe

def setChain (cl lpe : Nat) (held : Bool) (l : List Nat) (s : State) : State := s.updCl cl fun c =>
  if held then { c with heldChain := mset [] c.heldChain lpe l } else { c with readyChain := mset [] c.readyChain lpe l }

/-- A record leaves an agent chain, its predecessor relinked. -/
def chainErase (cl lpe : Nat) (held : Bool) (i : Nat) (s : State) : State :=
  let chain := agentChain s cl lpe held
  setChain cl lpe held (chain.eraseIdx i) (relinkBefore cl chain i chain[i + 1]? s)

/-- An agent chain cut before a position: the records beyond are abandoned (R128). -/
def chainCut (cl lpe : Nat) (held : Bool) (i : Nat) (s : State) : State :=
  let chain := agentChain s cl lpe held
  setChain cl lpe held (chain.take i) (relinkBefore cl chain i none s)

/-! ### SPWRITE -/

/-- A record onto a set's chain, at the head. -/
def pushSet (cl lpe ptr : Nat) (x : Evicted) (s : State) : State :=
  let far := isFar ptr
  let n := getDir s cl lpe x.r.set
  let c := dirCount far n
  let link := if c = 0 then endOf far else linkOf (dirHead far n)
  putDir cl lpe x.r.set (dirSet far n ptr (c + 1)) (putRec cl ptr (recBytes x lpe link) s)

/-- A record onto an agent chain, at the tail. -/
def pushTail (cl lpe ptr : Nat) (x : Evicted) (held : Bool) (s : State) : State :=
  let chain := agentChain s cl lpe held
  setChain cl lpe held (chain ++ [ptr])
    (relinkBefore cl chain chain.length (some ptr) (putRec cl ptr (recBytes x lpe (endOf (isFar ptr))) s))

/-- A record written at a pointer and joined to its chain, and its acknowledgement. -/
def storeRec (cl lpe ptr : Nat) (x : Evicted) (s : State) : State :=
  let s1 := takeRec cl ptr s
  match x.r with
  | .held _ => pushTail cl lpe ptr x true s1
  | .entry e =>
    queueSpAns (peKey s (cl * 16 + lpe)) (ackAns e.set)
      (if e.kind = .ready then pushTail cl lpe ptr x false s1 else pushSet cl lpe ptr x s1)

/-- SPILLERR against the context of a record (R146). -/
def spillErr (k ctx port ia lpe iter bank : Nat) (s : State) : State := peFault k ctx port ia lpe 0 iter 0x22 bank s

/-- The host link carries far-spill traffic: it is in L0 or L0p (R30). -/
def linkUp (s : State) : Bool := s.linkState == 1 || s.linkState == 2

/-- Where the next record of a context goes: near, or far where R128 allows it. -/
def allocRec (s : State) (cl ctx : Nat) : Option Nat :=
  match allocNear s cl with
  | some p => some p
  | none => if farAllowed s cl ctx then allocFar s cl else none

/-- The first record of the eviction buffer written; after an error answer it stays there. A forced spill that has waited for
room in the buffer goes on. -/
def spwriteEff (x : SpillOp) (s : State) : State :=
  let k := peKey s (x.cl * 16 + x.lpe)
  if !clRuns s x.cl || !decide (x.lpe < 16) then s
  else
    match (s.pe k).evict with
    | [] => s
    | v :: rest =>
      match allocRec s x.cl v.r.ctx with
      | none => s
      | some ptr =>
        if isFar ptr && !linkUp s then s
        else
          match splAccess x.cl 0x30 ptr x.status (recUnits (recBytes v x.lpe (endOf (isFar ptr)))) s with
          | none => s
          | some (st, s1) =>
            if st ≠ stOK then spillErr k v.r.ctx 0 0 (x.cl * 16 + x.lpe) 0 (recBank s x.cl ptr) s1
            else
              stallWatch x.cl <| pumpLoops k <| forceSpill k <|
                storeRec x.cl x.lpe ptr v (s1.updPe k fun p => { p with evict := rest })

/-! ### SPLOOKUP -/

/-- How a walk ends: a record that cannot be used ends it at its position. -/
inductive Walk where
  | absent
  | found (i : Nat) (r : Rec)
  | failed (i : Nat) (crc : Bool)

/-- The walk along a chain; `off` records were walked before it. -/
def walk (s : State) (x : SpillOp) (hit : Rec → Bool) (off : Nat) : Nat → List Nat → Walk
  | _, [] => .absent
  | i, ptr :: ps =>
    let n := getRec s x.cl ptr
    if x.errAt = some (off + i) || recBad s x.cl ptr then .failed i false
    else if x.crcAt = some (off + i) || !recCrcOk n then .failed i true
    else
      let r := recOf (recKind n) n 0
      if hit r then .found i r else walk s x hit off (i + 1) ps

/-- The walk of an access whose request has been answered: an error answer is that of its first record. -/
def answeredOp (x : SpillOp) (status : Nat) : SpillOp := if status = stOK then x else { x with errAt := some 0 }

/-- The record at a position of a set's chain unlinked: its predecessor, or the head, takes its LINK. -/
def unlinkAt (cl lpe set : Nat) (far : Bool) (i : Nat) (s : State) : State :=
  let ps := chainOf s cl lpe set far
  let next := recLink (getRec s cl (ps.getD i 0))
  let n := getDir s cl lpe set
  if i = 0 then putDir cl lpe set (dirSet far n (next + (if far then farTag else 0)) (dirCount far n - 1)) s
  else
    let q := ps.getD (i - 1) 0
    putDir cl lpe set (dirSet far n (dirHead far n) (dirCount far n - 1)) (putRec cl q (relink (getRec s cl q) next) s)

/-- A set's chain cut before a position: the records beyond are abandoned (R128). -/
def cutAt (cl lpe set : Nat) (far : Bool) (i : Nat) (s : State) : State :=
  let ps := chainOf s cl lpe set far
  let n := getDir s cl lpe set
  if i = 0 then putDir cl lpe set (dirSet far n (noPtr far) 0) s
  else
    let q := ps.getD (i - 1) 0
    putDir cl lpe set (dirSet far n (dirHead far n) i) (putRec cl q (relink (getRec s cl q) (endOf far)) s)

/-- The first token of a PE whose lookup has not been issued. -/
def firstUnasked (p : Pe) : Option Parked := p.refill.find? (!·.asked)

/-- A record is the one looked up. -/
def Rec.isFor (isConst : Bool) (t : Tag) : Rec → Bool
  | .entry e =>
    if isConst then (e.kind == .const || e.kind == .counter) && e.ctx == t.ctx && e.ia == t.ia
    else e.hasKey .operand t.ctx t.iter t.ia
  | .held _ => false

/-- A lookup: the near chain of the set, then the far one, for which it waits while the link is down (R30); the record found is
unlinked and returned. A far record whose CRC fails raises SPILLCRC, an error or an uncorrectable unit SPILLERR; a near record's
CRC has no cause (R146). -/
def splookupEff (x : SpillOp) (s : State) : State :=
  let k := peKey s (x.cl * 16 + x.lpe)
  if !clRuns s x.cl || !decide (x.lpe < 16) then s
  else
    match firstUnasked (s.pe k) with
    | none => s
    | some q =>
      let t := q.tok.tag
      let (set, isConst) := match q.why with
        | .entry st => (st, false)
        | .const st _ => (st, true)
        | .loop _ => (0, false)
      let near := chainOf s x.cl x.lpe set false
      let far := chainOf s x.cl x.lpe set true
      match splAccess x.cl 0x31 (near.headD (far.headD 0)) x.status [] s with
      | none => s
      | some (st, s0) =>
        let y := answeredOp x st
        let s1 := s0.updPe k fun p => { p with
          refill := (p.refill.takeWhile (· != q)) ++ [{ q with asked := true }] ++ (p.refill.dropWhile (· != q)).drop 1 }
        let ans (less : Nat) (found : Option Rec) (far : Bool) (fail : Option (Nat × Nat)) (s : State) : State :=
          queueSpAns k ⟨set, less, true, t.ctx, t.iter, t.ia, isConst, found, far, fail⟩ s
        let fail (isF : Bool) (chain : List Nat) (i : Nat) (crc : Bool) (s : State) : State :=
          ans (chain.length - i) none isF
            (if !crc then some (0x22, recBank s x.cl (chain.getD i 0))
             else if isF then some (0x23, spillDetail x.lpe set) else none)
            (cutAt x.cl x.lpe set isF i s)
        let gotIt (isF : Bool) (i ptr : Nat) (r : Rec) (s : State) : State :=
          ans 1 (some r) isF none ((unlinkAt x.cl x.lpe set isF i s).updCl x.cl fun c => { c with toFree := c.toFree ++ [ptr] })
        match walk s y (Rec.isFor isConst t) 0 0 near with
        | .failed i crc => fail false near i crc s1
        | .found i r => gotIt false i (near.getD i 0) r s1
        | .absent =>
          if far != [] && !linkUp s then s else
          match walk s y (Rec.isFor isConst t) near.length 0 far with
          | .failed i crc => fail true far i crc s1
          | .found i r => gotIt true i (far.getD i 0) r s1
          | .absent => ans 0 none false none s1

/-! ### SPFREE -/

/-- The first unlinked record is freed. -/
def spfreeEff (cl : Nat) (s : State) : State :=
  match (s.cl cl).toFree with
  | [] => s
  | ptr :: rest =>
    match splAccess cl 0x32 ptr stOK [] s with
    | some (_, s1) => stallWatch cl (freeRec cl ptr (s1.updCl cl fun c => { c with toFree := rest }))
    | none => s

/-! ### SPREAD: agent chains and draining windows -/

/-- A held record whose token is admitted now, by the PE's loop window cache or by the window of a notice (R137). -/
def heldAdmitted (p : Pe) : Rec → Bool
  | .held h => (p.lwc ++ p.asks).any fun w => w.ctx == h.tok.tag.ctx && w.loop == h.loop && lwcAdmit w h.tok.tag.iter == .send
  | .entry _ => false

/-- One record of an agent chain read back: the head of the ready chain when the ready list has room, or the first
admitted record of the held chain. A record that cannot be read ends the walk and those beyond are abandoned. When no held record
is admitted, the notices have been served. -/
def spreadChain (x : SpillOp) (s : State) : State :=
  let k := peKey s (x.cl * 16 + x.lpe)
  let p := s.pe k
  let held := x.which == 1
  let chain := agentChain s x.cl x.lpe held
  if chain = [] then (if held then s.setPe k { p with asks := [] } else s)
  else if !held && 64 ≤ (readyList p).length then s
  else if (if held then chain else chain.take 1).any isFar && !linkUp s then s
  else
    match splAccess x.cl 0x33 (chain.headD 0) x.status [] s with
    | none => s
    | some (st, s0) =>
      match walk s (answeredOp x st) (fun r => !held || heldAdmitted p r) 0 0 chain with
      | .absent => s0.updPe k fun p => { p with asks := [] }
      | .failed i crc =>
        let n := getRec s x.cl (chain.getD i 0)
        let r := recOf (recKind n) n 0
        let s1 := forAll (if held then [] else chain.drop i) (fun ptr => filterSub k (recSet (getRec s x.cl ptr)))
          (chainCut x.cl x.lpe held i s0)
        if crc then s1 else spillErr k r.ctx 0 0 (x.cl * 16 + x.lpe) 0 (recBank s x.cl (chain.getD i 0)) s1
      | .found i _ =>
        let ptr := chain.getD i 0
        let n := getRec s x.cl ptr
        let (v, s1) := if bits n 292 2 == 1 then s0.takeFree else (0, s0)
        let r := recOf (recKind n) n v.toNat
        queueSpAns k ⟨r.set, bit (!held), true, r.ctx, 0, 0, false, some r, isFar ptr, none⟩
          ((chainErase x.cl x.lpe held i s1).updCl x.cl fun c => { c with toFree := c.toFree ++ [ptr] })

/-- A used near record of the draining part of a window: all of a window that was disabled or moved, or what lies beyond
its new size. -/
def drainingRec (s : State) (cl ptr : Nat) : Bool :=
  let w := ptr / 2 ^ 14
  let old := winWord s cl w
  let same := rdB s (F.clNswinEn cl w) && rd s (F.clNswinBank cl w) == bits old 10 5
    && rd s (F.clNswinStart cl w) == bits old 1 4
  (rd s (F.clNsstatDraining cl)).testBit w && (!same || rd s (F.clNswinSize cl w) * 1024 ≤ ptr % 2 ^ 14)

/-- The near records in use. -/
def usedNear (s : State) (cl : Nat) : List Nat := ((s.cl cl).nearUsed.filter (·.2)).map (·.1)

/-- One record of a draining window moved elsewhere and relinked; one that a lookup serves is skipped, and without a free record
nothing happens (R131, R133). -/
def spreadDrain (x : SpillOp) (s : State) : State :=
  let c := s.cl x.cl
  match (usedNear s x.cl).find? (fun p => drainingRec s x.cl p && !c.toFree.contains p), allocNear s x.cl with
  | some ptr, some dst =>
    match splAccess x.cl 0x33 ptr x.status [] s with
    | none => s
    | some (st, s0) =>
      let n := getRec s x.cl ptr
      let lpe := recLpe n
      if st ≠ stOK ∨ recBad s x.cl ptr = true then
        let r := recOf (recKind n) n 0
        spillErr (peKey s (x.cl * 16 + lpe)) r.ctx 0 0 (x.cl * 16 + lpe) 0 (recBank s x.cl ptr) s0
      else
        let moved := freeRec x.cl ptr (putRec x.cl dst n (takeRec x.cl dst s0))
        let swap (held : Bool) (i : Nat) : State :=
          let chain := agentChain s x.cl lpe held
          setChain x.cl lpe held (chain.set i dst) (relinkBefore x.cl chain i (some dst) moved)
        match (mget [] c.heldChain lpe).findIdx? (· == ptr), (mget [] c.readyChain lpe).findIdx? (· == ptr) with
        | some i, _ => swap true i
        | none, some i => swap false i
        | none, none =>
          let chain := chainOf s x.cl lpe (recSet n) false
          match chain.findIdx? (· == ptr) with
          | none => s
          | some 0 =>
            let d := getDir s x.cl lpe (recSet n)
            putDir x.cl lpe (recSet n) (dirSet false d dst (dirCount false d)) moved
          | some (i + 1) =>
            let q := chain.getD i 0
            putRec x.cl q (relink (getRec s x.cl q) dst) moved
  | _, _ => s

def spreadEff (x : SpillOp) (s : State) : State :=
  if !clRuns s x.cl || !decide (x.lpe < 16) then s
  else if x.which = 2 then spreadDrain x s
  else spreadChain x s

/-- The last record has left a draining window (R131). -/
def spillDrainDoneEff (cl win : Nat) (s : State) : State :=
  if (rd s (F.clNsstatDraining cl)).testBit win && !(usedNear s cl).any fun p => p / 2 ^ 14 == win && drainingRec s cl p then
    put (s.updCl cl fun c => { c with oldWin := mdel c.oldWin win }) (F.clNsstatDraining cl)
      (rd s (F.clNsstatDraining cl) - 2 ^ win)
  else s

/-! ### SPDATA and SPACK -/

/-- The records of a set on the spilled-ready chain of a logical PE. -/
def readyCount (s : State) (cl lpe set : Nat) : Nat :=
  ((mget [] (s.cl cl).readyChain lpe).filter fun p => recSet (getRec s cl p) == set).length

/-- A filter at 255 takes the count that an answer brings, NCOUNT + FCOUNT, with the set's records elsewhere: in the eviction
buffer, on the spilled-ready chain, and in answers still on their way (R127; log entry 14). -/
def resync (k set : Nat) (s : State) : State :=
  let p := s.pe k
  if filterOf p set = 255 then
    let cl := k / 17
    let lpe := (logPe s cl (k % 17)).getD 0
    let buf := (p.evict.filter fun x => match x.r with | .entry e => e.set == set | .held _ => false).length
    let coming := ((p.spAns.filter (·.set == set)).map (·.less)).sum
    s.setPe k { p with filter := mset 0 p.filter set (min (setCount s cl lpe set + readyCount s cl lpe set + buf + coming) 255) }
  else s

/-- The set of an answer has so many records fewer; a full filter is re-synchronised. -/
def settleAns (k : Nat) (a : SpAns) (s : State) : State :=
  resync k a.set (forAll (List.range a.less) (fun _ => filterSub k a.set) s)

/-- The first answer of a kind, and the answers without it. -/
def nextAns (p : Pe) (look : Bool) : Option (SpAns × List SpAns) :=
  match p.spAns.find? (·.look == look) with
  | some a => some (a, eraseFirst a p.spAns)
  | none => none

/-- A tag is the one that an answer was asked for. -/
def SpAns.isOf (a : SpAns) (t : Tag) : Bool := t.ctx == a.ctx && t.ia == a.ia && (a.isConst || t.iter == a.iter)

/-- A token of the pending-refill table waits for the answer. -/
def SpAns.forTag (a : SpAns) (q : Parked) : Bool :=
  q.asked && a.isOf q.tok.tag && (match q.why with
    | .entry _ => !a.isConst
    | .const _ _ => a.isConst
    | .loop _ => false)

/-- The look at a token whose answer has come: what it has found need not be looked up again. -/
def SpAns.lookOf (a : SpAns) (r : Reads) (q : Parked) : Look :=
  ⟨r, (match q.why with | .entry _ => true | .const _ d => d | .loop _ => false), a.isConst⟩

/-- One token that waited for an answer goes through matching. One that finds no room while the overflow hold is
occupied waits on (R117). -/
def resumeTok (k : Nat) (a : SpAns) (r : Reads) (q : Parked) (s : State) : State :=
  let p := s.pe k
  let s1 := takeTok k q.tok (a.lookOf r q) (s.setPe k { p with refill := eraseFirst q p.refill, holdTok := none })
  if (s1.pe k).holdTok.isSome then (if p.hold.isSome || p.holdTok.isSome then s else s1)
  else s1.updPe k fun x => { x with holdTok := p.holdTok }

/-- The token of the overflow hold that waited for the answer's record is the first to go on (R129). -/
def resumeHeld (k : Nat) (a : SpAns) (r : Reads) (s : State) : State :=
  match (s.pe k).holdTok with
  | some h =>
    if a.isOf h.tok.tag then
      takeTok k h.tok ⟨r, h.entryDone || !a.isConst, h.constDone || a.isConst⟩ (s.updPe k fun p => { p with holdTok := none })
    else s
  | none => s

/-- The tokens that waited for an answer go through matching in order; for those that must wait on, the answer
stays. -/
def resume (k : Nat) (a : SpAns) (r : Reads) (s : State) : State :=
  let s1 := forAll ((s.pe k).refill.filter a.forTag) (resumeTok k a r) s
  pumpLoops k <|
    if (s1.pe k).refill.any a.forTag then
      s1.updPe k fun p => { p with spAns := { a with less := 0, found := none, fail := none } :: p.spAns }
    else s1

/-- The record that an answer holds finds no room: the token that needs it moves to the overflow hold when that is free, with
NSFULL or FSFULL where no level takes a victim, and the answer waits (R129). -/
def holdAnswer (k : Nat) (a : SpAns) (set : Nat) (c : Option Nat) (s : State) : State :=
  let p := s.pe k
  match c, p.refill.find? a.forTag with
  | some c, some q =>
    if p.hold.isSome || p.holdTok.isSome then s
    else
      overflow k q.tok ⟨.ok, (match q.why with | .const _ d => d | _ => false), false⟩ set (some c)
        (s.setPe k { p with refill := eraseFirst q p.refill })
  | _, _ => s

/-- The fault of a walk that failed, against the token being looked up (R146). -/
def ansFault (k : Nat) (a : SpAns) (s : State) : State :=
  match a.fail with
  | some (c, d) =>
    if (s.pe k).refill.any a.forTag then
      peFault k a.ctx 0 a.ia (k / 17 * 16 + (logPe s (k / 17) (k % 17)).getD 0) 0 a.iter c d s
    else s
  | none => s

/-- A record returns to a PE: an entry into its set, a held token onwards; a record of a context whose census has
scanned the PE is counted and freed (R144). Without room the answer waits. A ready entry that returns from the spilled-ready chain
takes its place in the order of readiness at its return (DESIGN CHOICE, log entry 76). -/
def spdataEff (cl pe : Nat) (r : Reads) (s : State) : State :=
  let k := cl * 17 + pe
  if !clRuns s cl then s
  else
    match nextAns (s.pe k) true with
    | none => s
    | some (a, rest) =>
      let s0 := s.updPe k fun p => { p with spAns := rest }
      match a.found with
      | none => stallWatch cl (resume k a r (ansFault k a (settleAns k a s0)))
      | some x =>
        let lpe := cl * 16 + (logPe s cl pe).getD 0
        let c := s.ctx x.ctx
        let purged := c.state == .free || (match c.census with | some c => c.scanned.contains lpe | none => false)
        let s1 := bumpCtr k (if a.far then 2 else 1) (settleAns k a (count k x.ctx 0 (-1) s0))
        if purged then unreserveRec cl x (countRec x.ctx x s1)
        else
          match x with
          | .held h => sendOut k h s1
          | .entry e =>
            match insertEntry k { e with order := (s1.pe k).stamp } [] true r s1 with
            | .ok s2 => stallWatch cl (resume k a r (resumeHeld k a r s2))
            | .error c => holdAnswer k a e.set c s

/-- An acknowledgement: its count re-synchronises a full filter (R127). -/
def spackEff (cl pe : Nat) (s : State) : State :=
  let k := cl * 17 + pe
  match nextAns (s.pe k) false with
  | some (a, rest) => settleAns k a (s.updPe k fun p => { p with spAns := rest })
  | none => s

/-! ### The agent's part of the orphan census -/

/-- One record of the returning context: counted, taken off its chain and freed. -/
def censusRec (ctx cl ptr : Nat) (s : State) : State :=
  let n := getRec s cl ptr
  let r := recOf (recKind n) n 0
  let lpe := recLpe n
  let c := s.cl cl
  let k := peKey s (cl * 16 + lpe)
  let off (s : State) : State := unreserveRec cl r <| freeRec cl ptr <| countRec ctx r <|
    s.updCtx ctx fun x => { x with scount := x.scount - 1 }
  if r.ctx ≠ ctx ∨ c.toFree.contains ptr then s
  else
    match (mget [] c.heldChain lpe).findIdx? (· == ptr), (mget [] c.readyChain lpe).findIdx? (· == ptr) with
    | some i, _ => off (chainErase cl lpe true i s)
    | none, some i => filterSub k r.set (off (chainErase cl lpe false i s))
    | none, none =>
      match (chainOf s cl lpe (recSet n) (isFar ptr)).findIdx? (· == ptr) with
      | some i => filterSub k r.set (off (unlinkAt cl lpe (recSet n) (isFar ptr) i s))
      | none => s

/-- The agent has walked its chains and freed the context's records (R142). -/
def censusSpillEff (ctx cl : Nat) (s : State) : State :=
  match (s.ctx ctx).census with
  | some c =>
    if censusPast4 s ctx && cl < 16 && !c.spillDone.contains cl then
      let ptrs := usedNear s cl ++ ((s.cl cl).far.map (farTag + ·.1))
      countCensus ctx (fun c => { c with spillDone := c.spillDone ++ [cl] }) (forAll ptrs (censusRec ctx cl) s)
    else s
  | none => s

/-! ### The rows -/

/-- SPWRITE (R128). -/
def execSpwrite (x : SpillOp) (s : State) : Host.Outcome State Fault Refusal := act 5 s (spwriteEff x)

/-- SPLOOKUP (R128). -/
def execSplookup (x : SpillOp) (s : State) : Host.Outcome State Fault Refusal := act 5 s (splookupEff x)

/-- SPFREE (R128). -/
def execSpfree (cl : Nat) (s : State) : Host.Outcome State Fault Refusal := act 5 s (spfreeEff cl)

/-- SPREAD (R128). -/
def execSpread (x : SpillOp) (s : State) : Host.Outcome State Fault Refusal := act 5 s (spreadEff x)

/-- SPDATA (R128). -/
def execSpdata (cl : Nat) (x : PeReads) (s : State) : Host.Outcome State Fault Refusal := act 5 s (spdataEff cl x.pe x.reads)

/-- SPACK (R224). -/
def execSpack (cl pe : Nat) (s : State) : Host.Outcome State Fault Refusal := act 5 s (spackEff cl pe)

/-- SPILL_DRAIN_DONE (R131). -/
def execSpillDrainDone (cl win : Nat) (s : State) : Host.Outcome State Fault Refusal := act 5 s (spillDrainDoneEff cl win)

/-- CENSUS_SPILL_DONE (R142). -/
def execCensusSpillDone (ctx cl : Nat) (s : State) : Host.Outcome State Fault Refusal := act 5 s (censusSpillEff ctx cl)

end Sys2Proof.Machine
end

