-- ==== Sys2Proof/Machine/ClCommit.lean ====
section
/-! DEFINITION. CLn_COMMIT: the near windows and their drains, the far region, and the operating point (R125, R130, R131,
R414, R415). -/

namespace Sys2Proof.Machine

open Sys2Proof

/-- A near window as the registers name it: enabled, bank, size and first granule. -/
structure NearWin where
  en : Bool
  bank : Nat
  size : Nat
  start : Nat
  deriving DecidableEq, Repr

/-- CLn_NSWINk, in force or in the shadows. -/
def nearWin (rdf : State → Fld → Nat) (s : State) (cl w : Nat) : NearWin :=
  ⟨rdf s (F.clNswinEn cl w) == 1, rdf s (F.clNswinBank cl w), rdf s (F.clNswinSize cl w), rdf s (F.clNswinStart cl w)⟩

/-- Two windows have the same first byte. -/
def NearWin.samePlace (a b : NearWin) : Bool := a.bank == b.bank && a.start == b.start

/-- The word of a window as `winWord` reads it. -/
def NearWin.word (a : NearWin) : Nat := a.bank * 1024 + a.size * 32 + a.start * 2

/-- An enabled window lies inside a bank that the cluster owns. -/
def NearWin.fits (s : State) (cl : Nat) (a : NearWin) : Bool :=
  1 ≤ a.size && a.size ≤ 16 && a.start + a.size ≤ 16 && rd s (F.sbOwnerOwner a.bank) == cl

/-- Two windows overlap. -/
def NearWin.overlaps (a b : NearWin) : Bool :=
  a.bank == b.bank && a.start < b.start + b.size && b.start < a.start + a.size

/-- No two windows of a list overlap. -/
def noOverlap : List NearWin → Bool
  | [] => true
  | a :: l => l.all (fun b => !a.overlaps b) && noOverlap l

/-- FSBASE and FSSIZE, in force or in the shadows. -/
def farRegion (rdf : State → Fld → Nat) (s : State) (cl : Nat) : Nat × Nat × Nat :=
  (rdf s (F.clFsbaseloAddr cl), rdf s (F.clFsbasehiAddr cl), rdf s (F.clFssizeSize cl))

/-- The commit is refused (R130, R414). -/
def clRefused (s : State) (cl : Nat) : Bool :=
  let ws := ((List.range 8).map (nearWin rdSh s cl)).filter (·.en)
  let old := nearWin rd s cl 0
  let new := nearWin rdSh s cl 0
  let near := rd s (F.clNsstatUsed cl)
  let far := rd s (F.clFsstatUsed cl)
  !(ws.all (NearWin.fits s cl)) || !noOverlap ws
    || (rdShB s (F.clSpillcfgNsen cl) && !(new.en && decide (5 ≤ new.size)))
    || rdSh s (F.clFsbaseloAddr cl) % 65536 != 0 || 0x100000 < rdSh s (F.clFssizeSize cl)
    || (old.en && (near != 0 || far != 0) && !(new.en && new.samePlace old))
    || (far != 0 && decide (farRegion rdSh s cl ≠ farRegion rd s cl))
    || 2 * rdSh s (F.clClkcfgVolt cl) + 120 < 3 * rdSh s (F.clClkcfgFreq cl)

/-- A window that was disabled, moved or shrunk drains (R131); its records keep their places. -/
def drainWin (cl w : Nat) (old : NearWin) (s : State) : State :=
  let new := nearWin rd s cl w
  let kept := new.en && new.samePlace old
  let drains := old.en && (if w = 0 then kept && decide (new.size < old.size) else !kept || decide (new.size < old.size))
  if drains && !(rd s (F.clNsstatDraining cl)).testBit w then
    putOr (s.updCl cl fun c => { c with oldWin := mset 0 c.oldWin w old.word }) (F.clNsstatDraining cl) (2 ^ w)
  else s

/-- The directory entry of a set without records. -/
def emptyDir : Nat := 0xFFFFF + 0xFFFFFFFF * 2 ^ 64

/-- A window 0 that was enabled or moved has a directory of empty chains (log entry 26). -/
def clearDirectory (cl : Nat) (old : NearWin) (s : State) : State :=
  let new := nearWin rd s cl 0
  if new.en && !(old.en && new.samePlace old) then
    forAll (List.range 16384) (fun i => putDir cl (i / 1024) (i % 1024) emptyDir) s
  else s

/-- A far region that was moved or resized starts empty. -/
def newFarRegion (cl : Nat) (old : Nat × Nat × Nat) (s : State) : State :=
  if farRegion rd s cl = old then s else s.updCl cl fun c => { c with farFree := [], farBump := 0, far := [] }

/-- The operating point of a cluster: FREQ and VOLT, committed or in force. -/
def oppoint (s : State) (cl : Nat) : Nat × Nat := (rd s (F.clClkcfgFreq cl), rd s (F.clClkcfgVolt cl))

def oppointNow (s : State) (cl : Nat) : Nat × Nat := (rd s (F.clClkstatFreq cl), rd s (F.clClkstatVolt cl))

/-- The rise in current of a change of operating point, and its ramp of ΔV / 10 µs, in ns (R415). -/
def oppointStep (s : State) (cl : Nat) : Nat × Nat :=
  match oppoint s cl, oppointNow s cl with
  | (f, v), (f0, v0) =>
    (rd s F.pwrStepCl * (f * (110 + v) ^ 2 - f0 * (110 + v0) ^ 2), (v - v0) * 500)

def setOpPhase (cl : Nat) (p : OpPhase) (s : State) : State := { s with opPhase := mset .none s.opPhase cl p }

/-- The operating point in force is the committed one. -/
def oppointDone (cl : Nat) (s : State) : State :=
  match oppoint s cl with
  | (f, v) =>
    setOpPhase cl .none (put (put (put s (F.clClkstatFreq cl) f) (F.clClkstatVolt cl) v) (F.clClkstatChanging cl) 0)

/-- A change of operating point starts (R415): a rise asks the ledger; a lowering relocks first, unless VOLT alone
changes. -/
def startOppoint (cl : Nat) (s : State) : State :=
  let s0 := { s with ledger := s.ledger.filter fun r => !(r.dom == cl && r.dvfs) }
  match oppoint s cl, oppointNow s cl with
  | (f, v), (f0, v0) =>
    if domState s cl ≠ 0 then s0
    else if f = f0 ∧ v = v0 then oppointDone cl s0
    else
      put (if v0 < v then
          match oppointStep s cl with
          | (di, ramp) => setOpPhase cl .ledger { s0 with ledger := s0.ledger ++ [⟨cl, s.now, s.now, di, ramp, 0, true, false⟩] }
        else setOpPhase cl (if f = f0 then .lowerVolt else .lower) s0) (F.clClkstatChanging cl) 1

def clCommitEff (cl : Nat) (s : State) : State :=
  let b := 17 + cl
  if 16 ≤ cl then s
  else if clRefused s cl then cfgErr b (dropShadow s b)
  else
    let s1 := forAll (List.range 8) (fun w => drainWin cl w (nearWin rd s cl w)) (commitOk s b)
    let s2 := newFarRegion cl (farRegion rd s cl) (clearDirectory cl (nearWin rd s cl 0) s1)
    if oppoint s2 cl = oppoint s cl then s2 else startOppoint cl s2

/-- CL_COMMIT (R130). -/
def execClCommit (cl : Nat) (s : State) : Host.Outcome State Fault Refusal := act 5 s (clCommitEff cl)

end Sys2Proof.Machine
end

