-- ==== Sys2Proof/Machine/Power.lean ====
section
/-! DEFINITION. The power manager: selection of a state, closing and reopening of domains, the wake ledger, changes of operating
point, and the counter snapshot (R239, R402 to R417). -/

namespace Sys2Proof.Machine

open Sys2Proof

/-! ### Known events of a domain (R409, R410) -/

/-- The phase sources that govern a domain: those with a token in the gate of its cluster. -/
def governing (s : State) (d : Nat) : List Nat :=
  if d < 16 then (List.range 16).filter fun n => (s.cl d).gate.any fun e => e.src == n else []

/-- The heads of the gate of a cluster in the direction that each source has now. -/
def gateHeads (s : State) (d : Nat) : List GateE :=
  if d < 16 then
    (List.range 16).filterMap fun n => (gateLists s d n (!(s.bs (17 * 16 + n)).status.testBit 3)).head?
  else []

/-- The converter ports that feed a domain: through bindings into a cluster, or capture rings in a bank group. -/
def feeding (s : State) (d : Nat) : List Nat :=
  (List.range 32).filter fun p =>
    if d < 16 then
      (boundChans s p).any fun c => rd s (F.cnvChbindloPe c) / 16 == d
    else if d < 20 then
      (List.range 64).any fun r => rdB s (F.cnvCapcfgEn r) && ringPort s r == p && rd s (F.cnvCapcfgBank r) / 8 + 16 == d
    else false

/-- The time of the next strobe of a port: the last interval again. With fewer than two strobes it is left open, since the
device does not measure CMCLK (R182, log entry 3). -/
def nextOstb (s : State) (p w : Nat) : Nat :=
  match (s.port p).strobes.reverse with
  | b :: a :: _ => (2 * b.at_ - a.at_ - signed 16 (rd s (F.cnvPorttimeStampofs p))).toNat
  | _ => s.now + w % 2 ^ 32

/-- The etu at which the head of a gate list becomes due under the velocity margin (R409); none while the source stands. -/
def headTime (s : State) (e : GateE) : Option Nat :=
  let b := s.bs (17 * 16 + e.src)
  let v := (signed 64 b.v).natAbs
  if v = 0 then none
  else
    let dp := (along e.fwd (phDiff e.rel b.pb)).toNat
    some (s.now + dp * 64 * 1600000000 / (v * (64 + rd s F.pwrSelcfgVelm)))

/-- The earlier of two times, of which either may be missing. -/
def sooner : Option Nat → Option Nat → Option Nat
  | some a, some b => some (min a b)
  | some a, none => some a
  | none, b => b

/-- The next known event of a domain. -/
def eventTime (s : State) (d w : Nat) : Option Nat :=
  ((gateHeads s d).map (headTime s) ++ (feeding s d).map fun p => some (nextOstb s p w)).foldl sooner none

/-- What an event time was computed from: state and velocity of each governing source, the gate heads, and the timing of
the ports. -/
def eventSig (s : State) (d : Nat) : List (List Int) :=
  [(governing s d).flatMap fun n => [Int.ofNat n, Int.ofNat ((s.bs (17 * 16 + n)).status % 8)],
   (governing s d).map fun n => signed 64 (s.bs (17 * 16 + n)).v,
   (gateHeads s d).flatMap fun e => [Int.ofNat e.src, Int.ofNat e.rel, dirOf (!e.fwd)],
   (feeding s d).flatMap fun p => [Int.ofNat p, Int.ofNat (rd s (F.cnvPortcfgBitdiv p)), Int.ofNat (rd s (F.cnvPortcfgFlen p))]]

/-- A velocity differs by more than 1/64 in size from the one last used (R410). -/
def velMoved (old new : Int) : Bool := decide (old.natAbs < 64 * ((new.natAbs : Int) - old.natAbs).natAbs)

/-- The event time must be computed again. -/
def eventMoved (old new : List (List Int)) : Bool :=
  old.getD 0 [] != new.getD 0 [] || old.getD 2 [] != new.getD 2 [] || old.getD 3 [] != new.getD 3 []
    || ((old.getD 1 []).zip (new.getD 1 [])).any fun v => velMoved v.1 v.2

/-- The event time of a domain computed and kept. -/
def noteEvent (d : Nat) (s : State) : State :=
  match (if feeding s d = [] then (0, s) else s.takeFree) with
  | (w, s1) => { s1 with pwrE := mset none s1.pwrE d (eventTime s d w.toNat), pwrSig := mset [] s1.pwrSig d (eventSig s d) }

/-- The request for the known event of a sleeping domain is due: E − wake − GUARD has passed. -/
def wakeDue (s : State) (d : Nat) : Option Nat :=
  match mget none s.pwrE d with
  | some e => if e ≤ s.now + wakeTime d (sleepState s d) + usEtu (rd s F.pwrSelcfgGuard) then some e else none
  | none => none

/-- A sleeping domain enters the request for its event once it is due. -/
def wakeRequestEff (d : Nat) (s : State) : State :=
  if 20 ≤ d || sleepState s d == 0 then s
  else match wakeDue s d with
    | some e => requestWake d e s
    | none => s

/-- The power manager looks at each sleeping domain again; a request whose time has passed enters at once, and a waiting
one follows its event (R410, R413). -/
def recompute (s : State) : State :=
  forAll (List.range 20) (fun d s =>
    if domState s d != 0 && eventMoved (mget [] s.pwrSig d) (eventSig s d) then wakeRequestEff d (noteEvent d s) else s) s

/-! ### Entry conditions (R406, R407) -/

/-- Nothing in a PE waits or runs. -/
def peIdle (p : Pe) : Bool :=
  p.inq.isEmpty && p.pipe.isNone && !p.store.any (·.kind == .ready) && p.outq.isEmpty && p.evict.isEmpty && p.refill.isEmpty
    && p.hold.isNone && p.holdTok.isNone && p.outWait.isEmpty && p.spAns.isEmpty

/-- The PEs of a cluster. -/
def clPes (s : State) (cl : Nat) : List Pe := (List.range 17).map fun i => s.pe (cl * 17 + i)

/-- A bank of group `g` is being copied into the spare. -/
def groupCopies (s : State) (g : Nat) : Bool := rd s F.sbSpareState == 1 && rd s F.sbSpareBank / 8 == g

/-- The banks of a group. -/
def groupBanks (g : Nat) : List Nat := (List.range 8).map (8 * g + ·)

/-- The conditions of DOZE and NAP. -/
def dozeOk (s : State) (d : Nat) : Bool :=
  if d < 16 then (clPes s d).all peIdle && (s.cl d).toFree.isEmpty && !peRuns s d && !relocking s d
  else !groupCopies s (d - 16)

/-- The conditions of DUSK. -/
def duskOk (s : State) (d : Nat) : Bool :=
  dozeOk s d &&
    (if d < 16 then
      (clPes s d).all (fun p => p.throttle.isEmpty && p.loopWait.isEmpty)
        && (List.range 16).all fun l => (mget [] (s.cl d).heldChain l).isEmpty
    else (groupBanks (d - 16)).all fun b => !winInBank s b && !ringInBank s b)

/-- Every resident entry belongs to a context that is RETURNING. -/
def residentsReturn (s : State) (cl : Nat) : Bool :=
  (clPes s cl).all fun p => p.store.all fun e => (s.ctx e.ctx).state == .returning

/-- The conditions of MIDNIGHT. -/
def midnightOk (s : State) (d : Nat) : Bool :=
  duskOk s d &&
    (if d < 16 then (s.cl d).gate.isEmpty && (!rdB s (F.pwrDepthMnpol d) || residentsReturn s d)
    else (groupBanks (d - 16)).all fun b => rd s (F.sbOwnerOwner b) == 0xFF)

/-- The conditions of a state by its code. -/
def entryOk (s : State) (d code : Nat) : Bool :=
  if code ≤ 2 then dozeOk s d else if code = 3 then duskOk s d else midnightOk s d

/-- The link is in L1.2: its state as LINK_POWER_CHANGE gives it, 0 down, 1 L0, 2 L0p, 3 L1, 4 L1.2. -/
def linkL12 (s : State) : Bool := s.linkState == 4

/-- The level of PERST_N: entry 2 of the pins, beside PGOOD (0) and RESET_N (1). -/
def perstHigh (s : State) : Bool := mget 0 s.pins 2 == 1

/-- The conditions under which domains 20 to 23 go off (R405). -/
def auxOff (s : State) (d : Nat) : Bool :=
  if d = 20 then
    (rd s F.pwrAuxcfgOffen).testBit 0 && rd s F.cnvPllcfgPllmul == 0 && (List.range 32).all fun n => !portOn s n
  else if d = 21 then (rd s F.pwrAuxcfgOffen).testBit 1 && rd s F.logStateState == 0
  else if d = 22 then (rd s F.pwrAuxcfgOffen).testBit 2 && (List.range 4).all fun p => rd s (F.spnPortcfgEn p) == 0
  else linkL12 s || !perstHigh s

/-! ### Selection (R409) -/

/-- The deepest state that software allows. -/
def depthOf (s : State) (d : Nat) : Nat := if d < 16 then rd s (F.pwrDepthDepth d) else rd s (F.pwrBgdepthDepth (d - 16))

/-- A governing source coasts or stands still: the domain is limited to DOZE. -/
def govLimited (s : State) (d : Nat) : Bool :=
  (governing s d).any fun n => (s.bs (17 * 16 + n)).status % 8 == 3 || (s.bs (17 * 16 + n)).status % 8 == 4

/-- The state that the power manager selects. -/
def selectState (s : State) (d : Nat) : Nat :=
  if !dozeOk s d then 0
  else
    let lim := if govLimited s d then min (depthOf s d) 1 else depthOf s d
    let fits (c : Nat) : Bool :=
      (match mget none s.pwrE d with
        | some e => wakeTime d c + usEtu (rd s F.pwrSelcfgGuard) ≤ e - s.now
        | none => true) && entryOk s d c
    (([4, 3, 2, 1].filter (· ≤ lim)).find? fits).getD 0

/-! ### Entering a state (R239, R406, R407) -/

/-- The fence of a domain's station. -/
def setFence (d v : Nat) (s : State) : State := put s (F.rngParkFence (stationOfDom d)) v

/-- The state of a domain replaced. -/
def enterState (d code : Nat) (s : State) : State :=
  let s1 := put s (F.pwrDomstatState d) code
  if d < 16 then clockBit (9 + d) (code ≤ 1) s1
  else if d = 20 then (if code = 0 then s1 else clockBit 6 false s1)
  else if d = 22 then clockBit 8 (code == 0) s1
  else s1

/-- The residents of a PE evicted, oldest first, while a level takes them; the flag tells whether all have left. -/
def spillPe (k : Nat) : Nat → State → State × Bool
  | 0, s => (s, true)
  | n + 1, s =>
    match oldest (s.pe k).store with
    | none => (s, true)
    | some e =>
      match spillRefusal s (k / 17) e.ctx with
      | some _ => (s, false)
      | none => spillPe k n (evictEntry k e s)

/-- The residents of a cluster evicted before MIDNIGHT; where a record finds no level the rest stays. -/
def spillAll (cl : Nat) (s : State) : State × Bool :=
  (List.range 17).foldl (fun (x : State × Bool) i =>
    if x.2 then spillPe (cl * 17 + i) ((x.1.pe (cl * 17 + i)).store.length) x.1 else x) (s, true)

/-- The residents of RETURNING contexts discarded, counted as OPER by their census (R143). -/
def discardAll (cl : Nat) (s : State) : State :=
  forAll (List.range 17) (fun i s =>
    let k := cl * 17 + i
    forAll (s.pe k).store (fun e s =>
      count k e.ctx (-1) 0 (countCensus e.ctx (fun c => { c with oper := c.oper + 1 }) s))
      (s.updPe k fun p => { p with store := [] })) s

/-- A domain that has been idle for IDLEWIN cycles enters the state selected, or closing is requested for it: at once, or after the
spill before MIDNIGHT, whose packets the fence must not hold (R407). -/
def idleWindowEff (d : Nat) (s : State) : State :=
  if 24 ≤ d || domState s d != 0 || domPhase s d != .steady then s
  else if d = 23 then (if auxOff s d then enterState d 4 s else s)
  else if 20 ≤ d then (if auxOff s d then setDomPhase d (.fenced 4) (setFence d 1 s) else s)
  else
    let s1 := noteEvent d s
    let code := selectState s1 d
    let s2 := put s1 (F.pwrDomstatNext d) code
    if code = 0 then s2
    else if code ≤ 2 then enterState d code s2
    else if code = 3 ∨ 16 ≤ d ∨ rdB s2 (F.pwrDepthMnpol d) then setDomPhase d (.fenced code) (setFence d 1 s2)
    else match spillAll d s2 with
        | (s4, all) => setDomPhase d (.fenced (if all then 4 else 3)) s4

/-- Requests of a domain's agents that have not been answered: those of its PEs, of its spill agent and of its station's
other agents (R239). -/
def openReqs (s : State) (d : Nat) : Nat :=
  (s.stn (stationOfDom d)).pend.length
    + (if d < 16 then ((clPes s d).map fun p => p.reqs.length + p.evict.length + p.spAns.length).sum else 0)
    + (if d = 22 then s.spanTxns.length else 0)

/-- The conditions of the state that a domain is to enter still hold, and none of its packets waits behind the fence. -/
def stillIdle (s : State) (d target : Nat) : Bool :=
  (if 20 ≤ d then auxOff s d else entryOk s d target)
    && !s.net.any fun p => p.epoch == waiting && p.src == stationOfDom d

/-- Closing begins in a cycle in which the count is zero; a domain whose conditions have ended lowers its fence instead. -/
def closeBeginEff (d : Nat) (s : State) : State :=
  match domPhase s d with
  | .fenced tgt =>
    if openReqs s d ≠ 0 then s
    else if stillIdle s d tgt then setDomPhase d (.closing tgt) (put (setFence d 1 s) (F.rngParkClosed (stationOfDom d)) 1)
    else reinject (setDomPhase d .steady (setFence d 0 s))
  | _ => s

/-- Something is parked at a station. -/
def parkedAt (s : State) (st : Nat) : Bool :=
  !(s.stn st).parkTok.isEmpty || !(s.stn st).parkReq.isEmpty || !(s.stn st).parkMgt.isEmpty

/-- What a cluster loses in MIDNIGHT: matching stores, filters and loop window caches. -/
def loseCluster (cl : Nat) (s : State) : State :=
  put (forAll (List.range 17) (fun i s =>
    s.updPe (cl * 17 + i) fun p => { p with store := [], filter := [], lwc := [] }) s) (F.clStallstatState cl) 0

/-- The bytes, presence states and marks of a bank cleared. -/
def clearBank (pb : Nat) (s : State) : State :=
  let a := scrBase + pb * 2 ^ 20
  let out (x : Nat) : Bool := x < a || a + 2 ^ 20 ≤ x
  { s with mem := s.mem.filter fun e => out e.1, presence := s.presence.filter fun e => out (8 * e.1),
           bad := s.bad.filter fun e => out (8 * e.1) }

/-- Closing completes: the domain is in its state, and what is parked asks for a wake. -/
def closeDoneEff (d : Nat) (s : State) : State :=
  match domPhase s d with
  | .closing t =>
    let s1 := setDomPhase d .steady (enterState d t s)
    let s2 := if t = 4 ∧ d < 16 then loseCluster d (if rdB s1 (F.pwrDepthMnpol d) then discardAll d s1 else s1)
      else if t = 4 ∧ d < 20 then
        put (forAll (groupBanks (d - 16)) (fun b s => clearBank (physBank s b) s) s1) F.sbInitDone
          ((groupBanks (d - 16)).foldl (fun m b => m - (m &&& 2 ^ b)) (rd s1 F.sbInitDone))
      else s1
    if parkedAt s2 (stationOfDom d) then wakeNow d s2 else s2
  | _ => s

/-- What a domain has as it reaches RUN: caches empty after DUSK and MIDNIGHT, banks cleared, the committed operating point
in force. -/
def wakeDoneEff (d : Nat) (s : State) : State :=
  if domPhase s d != .waking then s
  else
    let was := domState s d
    let s1 := enterState d 0 (setDomPhase d .steady s)
    if d < 16 then
      let s2 := if 3 ≤ was then
          forAll (List.range 17) (fun i s => s.updPe (d * 17 + i) fun p => { p with lwc := [] }) s1
        else s1
      let s3 := oppointDone d s2
      if was = 4 then setDomPhase d .refilling s3 else s3
    else if d < 20 ∧ was = 4 then putOr s1 F.sbInitDone ((groupBanks (d - 16)).foldl (fun m b => m + 2 ^ b) 0)
    else s1

/-- The filter that the spill directory gives a logical PE. -/
def reloaded (s : State) (cl l : Nat) : FMap Nat :=
  if rdB s (F.clSpillcfgNsen cl) then
    ((List.range 1024).map fun set => (set, min (setCount s cl l set) 255)).filter fun e => e.2 != 0
  else []

/-- The overflow filters reloaded from the spill directory (R407). -/
def filterReloadEff (cl : Nat) (s : State) : State :=
  if domPhase s cl != .refilling || 16 ≤ cl then s
  else
    setDomPhase cl .steady <| forAll (List.range 16) (fun l s =>
      s.updPe (peKey s (cl * 16 + l)) fun p => { p with filter := reloaded s cl l }) s

/-- A reopened domain: what was parked is delivered in order before later arrivals. -/
def reopenEff (d : Nat) (s : State) : State :=
  let st := stationOfDom d
  if domState s d != 0 || !rdB s (F.rngParkClosed st) || 23 ≤ d || (domPhase s d != .steady && domPhase s d != .refilling) then s
  else
    let x := s.stn st
    let ps := (x.parkTok ++ x.parkReq ++ x.parkMgt).map fun p => { p with epoch := unparked }
    let s1 := s.setStn st { x with parkTok := [], parkReq := [], parkMgt := [] }
    reinject (setFence d 0 (put { s1 with net := ps ++ s1.net } (F.rngParkClosed st) 0))

/-! ### The wake ledger (R411 to R413) -/

/-- A sum of fractions. -/
def addFrac (a b : Nat × Nat) : Nat × Nat := (a.1 * b.2 + b.1 * a.2, a.2 * b.2)

/-- The admitted wakes that still ramp, and those whose charge lies in the twilight window. -/
def ramping (s : State) : List Admitted := s.admitted.filter fun a => 5 * (s.now - a.at_) < 8 * a.ramp

def inWindow (s : State) : List Admitted := s.admitted.filter fun a => s.now - a.at_ < usEtu (rd s F.pwrQbudgetTwin)

/-- The slew in A/µs times `diUnit` / 100, as a fraction. -/
def slewOf (s : State) : Nat × Nat := (ramping s).foldl (fun f a => addFrac f (a.di, a.ramp)) (0, 1)

/-- The charge in the window, in 0.1 µC. -/
def qwin (s : State) : Nat := ((inWindow s).map (·.q)).sum

/-- A request fits the budgets, or stands alone. -/
def fitsBudget (s : State) (r : WakeReq) : Bool :=
  match addFrac (slewOf s) (r.di, r.ramp) with
  | (n, d) => (n * 100 ≤ rd s F.pwrSlewbudgetApus * diUnit * d && qwin s + r.q ≤ rd s F.pwrQbudgetQ)
      || ((slewOf s).1 == 0 && qwin s == 0)

/-- A wake admitted too late raises LATEWAKE. -/
def lateWake (r : WakeReq) (s : State) : State :=
  if !r.dvfs && r.at_ < s.now + wakeTime r.dom (domState s r.dom) then event 1 0 r.dom (putSat s F.pwrLedgerLate 1) else s

/-- A request admitted: the wake, or the rise of the voltage, starts. -/
def admitReq (r : WakeReq) (s : State) : State :=
  let s1 := { s with ledger := s.ledger.filter (· != r),
                     admitted := s.admitted ++ [⟨r.dom, s.now, r.di, r.ramp, r.q, r.dvfs⟩] }
  if r.dvfs then setOpPhase r.dom .volt s1
  else setDomPhase r.dom .waking (lateWake r s1)

/-- The domain closes: its wake follows once that is complete (R240). -/
def closing (s : State) (d : Nat) : Bool := match domPhase s d with | .closing _ => true | _ => false

/-- Requests admitted in order until one does not fit; those left behind in the cycle of their entry are counted. -/
def admitAll : List WakeReq → State → State
  | [], s => s
  | r :: rs, s =>
    if closing s r.dom && !r.dvfs then admitAll rs s
    else if fitsBudget s r then admitAll rs (admitReq r s)
    else
      let new := s.ledger.filter (!·.counted)
      { putSat s F.pwrLedgerDeferred new.length with ledger := s.ledger.map fun q => { q with counted := true } }

/-- The order of requests: event time, then domain number. -/
def ledgerOrder (l : List WakeReq) : List WakeReq :=
  l.mergeSort fun a b => decide (a.at_ < b.at_) || (a.at_ == b.at_ && decide (a.dom ≤ b.dom))

def ledgerEff (s : State) : State :=
  if s.deviceHalted || s.activeCauses.contains 4 then s
  else
    let s1 := { s with admitted := s.admitted.filter fun a => (ramping s).contains a || (inWindow s).contains a }
    admitAll (ledgerOrder s1.ledger) s1

/-- A write of a depth limit; a domain that sleeps more deeply asks to wake (R410). -/
def depthWriteEff (n val : Nat) (s : State) : State :=
  if 20 ≤ n then s
  else
    match writePlain s 1 (0x100 + 4 * n) val with
    | (s1, bad) =>
      let s2 := if bad then cfgErr 1 s1 else s1
      if depthOf s2 n < sleepState s2 n then wakeNow n s2 else s2

/-! ### Operating points (R415) -/

/-- The voltage has reached its value: the relock follows, or the change is complete. -/
def voltageEff (cl : Nat) (s : State) : State :=
  match mget OpPhase.none s.opPhase cl with
  | .volt =>
    if rd s (F.clClkstatFreq cl) = rd s (F.clClkcfgFreq cl) then oppointDone cl s
    else setOpPhase cl .relock (put s (F.clClkstatVolt cl) (rd s (F.clClkcfgVolt cl)))
  | .lowerVolt => oppointDone cl s
  | _ => s

/-- The PLL has relocked: the cluster runs at its clock. -/
def relockEff (cl : Nat) (s : State) : State :=
  match mget OpPhase.none s.opPhase cl with
  | .relock => oppointDone cl s
  | .lower =>
    if rd s (F.clClkstatVolt cl) = rd s (F.clClkcfgVolt cl) then oppointDone cl s
    else setOpPhase cl .lowerVolt (put s (F.clClkstatFreq cl) (rd s (F.clClkcfgFreq cl)))
  | _ => s

/-! ### The counter snapshot (R417) -/

/-- The power domain of a unit of the snapshot. -/
def unitDom (u : Nat) : Option Nat := if u < 23 then some u else none

/-- A unit is latched: asleep, and missed while it wakes or closes. -/
def latchUnit (u : Nat) (s : State) : State :=
  let asleep := match unitDom u with | some d => domState s d != 0 | none => false
  let missed := match unitDom u with
    | some d => domPhase s d == .waking || (match domPhase s d with | .closing _ => true | _ => false)
    | none => false
  let s1 := put (put s (F.statUnitAsleep u) (bit (asleep || missed))) (F.statUnitMissed u) (bit missed)
  let s2 := put s1 (F.statUnitSeq u) (rd s F.statSeqSeq % 2 ^ 16)
  if missed then event 7 0 0 s2 else s2

/-- Every unit latches its counters into the half that is not read. -/
def latch (s : State) : State :=
  forAll (List.range 28) latchUnit
    { s with snapStep := 2, latched := s.ctrs, stations := s.stations.map fun e => (e.1, { e.2 with latched := e.2.stats }) }

/-- A write of 1 to STAT_SNAP.SNAP. -/
def statSnapEff (s : State) : State :=
  if rdB s F.statStatusBusy then cfgErr 7 s
  else
    let s1 := put (put s F.statStatusBusy 1) F.statSeqSeq (rd s F.statSeqSeq + 1)
    let s2 := put (put s1 F.statPhloPhase (phase0 s % 2 ^ 32)) F.statPhhiPhase (phase0 s / 2 ^ 32)
    put (put { s2 with snapStep := 1, snapAt := s.now } F.statTickloTick (tick s % 2 ^ 32)) F.statTickhiTick (tick s / 2 ^ 32)

/-- The strobe reaches the units 30 ns after its launch. -/
def strobe (s : State) : State := if s.snapStep == 1 && 48 ≤ s.now - s.snapAt then latch s else s

/-- The halves swap and BUSY clears. -/
def snapSwapEff (s : State) : State :=
  if s.snapStep = 0 then s
  else
    let s1 := if s.snapStep = 1 then latch s else s
    let s2 := put (put s1 F.statStatusHalf (1 - rd s1 F.statStatusHalf)) F.statStatusBusy 0
    { s2 with snapStep := 0, snapshot := s2.latched, latched := s2.snapshot,
              stations := s2.stations.map fun e => (e.1, { e.2 with shadow := e.2.latched, latched := e.2.shadow }) }

/-! ### The tick of the engine -/

/-- A tick of 5 ns: time passes from the first step of Dawn, the phase engine works from the third (R403, R418). -/
def tickEff (bad corr : List Nat) (badGate : List (Nat × Nat)) (s : State) : State :=
  if s.up 3 then recompute (strobe (changeoverTick (phaseTickEff bad corr badGate s)))
  else if s.dawn = .unpowered then s
  else { s with now := s.now + 8 }

/-! ### The rows -/

/-- PHASE_TICK (R154). -/
def execPhaseTick (bad corr : List Nat) (badGate : List (Nat × Nat)) (s : State) : Host.Outcome State Fault Refusal :=
  act 0 s (tickEff bad corr badGate)

/-- WAKE_REQUEST (R409). -/
def execWakeRequest (d : Nat) (s : State) : Host.Outcome State Fault Refusal := act 3 s (wakeRequestEff d)

/-- LEDGER_ADMIT (R411). -/
def execLedgerAdmit (s : State) : Host.Outcome State Fault Refusal := act 3 s ledgerEff

/-- DOMAIN_WAKE_DONE (R405). -/
def execDomainWakeDone (d : Nat) (s : State) : Host.Outcome State Fault Refusal := act 3 s (wakeDoneEff d)

/-- FILTER_RELOAD_DONE (R407). -/
def execFilterReloadDone (cl : Nat) (s : State) : Host.Outcome State Fault Refusal := act 5 s (filterReloadEff cl)

/-- IDLE_WINDOW (R406). -/
def execIdleWindow (d : Nat) (s : State) : Host.Outcome State Fault Refusal := act 5 s (idleWindowEff d)

/-- DOMAIN_CLOSE_BEGIN (R239). -/
def execDomainCloseBegin (d : Nat) (s : State) : Host.Outcome State Fault Refusal := act 5 s (closeBeginEff d)

/-- DOMAIN_CLOSE_DONE (R239). -/
def execDomainCloseDone (d : Nat) (s : State) : Host.Outcome State Fault Refusal := act 5 s (closeDoneEff d)

/-- DOMAIN_REOPEN (R239). -/
def execDomainReopen (d : Nat) (s : State) : Host.Outcome State Fault Refusal := act 5 s (reopenEff d)

/-- PWR_DEPTH_WRITE (R410). -/
def execPwrDepthWrite (_init n val : Nat) (s : State) : Host.Outcome State Fault Refusal := act 3 s (depthWriteEff n val)

/-- VOLTAGE_REACHED (R415). -/
def execVoltageReached (cl : Nat) (s : State) : Host.Outcome State Fault Refusal := act 5 s (voltageEff cl)

/-- OPPOINT_RELOCK_DONE (R415). -/
def execOppointRelockDone (cl : Nat) (s : State) : Host.Outcome State Fault Refusal := act 5 s (relockEff cl)

/-- STAT_SNAP (R417). -/
def execStatSnap (s : State) : Host.Outcome State Fault Refusal := act 3 s statSnapEff

/-- SNAPSHOT_SWAP (R417). -/
def execSnapshotSwap (s : State) : Host.Outcome State Fault Refusal := act 3 s snapSwapEff

end Sys2Proof.Machine
end

