-- ==== Sys2Proof/Machine/Sup.lean ====
section
/-! DEFINITION. The supervisor instructions, interrupts, watchdogs and core control (R283 to R310). -/

namespace Sys2Proof.Machine

open Sys2Proof

/-! ### Integer instructions (R309) -/

/-- A truth value in a register. -/
def flagW (b : Bool) : Word := if b then 1 else 0

/-- The number of leading zero bits. -/
def clzNat (n : Nat) : Nat := 64 - ((List.range 65).find? fun k => n < 2 ^ k).getD 64

/-- The number of one bits. -/
def popNat (n : Nat) : Nat := ((List.range 64).filter n.testBit).length

/-- An integer instruction: `d` is what the destination holds, which insertion keeps outside the field. Shifts take the
low six bits of their count (log entry 21). -/
def aluOf (op : AluOp) (d a b : Word) : Word :=
  let k := b.toNat % 64
  match op with
  | .add => a + b
  | .sub => a - b
  | .opAnd => a &&& b
  | .opOr => a ||| b
  | .opXor => a ^^^ b
  | .shl => a <<< k
  | .shr => a >>> k
  | .sar => a.sshiftRight k
  | .cmpEq => flagW (a == b)
  | .cmpNe => flagW (a != b)
  | .cmpLt => flagW (a.toInt < b.toInt)
  | .cmpLtu => flagW (a.toNat < b.toNat)
  | .cmpLe => flagW (a.toInt ≤ b.toInt)
  | .cmpLeu => flagW (a.toNat ≤ b.toNat)
  | .opMin => if a.toInt ≤ b.toInt then a else b
  | .opMax => if a.toInt ≤ b.toInt then b else a
  | .minu => if a.toNat ≤ b.toNat then a else b
  | .maxu => if a.toNat ≤ b.toNat then b else a
  | .clz => BitVec.ofNat 64 (clzNat a.toNat)
  | .popc => BitVec.ofNat 64 (popNat a.toNat)
  | .extract lo w => BitVec.ofNat 64 (bits a.toNat lo w)
  | .extractS lo w => BitVec.ofInt 64 (signed w (bits a.toNat lo w))
  | .insert lo w => BitVec.ofNat 64 (setBits d.toNat lo w a.toNat)

/-- A register written and the instruction complete. -/
def writeReg_ (t rd : Nat) (v : Word) (s : State) : SupRes := .done (s.updThr t fun th => gWrite th rd v)

def aluEff (x : Sup) (op : AluOp) (rd ra rb : Nat) (imm : Option Nat) : State → State :=
  supInsn x false false fun s =>
    let th := s.thr x.t
    let b := match imm with | some n => BitVec.ofNat 64 n | none => gRead th rb
    writeReg_ x.t rd (aluOf op (gRead th rd) (gRead th ra) b) s

/-- The products of R309: low half, high half of the signed product, high half of the unsigned one. -/
def mulOf (op : MulOp) (a b : Word) : Word :=
  match op with
  | .mul => a * b
  | .mulh => BitVec.ofInt 64 (a.toInt * b.toInt / 2 ^ 64)
  | .mulhu => BitVec.ofNat 64 (a.toNat * b.toNat / 2 ^ 64)

/-- The quotients and remainders of R309: by zero all ones and the dividend, and the most negative value by −1 itself
and 0. -/
def divOf (op : DivOp) (a b : Word) : Word :=
  match op with
  | .div => if b = 0 then BitVec.allOnes 64 else a.sdiv b
  | .divu => if b = 0 then BitVec.allOnes 64 else a / b
  | .rem => if b = 0 then a else a.srem b
  | .remu => if b = 0 then a else a % b

def mulEff (x : Sup) (op : MulOp) (rd ra rb : Nat) : State → State :=
  supInsn x false false fun s => writeReg_ x.t rd (mulOf op (gRead (s.thr x.t) ra) (gRead (s.thr x.t) rb)) s

def divEff (x : Sup) (op : DivOp) (rd ra rb : Nat) : State → State :=
  supInsn x false false fun s => writeReg_ x.t rd (divOf op (gRead (s.thr x.t) ra) (gRead (s.thr x.t) rb)) s

/-! ### Loads, stores and atomics (R284, R285, R291, R309) -/

/-- An effective address. -/
def effAddr (th : Thread) (ra off : Nat) : Nat := ((gRead th ra).toNat + off) % 2 ^ 64

/-- A request of a thread leaves the complex and the thread waits for its answer (R283). -/
def ask (t cmd a port st : Nat) (us : List Nat) (k : Asker) (s : State) : State :=
  request 24 st port cmd (0x50 + t / 2) a us k (s.updThr t fun th => { th with loading := true })

/-- What the memory word of a load reads as (R310). -/
def loadMem (t p a size rd : Nat) (sx : Bool) (e : Ecc) (s : State) : SupRes :=
  if e = .uncorrectable then .exc 0x08 a (supMemErr 4 p s)
  else writeReg_ t rd (extend size sx (memNat s.mem p size)) (if e = .corrected then supMemErr 3 p s else s)

def loadEff (x : Sup) (rd ra off size : Nat) (sx : Bool) (e : Ecc) : State → State :=
  supInsn x false false fun s =>
    let t := x.t
    let a := effAddr (s.thr t) ra off
    if a % size ≠ 0 then .exc 0x06 a s
    else if !allowed s t .read a then .exc 0x04 a s
    else
      match placeOf (t / 2) a with
      | .mem p => loadMem t p a size rd sx e s
      | .rom o => writeReg_ t rd (extend size sx (romNat o size)) s
      | .host h => match s.takeFree with
        | (w, s1) => writeReg_ t rd (extend size sx w.toNat) (emitOut (.hostRead 0 h size) s1)
      | .none => .exc 0x07 a s
      | .scratch d => match addrStation d with
        | some (st, port) => .hold (ask t 0x19 (d / 16 * 16) port st [1] (.core t a rd size sx) s)
        | none => .exc 0x07 a s
      | .reg d | .store d => match addrStation d with
        | some (st, port) => .hold (ask t 0x40 d port st [size] (.core t a rd size sx) s)
        | none => .exc 0x07 a s

/-- A data unit for `size` bytes of a value at byte `o` of the unit: the others are not enabled (log entry 6). -/
def storeUnit (v size o n : Nat) : Nat :=
  v % 2 ^ (8 * size) * 2 ^ (8 * o) + (2 ^ n - 1 - (2 ^ size - 1) * 2 ^ o) * 2 ^ 128

/-- A store leaves through the store buffer, which has room (R285). -/
def post (t cmd a port st : Nat) (us : List Nat) (addr : Nat) (s : State) : SupRes :=
  if 8 ≤ (s.thr t).stores then .hold s
  else
    .done (request 24 st port cmd (0x50 + t / 2) a us (.coreStore t addr)
      (s.updThr t fun th => { th with stores := th.stores + 1 }))

/-- A store with no place to go: its BUSERR is pending (R284, R294). -/
def strayStore (t a : Nat) (s : State) : SupRes := .done (s.updThr t fun th => { th with busErr := some (th.busErr.getD a) })

def storeEff (x : Sup) (rs ra off size : Nat) : State → State :=
  supInsn x false false fun s =>
    let t := x.t
    let th := s.thr t
    let a := effAddr th ra off
    let v := (gRead th rs).toNat
    let p := placeOf (t / 2) a
    if a % size ≠ 0 then .exc 0x06 a s
    else if !allowed s t .write a then .exc 0x05 a s
    else
      match p with
      | .mem p => .done { s with mem := memWrite s.mem p (natBytes size v) }
      | .rom _ => .exc 0x05 a s
      | .host h => .done (emitOut (.host 0 h (natBytes size v)) s)
      | .none => strayStore t a s
      | .scratch d => match addrStation d with
        | some (st, port) => post t 0x1A (d / 16 * 16) port st [storeUnit v size (d % 16) 16] a s
        | none => strayStore t a s
      | .reg d | .store d => match addrStation d with
        | some (st, port) => post t 0x41 d port st [storeUnit v size 0 8] a s
        | none => strayStore t a s

/-- STORE_BUSERR: the error answer of a store that is outstanding returns (R285, R294). -/
def storeBuserrEff (t addr : Nat) (s : State) : State :=
  match (s.stn 24).pend.find? (·.asker == .coreStore t addr) with
  | some q => coreStoreAnswer t addr stNOTARGET (s.updStn 24 fun x => { x with pend := eraseFirst q x.pend })
  | none => s

/-- An error of the words that an instruction reads at an address: none where they lie in no array with check bits; else the state
that reports it, and whether they are lost (R310). -/
def dataErr (x : Sup) (a : Nat) (s : State) : State × Bool :=
  match x.data, placeOf (x.t / 2) a with
  | .uncorrectable, .mem p => (supMemErr 4 p s, true)
  | .corrected, .mem p => (supMemErr 3 p s, false)
  | _, _ => (s, false)

/-- SWAP, CAS and FADD on a word of supervisor or core-local memory: rd, the memory word and rb. -/
def atomicOf (op : AtomOp) (d old b : Word) : Word :=
  match op with
  | .swap => b
  | .cas => if old = d then b else old
  | .fadd => old + b

def atomicEff (x : Sup) (op : AtomOp) (rd ra rb : Nat) : State → State :=
  supInsn x false false fun s =>
    let t := x.t
    let th := s.thr t
    let a := (gRead th ra).toNat
    if a % 8 ≠ 0 then .exc 0x06 a s
    else if !allowed s t .read a then .exc 0x04 a s
    else if !allowed s t .write a then .exc 0x05 a s
    else
      match placeOf (t / 2) a with
      | .mem p =>
        match dataErr x a s with
        | (s1, true) => .exc 0x08 a s1
        | (s1, false) =>
          let old := BitVec.ofNat 64 (memNat s1.mem p 8)
          let new := atomicOf op (gRead th rd) old (gRead th rb)
          writeReg_ t rd old { s1 with mem := memWrite s1.mem p (natBytes 8 new.toNat) }
      | .rom _ => .exc 0x05 a s
      | _ => .exc 0x07 a s

/-- The place is boot ROM, where every write is denied (R291). -/
def isRom (p : Place) : Bool := match p with | .rom _ => true | _ => false

/-- The command and the use of a presence instruction: it reads, or it writes. -/
def presCmd (op : PresOp) : Nat × Bool :=
  match op with
  | .ird => (0x14, false)
  | .iwr => (0x15, true)
  | .iclr => (0x16, true)
  | .mtk => (0x17, true)
  | .mpt => (0x18, true)

def presEff (x : Sup) (op : PresOp) (rd ra rs box : Nat) : State → State :=
  supInsn x false false fun s =>
    let t := x.t
    let th := s.thr t
    let a := (gRead th ra).toNat
    let us := if op = .iwr ∨ op = .mpt then [(gRead th rs).toNat] else []
    if a % 8 ≠ 0 then .exc 0x06 a s
    else if (op = .ird ∨ op = .mtk) ∧ !allowed s t .read a then .exc 0x04 a s
    else if (presCmd op).2 && (!allowed s t .write a || isRom (placeOf (t / 2) a)) then .exc 0x05 a s
    else if scrBase ≤ a ∧ a < scrBase + 0x2000000 then
      let b := (a - scrBase) / 2 ^ 20
      .hold (ask t (presCmd op).1 a (b % 8) (bgStation b) us (.corePres t a rd box) s)
    else .exc 0x07 a s

/-! ### Branches and loops (R301, R302) -/

/-- Whether a branch is taken. -/
def brTaken (op : BrOp) (a b : Word) : Bool :=
  match op with
  | .beq => a == b
  | .bne => a != b
  | .blt => a.toInt < b.toInt
  | .bge => b.toInt ≤ a.toInt
  | .bltu => a.toNat < b.toNat
  | .bgeu => b.toNat ≤ a.toNat
  | .j | .jr | .jal | .jalr => true

def branchEff (x : Sup) (op : BrOp) (ra rb target : Nat) : State → State :=
  supInsn x true false fun s =>
    let t := x.t
    let th := s.thr t
    let tgt := if op = .jr ∨ op = .jalr then (gRead th ra).toNat else target % 2 ^ 64
    let taken := brTaken op (gRead th ra) (gRead th rb)
    let link := op = .jal ∨ op = .jalr
    if op = .jalr ∧ ra = 30 then .exc 0x01 th.pc s
    else if taken ∧ tgt % 4 ≠ 0 then .exc 0x06 tgt s
    else .branch tgt taken (if link then s.updThr t fun th => gWrite th 30 (BitVec.ofNat 64 (th.pc + 8)) else s)

/-- LOOP and LOOPI with their count. -/
def loopWith (x : Sup) (lend : Nat) (count : State → Nat) : State → State :=
  supInsn x false true fun s =>
    let th := s.thr x.t
    let n := count s
    if th.lcount ≠ 0 ∨ lend < th.pc + 4 ∨ n = 0 then .exc 0x0D th.pc s
    else .done (s.updThr x.t fun th => { th with lstart := th.pc + 4, lend := lend, lcount := n })

def loopEff (x : Sup) (lend rc : Nat) : State → State := loopWith x lend fun s => (gRead (s.thr x.t) rc).toNat

def loopiEff (x : Sup) (lend count : Nat) : State → State := loopWith x lend fun _ => count % 2 ^ 64

/-! ### Control registers (R287 to R290) -/

/-- A control register as a thread reads it, and the highest ring that may; none for a number that is not listed. -/
def ctlRead (s : State) (t n : Nat) : Option (Nat × Nat) :=
  let th := s.thr t
  let m := s.mat (t / 2 * 32 + th.matIdx)
  let any := 3
  if n = 0x00 then some (statusWord th, any)
  else if n = 0x01 then some (t / 2 + t % 2 * 4 + ((0x50 + t / 2) * 256 + t % 2) * 2 ^ 16, any)
  else if 0x04 ≤ n ∧ n ≤ 0x07 then some (th.sp.getD (n - 4) 0, n - 4)
  else if n = 0x08 then some (th.vbase, 0)
  else if n = 0x09 then some (th.gtbase, 0)
  else if n = 0x0A then some (th.gtcount, 0)
  else if n = 0x0C then some (th.lstart, any)
  else if n = 0x0D then some (th.lend, any)
  else if n = 0x0E then some (th.lcount, any)
  else if n = 0x10 then some (th.matIdx, 0)
  else if n = 0x11 then some (m.base, 0)
  else if n = 0x12 then some (m.lim, 0)
  else if n = 0x13 then some (m.attr, 0)
  else if n = 0x18 then some (th.wdog, 0)
  else if n = 0x19 then some ((s.now - th.cycle) * 3 / 4 % 2 ^ 64, any)
  else if n = 0x1A then some (tick s, any)
  else if n = 0x1C then some (th.pend, 1)
  else none

/-- The highest ring that may write a control register; none where no ring may. -/
def ctlWriteRing (n : Nat) : Option Nat :=
  if 0x04 ≤ n ∧ n ≤ 0x07 then some (n - 4)
  else if 0x0C ≤ n ∧ n ≤ 0x0E then some 3
  else if n = 0x01 ∨ n = 0x19 ∨ n = 0x1A ∨ n = 0x1C then none
  else some 0

/-- A write of the selected MAT entry: a locked one discards it, bounds of a valid one and reserved encodings are
ILLEGAL (R290). -/
def matWrite (t n v : Nat) (s : State) : Option State :=
  let k := t / 2 * 32 + (s.thr t).matIdx
  let m := s.mat k
  let enc (lo : Nat) : Bool := bits v lo 3 < 4 || bits v lo 3 == 7
  if m.attr.testBit 15 then some s
  else if n = 0x13 then
    if enc 12 && enc 8 && enc 4 then some (s.setMat k { m with attr := v &&& 0xF775 }) else none
  else if m.attr.testBit 0 || v % 4096 != 0 then none
  else some (s.setMat k (if n = 0x11 then { m with base := v } else { m with lim := v }))

/-- A control register written by a ring that may; none where the value raises ILLEGAL (R287, R288, R290). -/
def ctlWrite (t n v : Nat) (s : State) : Option State :=
  let upd (ok : Bool) (f : Thread → Thread) : Option State := if ok then some (s.updThr t f) else none
  if n = 0x00 then upd (bits v 4 4 != 15) fun th => { th with mask := bits v 4 4, ring := v % 4 }
  else if 0x04 ≤ n ∧ n ≤ 0x07 then upd true fun th => setSp th (n - 4) v
  else if n = 0x08 then upd (v % 2048 == 0) fun th => { th with vbase := v }
  else if n = 0x09 then upd (v % 16 == 0) fun th => { th with gtbase := v }
  else if n = 0x0A then upd (v ≤ 4096) fun th => { th with gtcount := v }
  else if n = 0x0C then upd true fun th => { th with lstart := v }
  else if n = 0x0D then upd true fun th => { th with lend := v }
  else if n = 0x0E then upd true fun th => { th with lcount := v }
  else if n = 0x10 then upd (v < 32) fun th => { th with matIdx := v }
  else if n = 0x11 ∨ n = 0x12 ∨ n = 0x13 then matWrite t n v s
  else upd true fun th => { th with wdog := v, wdogSince := s.now }

def crdEff (x : Sup) (rd n : Nat) : State → State :=
  supInsn x false false fun s =>
    let th := s.thr x.t
    match ctlRead s x.t n with
    | none => .exc 0x01 th.pc s
    | some (v, r) => if r < th.ring then .exc 0x02 th.pc s else writeReg_ x.t rd (BitVec.ofNat 64 v) s

def cwrEff (x : Sup) (n rs : Nat) : State → State :=
  supInsn x false (n == 0) fun s =>
    let th := s.thr x.t
    match ctlRead s x.t n, ctlWriteRing n with
    | none, _ => .exc 0x01 th.pc s
    | _, none => .exc 0x02 th.pc s
    | _, some r =>
      if r < th.ring then .exc 0x02 th.pc s
      else match ctlWrite x.t n (gRead th rs).toNat s with
        | some s1 => .done s1
        | none => .exc 0x01 th.pc s

/-! ### Control and ring transfer (R289, R292, R293, R300) -/

def fenceEff (x : Sup) : State → State :=
  supInsn x false false fun s => if (s.thr x.t).stores = 0 then .done s else .hold s

def waitEff (x : Sup) : State → State :=
  supInsn x false false fun s => .done (s.updThr x.t fun th => { th with waiting := !eventPending th })

def trapEff (x : Sup) (imm : Nat) : State → State := supInsn x false true fun s => .exc 0x0B (imm % 2 ^ 16) s

/-- BREAK: with the debugger attached the instruction completes and the core halts (R445). -/
def breakEff (x : Sup) : State → State :=
  supInsn x false false fun s => if rdB s F.dbgCtlAttach then .stop s else .exc 0x0C (s.thr x.t).pc s

/-- A gate table entry (R292): target, ring, highest calling ring, and whether its fields are in order. -/
def gateEntry (s : State) (t n : Nat) : Nat × Nat × Nat × Bool :=
  let a := (s.thr t).gtbase + 16 * n
  match coreNat s (t / 2) a 8, coreNat s (t / 2) (a + 8) 8 with
  | some g, some w => (g, w % 4, bits w 2 2, w.testBit 4 && w / 2 ^ 5 == 0 && g % 4 == 0)
  | _, _ => (0, 0, 0, false)

/-- The first case of R293 that refuses GATE `n`. -/
def gateReason (s : State) (t n : Nat) : Nat :=
  let th := s.thr t
  match gateEntry s t n with
  | (_, tr, cm, ok) =>
    if th.gtcount ≤ n then 1
    else if !ok then 2
    else if cm < th.ring ∨ th.ring < tr then 3
    else if !stackOk s (t / 2) tr (th.sp.getD tr 0) 48 then 4
    else 0

/-- An uncorrectable error while GATE writes its frame: fault halt, with a cause word that the manual leaves open (R305). -/
def gateHalt (t : Nat) (s : State) : SupRes :=
  match s.takeFree with
  | (w, s1) => .hold (faultHalt t 4 (w.toNat % 2 ^ 28) s1)

def gateEff (x : Sup) (imm : Nat) : State → State :=
  supInsn x false true fun s =>
    let t := x.t
    let n := imm % 2 ^ 12
    let th := s.thr t
    let a := th.gtbase + 16 * n
    match (if th.gtcount ≤ n then (s, false) else dataErr x a s) with
    | (s, true) => .exc 0x08 a s
    | (s, false) =>
      let r := gateReason s t n
      if r ≠ 0 then .exc 0x09 (n + r * 2 ^ 32) s
      else
        match gateEntry s t n with
        | (g, tr, _, _) =>
          let sp := th.sp.getD tr 0 - 48
          let ws := [th.pc + 4, statusWord th, th.sp.getD th.ring 0, th.lcount, th.lstart, th.lend]
          if x.frameBad then gateHalt t s
          else .jump g ((writeFrame (t / 2) sp ws s).updThr t fun th => { setSp th tr sp with ring := tr, lcount := 0 })

/-- What reading a frame at the current stack pointer comes to: an exception, its words, or accesses that leave the complex. -/
inductive FrameRead where
  | exc (code addr : Nat)
  | words (ws : List Nat)
  | bus
  deriving DecidableEq, Repr

/-- A word of a frame that the core reads without leaving the complex. -/
def frameWord (s : State) (c a : Nat) : Option Nat :=
  match placeOf c a with
  | .mem p => some (memNat s.mem p 8)
  | .rom o => some (romNat o 8)
  | _ => none

/-- The `n` words of a frame at the current stack pointer, read as loads read them. -/
def readFrame (s : State) (t n : Nat) : FrameRead :=
  let th := s.thr t
  let sp := th.sp.getD th.ring 0
  let as := (List.range n).map fun i => sp + 8 * i
  if sp % 8 ≠ 0 then .exc 0x06 sp
  else match as.find? fun a => !allowed s t .read a with
    | some a => .exc 0x04 a
    | none =>
      let ws := as.filterMap (frameWord s (t / 2))
      if ws.length = n then .words ws else .bus

/-- GRET with the words of its frame. -/
def gretWith (t : Nat) (ws : List Nat) (s : State) : SupRes :=
  let ring := ws.getD 1 0 % 4
  if ring < (s.thr t).ring then
    match s.takeFree with
    | (w, s1) => .exc 0x09 (w.toNat % 2 ^ 12 + 6 * 2 ^ 32) s1
  else
    .jump (ws.getD 0 0) (s.updThr t fun th =>
      { setSp th th.ring (th.sp.getD th.ring 0 + 48) with
        ring := ring, lcount := ws.getD 3 0, lstart := ws.getD 4 0, lend := ws.getD 5 0 })

/-- RETE with the words of its frame. -/
def reteWith (t : Nat) (ws : List Nat) (s : State) : SupRes :=
  let th := s.thr t
  let est := ws.getD 1 0
  let resc := (ws.getD 2 0).testBit 14
  if est % 4 < th.ring then .exc 0x02 th.pc s
  else if bits est 4 4 = 15 then .exc 0x01 th.pc s
  else
    .jump (ws.getD 0 0) (s.updThr t fun th =>
      { setSp th th.ring (if resc then ws.getD 8 0 else th.sp.getD th.ring 0 + 80) with
        ring := est % 4, mask := bits est 4 4, inRescue := th.inRescue && !resc,
        lcount := ws.getD 5 0, lstart := ws.getD 6 0, lend := ws.getD 7 0 })

/-- A frame read word by word, the thread waiting for each answer from outside the complex; host memory's bytes are left open. -/
def frameBus (t : Nat) (rete : Bool) : Nat → List Nat → State → SupRes
  | 0, got, s => if rete then reteWith t got s else gretWith t got s
  | n + 1, got, s =>
    let th := s.thr t
    let a := th.sp.getD th.ring 0 + 8 * got.length
    match placeOf (t / 2) a with
    | .mem p => frameBus t rete n (got ++ [memNat s.mem p 8]) s
    | .rom o => frameBus t rete n (got ++ [romNat o 8]) s
    | .host h =>
      match s.takeFree with
      | (w, s1) => frameBus t rete n (got ++ [w.toNat]) (emitOut (.hostRead 0 h 8) s1)
    | .scratch d =>
      match addrStation d with
      | some (st, port) => .hold (ask t 0x19 (d / 16 * 16) port st [1] (.coreFrame t rete got) s)
      | none => .exc 0x07 a s
    | .reg d | .store d =>
      match addrStation d with
      | some (st, port) => .hold (ask t 0x40 d port st [8] (.coreFrame t rete got) s)
      | none => .exc 0x07 a s
    | .none => .exc 0x07 a s

/-- The words in the frame of a return. -/
def frameLen (rete : Bool) : Nat := if rete then 10 else 6

/-- A return that reads its frame. -/
def frameReturn (x : Sup) (rete : Bool) (s : State) : SupRes :=
  let t := x.t
  let sp := (s.thr t).sp.getD (s.thr t).ring 0
  match readFrame s t (frameLen rete) with
  | .exc c a => .exc c a s
  | .words ws =>
    match dataErr x sp s with
    | (s1, true) => .exc 0x08 sp s1
    | (s1, false) => if rete then reteWith t ws s1 else gretWith t ws s1
  | .bus => frameBus t rete (frameLen rete) [] s

/-- A word of a frame is answered. -/
def coreFrameAnswer (t : Nat) (rete : Bool) (got : List Nat) (status v : Nat) (frameBad : Bool) (s : State) : State :=
  let th := s.thr t
  let a := th.sp.getD th.ring 0 + 8 * got.length
  if !awaits s t then s
  else
    settleInsn t frameBad <|
      if status = stOK then
        frameBus t rete (frameLen rete - got.length - 1) (got ++ [unitFrom t a v % 2 ^ 64]) s
      else .exc (if status = stUNCORR then 0x08 else 0x07) a s

def gretEff (x : Sup) : State → State := supInsn x false true (frameReturn x false)

def reteEff (x : Sup) : State → State :=
  supInsn x false true fun s =>
    if 2 ≤ (s.thr x.t).ring then .exc 0x02 (s.thr x.t).pc s else frameReturn x true s

/-! ### Events at a thread (R294, R296, R306, R307) -/

/-- The asynchronous events of a thread that are not at level 15: cause, level, and the state without the event. -/
def asyncEvents (s : State) (t : Nat) : List (Nat × Nat) :=
  let th := s.thr t
  (if th.busErr.isSome then [(0x07, (vectorOf s t 0x07).level)] else [])
    ++ ((List.range 43).filter th.pend.testBit).map fun n => (0x40 + n, rd s (F.supIrqrouteLevel n))

/-- The event taken next: level 15 first, WATCHDOG before PEERHALT, then the highest level, then the lowest cause. -/
def nextEvent (s : State) (t : Nat) : Option (Nat × Nat) :=
  let th := s.thr t
  if th.mask < 15 ∧ th.wdogPend = true then some (0x0F, 15)
  else if th.mask < 15 ∧ th.peerHalt ≠ 0 then some (0x10, 15)
  else
    (asyncEvents s t).foldl (fun best e =>
      if e.2 ≤ th.mask then best
      else match best with
        | none => some e
        | some b => if b.2 < e.2 then some e else best) none

/-- The event is no longer pending. -/
def takenEvent (code : Nat) (th : Thread) : Thread :=
  if code = 0x07 then { th with busErr := none }
  else if code = 0x0F then { th with wdogPend := false }
  else if code = 0x10 then { th with peerHalt := 0 }
  else { th with pend := th.pend - (th.pend &&& 2 ^ (code - 0x40)) }

/-- At an instruction boundary, never between a branch and its delay slot, at most one event is taken. -/
def interruptTakeEff (t : Nat) (frameBad : Bool) (s : State) : State :=
  let th := s.thr t
  if !threadRuns s t || th.slot.isSome || th.loading then s
  else
    match nextEvent s t with
    | none => s
    | some (code, level) =>
      let eaddr := if code = 0x07 then th.busErr.getD 0 else if code = 0x10 then th.peerHalt else 0
      enter t ⟨code, level, eaddr, th.pc, false, false, code == 0x07, 0⟩ (vectorOf s t code) frameBad
        (s.updThr t (takenEvent code))

/-- The event of an interrupt source as IRQ_DELIVER brings it: a block's line, asserted while its FLTPEND is not zero (R379), or a
request of the debug port, for which the manual names no other event (DESIGN CHOICE, log entry 85). Doorbells, MRAM, the hash
engine and the interprocessor sources reach their threads with the commands that raise them. -/
def irqLine (s : State) (n : Nat) : Bool := if n < 34 then rd s (F.fltpendPend n) != 0 else n == 38

def irqDeliverEff (n : Nat) (s : State) : State := if irqLine s n then raiseIrq n s else s

/-- WDOG of a thread expires: after WDOG × 1,024 cycles of a core that is not halted. -/
def watchdogEff (t : Nat) (s : State) : State :=
  let th := s.thr t
  let due := decide (4 * 1024 * th.wdog ≤ 3 * (s.now - th.wdogSince))
  if t < 8 && !s.deviceHalted && (coreState s (t / 2) == 1 || coreState s (t / 2) == 2) && th.wdog != 0 && due then
    let s1 := event 15 1 t (s.updThr t fun th => { th with wdogSince := s.now })
    if th.mask = 15 then faultHalt t 3 (0x0F + 15 * 2 ^ 8) s1
    else s1.updThr t (wake fun th => { th with wdogPend := true })
  else s

/-! ### SUP registers with an effect (R306, R307) -/

/-- Initiators whose writes of SUP and REP registers are accepted (R307, R400). -/
def supInit (init : Nat) : Bool := init == 0x10 || (0x50 ≤ init && init ≤ 0x53)

def supIpiEff (init mask : Nat) (s : State) : State :=
  if supInit init then forAll ((List.range 4).filter mask.testBit) (fun c => raiseIrq (39 + c)) s else s

/-- A core's threads and its attribute table at their reset values. -/
def clearCore (c : Nat) (s : State) : State :=
  forAll (List.range 32) (fun i s => s.setMat (c * 32 + i) .init)
    (forAll [c * 2, c * 2 + 1] (fun t s => s.setThr t { Thread.init with cycle := s.now }) s)

/-- The state of a core that is neither in reset nor halted. -/
def runState (s : State) (c : Nat) : Nat := if rdB s (F.supCorectlRun c) then 2 else 1

def coreResetEff (init c : Nat) (s : State) : State :=
  if supInit init && c < 4 then
    let s1 := dropAccesses c (abandonLocks (fun h => h / 256 == 0x50 + c) s)
    let s2 := movePend c (put s1 (F.supCorestatState c) 0)
    let s3 := putSat (put (clearCore c s2) (F.supCorestatHaltwhy c) 0) (F.supCorestatRestarts c) 1
    haltIfNone (put s3 (F.supCorestatState c) (runState s3 c))
  else s

def coreRunEff (init c : Nat) (run thr1 : Bool) (s : State) : State :=
  if supInit init && c < 4 then
    let s1 := put (put s (F.supCorectlRun c) (bit run)) (F.supCorectlThr1en c) (bit thr1)
    if coreState s c = 1 ∨ coreState s c = 2 then haltIfNone (put s1 (F.supCorestatState c) (runState s1 c)) else s1
  else s

/-! ### The rows -/

/-- SUP_ALU (R309). -/
def execSupAlu (x : Sup) (op : AluOp) (rd ra rb : Nat) (imm : Option Nat) (s : State) : Host.Outcome State Fault Refusal :=
  act 6 s (aluEff x op rd ra rb imm)

/-- SUP_MUL (R309). -/
def execSupMul (x : Sup) (op : MulOp) (rd ra rb : Nat) (s : State) : Host.Outcome State Fault Refusal :=
  act 6 s (mulEff x op rd ra rb)

/-- SUP_DIV (R309). -/
def execSupDiv (x : Sup) (op : DivOp) (rd ra rb : Nat) (s : State) : Host.Outcome State Fault Refusal :=
  act 6 s (divEff x op rd ra rb)

/-- SUP_LOAD (R285). -/
def execSupLoad (x : Sup) (rd ra off size : Nat) (sx : Bool) (e : Ecc) (s : State) : Host.Outcome State Fault Refusal :=
  act 6 s (loadEff x rd ra off size sx e)

/-- SUP_STORE (R285). -/
def execSupStore (x : Sup) (rs ra off size : Nat) (s : State) : Host.Outcome State Fault Refusal :=
  act 6 s (storeEff x rs ra off size)

/-- STORE_BUSERR (R294). -/
def execStoreBuserr (t addr : Nat) (s : State) : Host.Outcome State Fault Refusal := act 6 s (storeBuserrEff t addr)

/-- SUP_ATOMIC (R309). -/
def execSupAtomic (x : Sup) (op : AtomOp) (rd ra rb : Nat) (s : State) : Host.Outcome State Fault Refusal :=
  act 6 s (atomicEff x op rd ra rb)

/-- SUP_PRESENCE (R309). -/
def execSupPresence (x : Sup) (op : PresOp) (rd ra rs box : Nat) (s : State) : Host.Outcome State Fault Refusal :=
  act 6 s (presEff x op rd ra rs box)

/-- SUP_BRANCH (R301). -/
def execSupBranch (x : Sup) (op : BrOp) (ra rb target : Nat) (s : State) : Host.Outcome State Fault Refusal :=
  act 6 s (branchEff x op ra rb target)

/-- LOOP (R302). -/
def execSupLoop (x : Sup) (lend rc : Nat) (s : State) : Host.Outcome State Fault Refusal := act 6 s (loopEff x lend rc)

/-- LOOPI (R302). -/
def execLoopi (x : Sup) (lend count : Nat) (s : State) : Host.Outcome State Fault Refusal :=
  act 6 s (loopiEff x lend count)

/-- CRD (R287). -/
def execCrd (x : Sup) (rd n : Nat) (s : State) : Host.Outcome State Fault Refusal := act 6 s (crdEff x rd n)

/-- CWR (R287). -/
def execCwr (x : Sup) (n rs : Nat) (s : State) : Host.Outcome State Fault Refusal := act 6 s (cwrEff x n rs)

/-- FENCE (R285). -/
def execFence (x : Sup) (s : State) : Host.Outcome State Fault Refusal := act 6 s (fenceEff x)

/-- WAIT (R309). -/
def execWait (x : Sup) (s : State) : Host.Outcome State Fault Refusal := act 6 s (waitEff x)

/-- TRAP (R294). -/
def execTrap (x : Sup) (imm : Nat) (s : State) : Host.Outcome State Fault Refusal := act 6 s (trapEff x imm)

/-- BREAK (R294, R445). -/
def execSupBreak (x : Sup) (s : State) : Host.Outcome State Fault Refusal := act 6 s (breakEff x)

/-- GATE (R293). -/
def execGate (x : Sup) (n : Nat) (s : State) : Host.Outcome State Fault Refusal := act 6 s (gateEff x n)

/-- GRET (R293). -/
def execGret (x : Sup) (s : State) : Host.Outcome State Fault Refusal := act 6 s (gretEff x)

/-- RETE (R300). -/
def execRete (x : Sup) (s : State) : Host.Outcome State Fault Refusal := act 6 s (reteEff x)

/-- IRQ_DELIVER (R307). -/
def execIrqDeliver (src : Nat) (s : State) : Host.Outcome State Fault Refusal := act 6 s (irqDeliverEff src)

/-- INTERRUPT_TAKE (R296). -/
def execInterruptTake (t : Nat) (frameBad : Bool) (s : State) : Host.Outcome State Fault Refusal :=
  act 6 s (interruptTakeEff t frameBad)

/-- WATCHDOG_EXPIRE (R294). -/
def execWatchdogExpire (t : Nat) (s : State) : Host.Outcome State Fault Refusal := act 6 s (watchdogEff t)

/-- SUP_IPI (R307). -/
def execSupIpi (init mask : Nat) (s : State) : Host.Outcome State Fault Refusal := act 6 s (supIpiEff init mask)

/-- CORE_RESET (R306). -/
def execCoreReset (init c : Nat) (s : State) : Host.Outcome State Fault Refusal := act 6 s (coreResetEff init c)

/-- CORE_RUN_WRITE (R307). -/
def execCoreRunWrite (init c : Nat) (run thr1 : Bool) (s : State) : Host.Outcome State Fault Refusal :=
  act 6 s (coreRunEff init c run thr1)

end Sys2Proof.Machine
end

