-- ==== Sys2Proof/Machine/Dawn.lean ====
section
/-! DEFINITION. Resets, the Dawn sequence, boot and recovery, the profile, the full quiesce, and the clocks' faults (R2, R12, R31
to R35, R387, R389, R398, R402, R418 to R420, R425 to R431, R467). -/

namespace Sys2Proof.Machine

open Sys2Proof

/-! ### Resets (R419, R420) -/

/-- What every reset leaves: the fuses, the contents of the MRAM, the pins, and what the model keeps for itself. -/
def resetKeep (s : State) : State :=
  { State.reset with
    variant := s.variant, stepping := s.stepping, lifecycle := s.lifecycle, svnFloor := s.svnFloor,
    fwKeyHash := s.fwKeyHash, identityOk := s.identityOk, pins := s.pins,
    mem := s.mem.filter fun e => 0x200000000 ≤ e.1 && e.1 < 0x204000000,
    stored := s.stored, mapRecs := s.mapRecs, lifetime := s.lifetime, cfgRec := s.cfgRec,
    log := { LogSt.init with jcount := s.log.jcount, jlog := s.log.jlog, jstates := s.log.jstates },
    crsWindow := s.crsWindow, tap := s.tap, challengeNo := s.challengeNo + 1, free := s.free, out := s.out,
    pending := s.pending }

/-- A power-on reset: everything on the compute die, the tick and the TAP included. -/
def powerReset (s : State) : State := { resetKeep s with tap := State.reset.tap }

/-- A device reset: the tick, GEN_RESETCAUSE and the count of authentication failures stay (R403, R419, R443). -/
def devReset (cause : Nat) (s : State) : State :=
  let s1 := { resetKeep s with now := s.now }
  let s2 := put (put s1 F.genResetcauseCause cause) F.genResetcauseCount
    (min (rd s F.genResetcauseCount + 1) 0xFFFF)
  put (put s2 F.dbgPortstatAuthfails (rd s F.dbgPortstatAuthfails)) F.dbgPortstatLocked (rd s F.dbgPortstatLocked)

def setPin (k v : Nat) (s : State) : State := { s with pins := mset 0 s.pins k v }

/-- PGOOD and RESET_N are high and the reference runs: the always-on island leaves reset. -/
def powerOnEff (s : State) : State :=
  if s.dawn = .unpowered then { setPin 1 1 (setPin 0 1 s) with dawn := .step 1 } else s

/-- RESET_N low: a powered device is in reset until it rises. -/
def resetAssertEff (s : State) : State :=
  if s.dawn = .unpowered then setPin 1 0 s else if s.dawn = .held then s else { setPin 1 0 (devReset 1 s) with dawn := .held }

def resetReleaseEff (s : State) : State :=
  let s1 := setPin 1 1 s
  if s.dawn = .held then { s1 with dawn := .step 1 } else s1

/-- A device reset on a command: the Dawn sequence starts again at step 2. -/
def commandReset (cause : Nat) (s : State) : State := { devReset cause s with dawn := .step 1 }

/-- A write of GEN_DEVRESET; none is admitted during a device halt (R419, R423). -/
def devresetEff (init key : Nat) (s : State) : State :=
  if supInit init && key % 2 ^ 16 == 0x9400 && !s.deviceHalted then commandReset 2 s else s

/-- PGOOD falls. A write that the MRAM has begun is complete: the model writes a record in one step (R467). -/
def pgoodEff (s : State) : State := setPin 0 0 (powerReset s)

/-! ### The profile (R2, R31, R32) -/

/-- The governed fields of a profile, in force and in their shadows. -/
def governedOf (a : Bool) : List (Fld × Nat) :=
  (List.range 16).flatMap (fun c =>
    [(F.clClkcfgFreq c, if a then 80 else 64), (F.clClkcfgVolt c, if a then 60 else 40), (F.pwrDepthDepth c, 1),
     (F.clSpillcfgFaren c, 0), (F.clGatecfgMode c, 0)] ++ (if a then [(F.pwrDepthMnpol c, 0)] else []))
    ++ (List.range 4).map (fun g => (F.pwrBgdepthDepth g, 0)) ++ [(F.logCodeccfgEffort, 2)]

/-- The profile comes into force: each governed field takes its value. -/
def enterProfile (a : Bool) (s : State) : State :=
  forAll (governedOf a) (fun e s => { put s e.1 e.2 with shadow := mdel s.shadow e.1.key }) s

/-- GEN_PROFILE sampled. -/
def sampleProfile (s : State) : State :=
  let sel := rdB s F.genProfileSel
  let down := sel && variantL s
  let s1 := put (put s F.genProfstatActive (bit (sel && !variantL s))) F.genProfstatDowngraded (bit down)
  let s2 := put s1 F.genProfstatPending (bit down)
  if down then event 0 0 0 s2 else s2

/-! ### The Dawn sequence (R418) -/

/-- Step 2: the PLLs of the core island lock; the repair controller and the MRAM interface run. -/
def pllLockedEff (s : State) : State :=
  if s.dawn = .step 1 then { forAll [1, 2, 3, 4] (fun k s => clockBit k true s) s with dawn := .step 2 } else s

/-- The unit that a map record names exists (R398). -/
def mapUnitOk (kind array unit index : Nat) : Bool :=
  if kind = 1 ∨ kind = 2 then
    (if array ≤ 1 then unit / 32 < 16 && unit % 32 < 17 else if array = 2 then unit < 33
      else if array = 3 then unit < 11 else array == 4 && unit < 4)
  else if kind = 3 then unit / 32 < 16 && unit % 32 < 17 && index == 0
  else if kind = 4 then unit < 32
  else if kind = 5 then unit < 26
  else kind == 6

/-- The bytes of a map record. -/
def mapRecord (r : Retire) (spare t : Nat) : List Nat :=
  let b := [r.kind, r.array] ++ leBytes 2 r.unit ++ leBytes 2 r.index ++ [spare % 256, 0] ++ leBytes 4 t
  b ++ leBytes 4 (crc32c b)

/-- The spare that a record takes is free. -/
def spareFree (s : State) (kind array unit spare : Nat) : Bool :=
  if kind = 1 ∨ kind = 2 then
    spare == mget 0 s.spareRows (spareKey kind array unit) && decide (spare < (if kind = 1 then spareRowsOf array else spareColsOf array))
  else if kind = 3 then !rdB s (F.clRemapSubst (unit / 32))
  else if kind = 4 then rd s F.sbSpareState == 0
  else true

/-- The failed mark of a physical PE of a cluster. -/
def markFailed (u : Nat) (s : State) : State := putOr s (F.clRemapFailed (u / 32)) (2 ^ (u % 32))

/-- Logical PE `l` of a cluster moves to the spare. -/
def substPe (cl l : Nat) (s : State) : State :=
  putOr (put (put s (F.clRemapSubst cl) 1) (F.clRemapLpe cl) l) F.repPespareUsed (2 ^ cl)

/-- A repair in force. -/
def applyRepair (kind array unit : Nat) (s : State) : State :=
  if kind = 1 ∨ kind = 2 ∨ kind = 6 then
    let k := spareKey kind array unit
    { s with spareRows := mset 0 s.spareRows k (mget 0 s.spareRows k + 1) }
  else if kind = 3 then markFailed unit (substPe (unit / 32) (unit % 32) s)
  else if kind = 4 then put (put s F.sbSpareState 2) F.sbSpareBank unit
  else if kind = 5 then putOr s F.rngBypassByp (2 ^ unit)
  else s

/-- One map record applied, or rejected with MAPERR. -/
def applyMap (bs : List Nat) (s : State) : State :=
  let kind := bs.getD 0 0
  let array := bs.getD 1 0
  let unit := fieldLe bs 2 2
  let ok := bs.length == 16 && fieldLe bs 12 4 == crc32c (bs.take 12) && mapUnitOk kind array unit (fieldLe bs 4 2)
    && spareFree s kind array unit (bs.getD 6 0)
  if ok then applyRepair kind array unit s else event 33 4 0 s

/-- Step 3: the fuse map, which is empty (log entry 12), and the MRAM records in order. -/
def mramReadyEff (s : State) : State :=
  if s.dawn = .step 2 then
    { put (forAll s.mapRecs applyMap s) F.repMapusedRecords s.mapRecs.length with dawn := .step 3 }
  else s

/-- The index taken up at Dawn. -/
def idxDawn (s : State) : State :=
  let r := match idxRead s 0, idxRead s 0x40 with
    | some a, some b => if a.2 < b.2 then b else a
    | some a, none => a
    | none, some b => b
    | none, none => (0, 0)
  setIdx r.1 { s with idxL := r.1, idxRseq := r.2 }

/-- Step 4: the configuration record is read, the identity is checked, and the profile is sampled. The record's bytes have no
layout, so its digest is left open (log entry 3). -/
def coreClearedEff (s : State) : State :=
  if s.dawn = .step 3 then
    let s1 := if s.cfgRec.isNone then event 0 1 0 s else s
    let s2 := idxDawn (put s1 F.secStatusIdv (bit s.identityOk))
    let p := match s.cfgRec with | some c => c.profDef | none => 0
    match s2.takeFree with
    | (w, s3) =>
      let s4 := sampleProfile (put (measure 5 0 0 (leBytes 8 w.toNat) s3) F.genProfileSel p)
      let s5 := measure 6 (rd s4 F.genProfstatActive) 0 (List.replicate 32 0) (enterProfile (profA s4) s4)
      { put s5 (F.pwrDomstatState 23) (if perstHigh s then 0 else 4) with dawn := .step 4 }
  else s

/-- Step 5, and core 0 at the boot ROM: every cluster and bank group in RUN at the operating point of the profile with its
arrays cleared; domains 20 to 22 off. -/
def domainsRunEff (s : State) : State :=
  if s.dawn = .step 4 then
    let s1 := forAll (List.range 16) oppointDone s
    let s2 := forAll (List.range 20) (fun d s => put s (F.pwrDomstatState d) 0) s1
    let s3 := forAll [20, 21, 22] (fun d s =>
      put (setFence d 1 (put s (F.pwrDomstatState d) 4)) (F.rngParkClosed (stationOfDom d)) 1) s2
    let s4 := forAll ([5, 7] ++ (List.range 16).map (9 + ·)) (fun k s => clockBit k true s)
      (put s3 F.sbInitDone (2 ^ 32 - 1))
    { forAll (List.range 4) (fun c s => put (clearCore c s) (F.supCorestatState c) (runState s c)) s4 with dawn := .step 6 }
  else s

/-! ### Boot and recovery (R428) -/

/-- The boot record after the boot ROM's update. -/
def bootRecord (c : CfgRec) : CfgRec :=
  if c.trial then (if c.trials = 0 then { c with prefer := 1 - c.prefer, trial := false } else { c with trials := c.trials - 1 })
  else c

/-- The hash over the boot ROM. -/
def bootRomHash : List Nat := shake256 ((List.range 65536).map fun i => (Config.bootRom i).toNat) 32

/-- Firmware of a slot starts: measured, placed, entered, and ready. -/
def startFirmware (slot : Nat) (trial : Bool) (s : State) : State :=
  match slotImage s slot 0 with
  | (h, body) =>
    let s1 := loadImage h body (measure 2 slot 0 ((h.drop 0x28).take 32) (measure 1 0 0 bootRomHash s))
    let s2 := put (put s1 F.secStatusSlot slot) F.secStatusTrial (bit trial)
    { put (s2.updThr 0 fun th => { th with pc := fieldLe h 0x20 8 }) F.hifStatusReady 1 with
      fwInfo := h.take 0x48, dawn := .step 7 }

/-- Banks 0 to 7 handed over. -/
def handBanks (owner : Nat) (s : State) : State := forAll (List.range 8) (fun b s => ownerWrite b owner s) s

/-- No slot holds a valid image: the boot ROM waits for SEC_RECOVCTL. -/
def enterRecovery (s : State) : State := { handBanks 0x10 (put s F.secStatusRecovery 1) with recovery := true }

/-- The first check that the firmware image of a slot fails; 0 where it is valid. -/
def slotCheck (s : State) (slot : Nat) : Nat :=
  match slotImage s slot 0 with
  | (h, body) => checkImage s 1 h body

def bootEff (s : State) : State :=
  if s.dawn ≠ .step 6 ∨ s.recovery = true ∨ coreState s 0 ≠ 2 then s
  else
    let s1 := if (cfgOf s).trial then cfgWrite bootRecord s else s
    let c := cfgOf s1
    let other := 1 - c.prefer
    if slotCheck s1 c.prefer = 0 then startFirmware c.prefer c.trial s1
    else
      let s2 := event 14 0 0 s1
      if slotCheck s2 other = 0 then startFirmware other false s2 else enterRecovery (event 14 0 0 s2)

/-- GO of SEC_RECOVCTL, ignored outside recovery while SLOT is stored: the boot ROM takes the banks, checks the image at scratch address 0 and writes it to the slot, or hands
the banks back with the check that failed. -/
def recovEff (init slot : Nat) (s : State) : State :=
  if !supInit init then s
  else if !s.recovery then put s F.secRecovctlSlot slot
  else
    let s1 := put s F.secRecovctlSlot slot
    let h := memRead s.mem (scrPhys s 0) 4096
    let body := (List.range (min (hdrLen h) 0x7FF000)).map fun i => (memGet s.mem (scrPhys s (4096 + i))).toNat
    let n := checkImage s 1 h body
    if n = 0 then
      commandReset 2 (cfgWrite (fun c => { c with prefer := slot % 2 })
        { s1 with mem := memWrite s1.mem (slotBase slot) (h ++ body) })
    else handBanks 0x10 (handBanks 0x50 (event 14 0 0 (put s1 F.secRecovctlResult n)))

/-! ### GEN_COMMIT and the full quiesce (R12, R32 to R35, R248) -/

/-- GEN has no paired fields: the commit locks GEN_DEVNUM, and the enabled span ports start to train. -/
def genCommitEff (s : State) : State :=
  forAll (List.range 4) (fun p s =>
    if rd s (F.spnPortcfgEn p) = 1 ∧ rd s (F.spnPortstatState p) = 0 then setSpanState p 1 s else s) (commitOk s 0)

/-- The lowest-numbered condition that refuses a quiesce; 0 where none does. -/
def quiesceRefusal (s : State) : Nat :=
  if busyCtxs s != [] then 1
  else if rd s F.drvEnableAsserted != 0 then 2
  else if logState s == 2 || logState s == 3 then 3
  else if (List.range 16).any fun c => rd s (F.clFsstatUsed c) != 0 then 4
  else 0

def quiesceReqEff (s : State) : State :=
  if devQuiesce s then s
  else
    let n := quiesceRefusal s
    if n ≠ 0 then put s F.genQuiesceRefuse n
    else { put s F.genQuiesceBusy 1 with injectStop := true, quiesceStep := 1 }

/-- The virtual networks have drained: the profile is sampled and the clusters start to move to its operating point. -/
def drainedEff (s : State) : State :=
  if !rdB s F.genQuiesceBusy || s.quiesceStep != 1 || s.net.any (fun p => p.epoch != waiting) then s
  else
    let s1 := sampleProfile s
    let s2 := if profA s1 = profA s then s1
      else forAll (List.range 16) startOppoint (enterProfile (profA s1) s1)
    { s2 with quiesceStep := 2 }

/-- Every cluster is at its operating point. -/
def quiesceDoneEff (s : State) : State :=
  if !rdB s F.genQuiesceBusy || s.quiesceStep != 2 || (List.range 16).any (fun c => mget .none s.opPhase c != .none) then s
  else { put (put s F.genQuiesceBusy 0) F.genQuiesceDone 1 with quiesceStep := 3 }

/-- RESUME: injection reopens. After a device halt DONE stays until the device reset (R35). -/
def quiesceResumeEff (s : State) : State :=
  if rdB s F.genQuiesceDone && !s.deviceHalted then
    drainRemotes (releaseRecv (reinject { put s F.genQuiesceDone 0 with injectStop := false, quiesceStep := 0 }))
  else s

/-! ### Clock faults (R389) -/

/-- A clock domain ought to run and does not. -/
def lockLost (s : State) (k : Nat) : Bool :=
  !(rd s F.clkLockLock).testBit k &&
    (if 9 ≤ k then domState s (k - 9) ≤ 1
     else if k = 6 then domState s 20 == 0 && rd s F.cnvPllcfgPllmul != 0
     else if k = 8 then domState s 22 == 0
     else true)

/-- The PLL of a clock domain loses lock; domain 0 has none (R402). -/
def pllLossEff (k : Nat) (s : State) : State :=
  if 1 ≤ k && k ≤ 24 && (rd s F.clkLockLock).testBit k then condition 2 0 k (clockBit k false s) else s

def pllRelockEff (k : Nat) (s : State) : State :=
  if 1 ≤ k && k ≤ 24 && lockLost s k then
    let s1 := clockBit k true s
    setLive 2 0 (((List.range 25).drop 1).any (lockLost s1)) s1
  else s

/-- The board reference is lost. -/
def refLossEff (s : State) : State :=
  if (rd s F.clkRefstatPresent).testBit 0 then
    condition 2 1 0 (put s F.clkRefstatPresent (rd s F.clkRefstatPresent - 1))
  else s

/-! ### The rows -/

/-- POWER_ON (R418). -/
def execPowerOn (s : State) : Host.Outcome State Fault Refusal := .next (powerOnEff s)

/-- DAWN_PLL_LOCKED (R418). -/
def execDawnPllLocked (s : State) : Host.Outcome State Fault Refusal := .next (pllLockedEff s)

/-- DAWN_MRAM_READY (R418). -/
def execDawnMramReady (s : State) : Host.Outcome State Fault Refusal := .next (mramReadyEff s)

/-- DAWN_CORE_CLEARED (R418). -/
def execDawnCoreCleared (s : State) : Host.Outcome State Fault Refusal := .next (coreClearedEff s)

/-- DAWN_DOMAINS_RUN (R418). -/
def execDawnDomainsRun (s : State) : Host.Outcome State Fault Refusal := .next (domainsRunEff s)

/-- FIRMWARE_BOOT (R428). -/
def execFirmwareBoot (s : State) : Host.Outcome State Fault Refusal := .next (bootEff s)

/-- RESET_N_ASSERT (R419). -/
def execResetNAssert (s : State) : Host.Outcome State Fault Refusal := .next (resetAssertEff s)

/-- RESET_N_RELEASE (R420). -/
def execResetNRelease (s : State) : Host.Outcome State Fault Refusal := .next (resetReleaseEff s)

/-- GEN_DEVRESET (R423). -/
def execGenDevreset (init key : Nat) (s : State) : Host.Outcome State Fault Refusal := act 3 s (devresetEff init key)

/-- PGOOD_FALL (R467). -/
def execPgoodFall (s : State) : Host.Outcome State Fault Refusal := .next (pgoodEff s)

/-- VDDAO_LOSS (R419). -/
def execVddaoLoss (s : State) : Host.Outcome State Fault Refusal := .next (powerReset s)

/-- REF_LOSS (R389). -/
def execRefLoss (s : State) : Host.Outcome State Fault Refusal := act 3 s refLossEff

/-- CLK_PLLUNLOCK (R389). -/
def execClkPllunlock (k : Nat) (s : State) : Host.Outcome State Fault Refusal := act 3 s (pllLossEff k)

/-- CLK_PLL_RELOCK (R389). -/
def execClkPllRelock (k : Nat) (s : State) : Host.Outcome State Fault Refusal := act 3 s (pllRelockEff k)

/-- SEC_RECOVCTL_GO (R428). -/
def execSecRecovctlGo (init slot : Nat) (s : State) : Host.Outcome State Fault Refusal := act 6 s (recovEff init slot)

/-- GEN_COMMIT (R32). -/
def execGenCommit (s : State) : Host.Outcome State Fault Refusal := act 3 s genCommitEff

/-- QUIESCE_REQ (R33). -/
def execQuiesceReq (s : State) : Host.Outcome State Fault Refusal := act 3 s quiesceReqEff

/-- QUIESCE_DRAINED (R34). -/
def execQuiesceDrained (s : State) : Host.Outcome State Fault Refusal := act 3 s drainedEff

/-- QUIESCE_COMPLETE (R34). -/
def execQuiesceComplete (s : State) : Host.Outcome State Fault Refusal := act 3 s quiesceDoneEff

/-- QUIESCE_RESUME (R34). -/
def execQuiesceResume (s : State) : Host.Outcome State Fault Refusal := act 3 s quiesceResumeEff

end Sys2Proof.Machine
end

