-- ==== Sys2Proof/Machine/PeFp.lean ====
section
/-! DEFINITION. The FP64, paired FP32 and complex FP32 classes of PE instructions (R94 to R97). -/

namespace Sys2Proof.Machine

open Sys2Proof

/-- An F64 result. -/
def vF (n : Nat) : Val := .of tyF64 n

/-- Two binary32 halves as one value: lane 0, or the real part, in bits 31:0. -/
def pair (lo hi : Nat) : Nat := lo % 2 ^ 32 + hi % 2 ^ 32 * 2 ^ 32

/-- Lane 0 or the real part, and lane 1 or the imaginary part (R42). -/
def Val.lo (v : Val) : Nat := bits v.n 0 32
def Val.hi (v : Val) : Nat := bits v.n 32 32

/-- An F32X2 result, lane by lane (R96). -/
def lanes (g : Nat → Nat → Nat → Nat) (c : Fc) : Val :=
  .of tyF32X2 (pair (g c.l.lo c.r.lo c.t.lo) (g c.l.hi c.r.hi c.t.hi))

/-- A C32 result. -/
def vC (re im : Nat) : Val := .of tyC32 (pair re im)

/-- a × b + c of complex numbers by four fused multiply-adds (R97). -/
def cmac (ar ai br bi cr ci : Nat) : Val :=
  let f := Fp.b32
  vC (Fp.fma f ar br (Fp.fma f (Fp.neg f ai) bi cr)) (Fp.fma f ar bi (Fp.fma f ai br ci))

/-- −0 in binary32. -/
def negZero32 : Nat := 2 ^ 31

/-- What FADD computes (R95). -/
def faddFx : State → Fc → Fx := pure1 fun c => vF (Fp.add Fp.b64 c.l.n c.r.n)

/-- FADD (R95). -/
def execFadd (f : Fire) (s : State) : Host.Outcome State Fault Refusal := act 5 s (fireEff f 0x040 faddFx)

/-- What FSUB computes (R95). -/
def fsubFx : State → Fc → Fx := pure1 fun c => vF (Fp.sub Fp.b64 c.l.n c.r.n)

/-- FSUB (R95). -/
def execFsub (f : Fire) (s : State) : Host.Outcome State Fault Refusal := act 5 s (fireEff f 0x041 fsubFx)

/-- What FMUL computes (R95). -/
def fmulFx : State → Fc → Fx := pure1 fun c => vF (Fp.mul Fp.b64 c.l.n c.r.n)

/-- FMUL (R95). -/
def execFmul (f : Fire) (s : State) : Host.Outcome State Fault Refusal := act 5 s (fireEff f 0x042 fmulFx)

/-- What FDIV computes (R95). -/
def fdivFx : State → Fc → Fx := pure1 fun c => vF (Fp.div Fp.b64 c.l.n c.r.n)

/-- FDIV (R95). -/
def execFdiv (f : Fire) (s : State) : Host.Outcome State Fault Refusal := act 5 s (fireEff f 0x043 fdivFx)

/-- What FSQRT computes (R95). -/
def fsqrtFx : State → Fc → Fx := pure1 fun c => vF (Fp.sqrt Fp.b64 c.l.n)

/-- FSQRT (R95). -/
def execFsqrt (f : Fire) (s : State) : Host.Outcome State Fault Refusal := act 5 s (fireEff f 0x044 fsqrtFx)

/-- What FMA computes (R95). -/
def fmaFx : State → Fc → Fx := pure1 fun c => vF (Fp.fma Fp.b64 c.l.n c.r.n c.t.n)

/-- FMA (R95). -/
def execFma (f : Fire) (s : State) : Host.Outcome State Fault Refusal := act 5 s (fireEff f 0x045 fmaFx)

/-- What FMIN computes (R95). -/
def fminFx : State → Fc → Fx := pure1 fun c => vF (Fp.fmin Fp.b64 c.l.n c.r.n)

/-- FMIN (R95). -/
def execFmin (f : Fire) (s : State) : Host.Outcome State Fault Refusal := act 5 s (fireEff f 0x046 fminFx)

/-- What FMAX computes (R95). -/
def fmaxFx : State → Fc → Fx := pure1 fun c => vF (Fp.fmax Fp.b64 c.l.n c.r.n)

/-- FMAX (R95). -/
def execFmax (f : Fire) (s : State) : Host.Outcome State Fault Refusal := act 5 s (fireEff f 0x047 fmaxFx)

/-- What FABS computes (R95). -/
def fabsFx : State → Fc → Fx := pure1 fun c => vF (Fp.abs Fp.b64 c.l.n)

/-- FABS (R95). -/
def execFabs (f : Fire) (s : State) : Host.Outcome State Fault Refusal := act 5 s (fireEff f 0x048 fabsFx)

/-- What FNEG computes (R95). -/
def fnegFx : State → Fc → Fx := pure1 fun c => vF (Fp.neg Fp.b64 c.l.n)

/-- FNEG (R95). -/
def execFneg (f : Fire) (s : State) : Host.Outcome State Fault Refusal := act 5 s (fireEff f 0x049 fnegFx)

/-- What PADD computes (R96). -/
def paddFx : State → Fc → Fx := pure1 fun c => lanes (fun a b _ => Fp.add Fp.b32 a b) c

/-- PADD (R96). -/
def execPadd (f : Fire) (s : State) : Host.Outcome State Fault Refusal := act 5 s (fireEff f 0x080 paddFx)

/-- What PSUB computes (R96). -/
def psubFx : State → Fc → Fx := pure1 fun c => lanes (fun a b _ => Fp.sub Fp.b32 a b) c

/-- PSUB (R96). -/
def execPsub (f : Fire) (s : State) : Host.Outcome State Fault Refusal := act 5 s (fireEff f 0x081 psubFx)

/-- What PMUL computes (R96). -/
def pmulFx : State → Fc → Fx := pure1 fun c => lanes (fun a b _ => Fp.mul Fp.b32 a b) c

/-- PMUL (R96). -/
def execPmul (f : Fire) (s : State) : Host.Outcome State Fault Refusal := act 5 s (fireEff f 0x082 pmulFx)

/-- What PFMA computes (R96). -/
def pfmaFx : State → Fc → Fx := pure1 fun c => lanes (Fp.fma Fp.b32) c

/-- PFMA (R96). -/
def execPfma (f : Fire) (s : State) : Host.Outcome State Fault Refusal := act 5 s (fireEff f 0x083 pfmaFx)

/-- What PDIV computes (R96). -/
def pdivFx : State → Fc → Fx := pure1 fun c => lanes (fun a b _ => Fp.div Fp.b32 a b) c

/-- PDIV (R96). -/
def execPdiv (f : Fire) (s : State) : Host.Outcome State Fault Refusal := act 5 s (fireEff f 0x084 pdivFx)

/-- What PSQRT computes (R96). -/
def psqrtFx : State → Fc → Fx := pure1 fun c => lanes (fun a _ _ => Fp.sqrt Fp.b32 a) c

/-- PSQRT (R96). -/
def execPsqrt (f : Fire) (s : State) : Host.Outcome State Fault Refusal := act 5 s (fireEff f 0x085 psqrtFx)

/-- What PMIN computes (R96). -/
def pminFx : State → Fc → Fx := pure1 fun c => lanes (fun a b _ => Fp.fmin Fp.b32 a b) c

/-- PMIN (R96). -/
def execPmin (f : Fire) (s : State) : Host.Outcome State Fault Refusal := act 5 s (fireEff f 0x086 pminFx)

/-- What PMAX computes (R96). -/
def pmaxFx : State → Fc → Fx := pure1 fun c => lanes (fun a b _ => Fp.fmax Fp.b32 a b) c

/-- PMAX (R96). -/
def execPmax (f : Fire) (s : State) : Host.Outcome State Fault Refusal := act 5 s (fireEff f 0x087 pmaxFx)

/-- What PABS computes (R96). -/
def pabsFx : State → Fc → Fx := pure1 fun c => lanes (fun a _ _ => Fp.abs Fp.b32 a) c

/-- PABS (R96). -/
def execPabs (f : Fire) (s : State) : Host.Outcome State Fault Refusal := act 5 s (fireEff f 0x088 pabsFx)

/-- What PNEG computes (R96). -/
def pnegFx : State → Fc → Fx := pure1 fun c => lanes (fun a _ _ => Fp.neg Fp.b32 a) c

/-- PNEG (R96). -/
def execPneg (f : Fire) (s : State) : Host.Outcome State Fault Refusal := act 5 s (fireEff f 0x089 pnegFx)

/-- What PSUM computes (R96). -/
def psumFx : State → Fc → Fx := pure1 fun c => .of tyF32X2 (pair (Fp.add Fp.b32 c.l.lo c.l.hi) 0)

/-- PSUM (R96). -/
def execPsum (f : Fire) (s : State) : Host.Outcome State Fault Refusal := act 5 s (fireEff f 0x08a psumFx)

/-- What PSWAP computes (R96). -/
def pswapFx : State → Fc → Fx := pure1 fun c => .of tyF32X2 (pair c.l.hi c.l.lo)

/-- PSWAP (R96). -/
def execPswap (f : Fire) (s : State) : Host.Outcome State Fault Refusal := act 5 s (fireEff f 0x08b pswapFx)

/-- What CADD computes (R97). -/
def caddFx : State → Fc → Fx := pure1 fun c => vC (Fp.add Fp.b32 c.l.lo c.r.lo) (Fp.add Fp.b32 c.l.hi c.r.hi)

/-- CADD (R97). -/
def execCadd (f : Fire) (s : State) : Host.Outcome State Fault Refusal := act 5 s (fireEff f 0x0c0 caddFx)

/-- What CSUB computes (R97). -/
def csubFx : State → Fc → Fx := pure1 fun c => vC (Fp.sub Fp.b32 c.l.lo c.r.lo) (Fp.sub Fp.b32 c.l.hi c.r.hi)

/-- CSUB (R97). -/
def execCsub (f : Fire) (s : State) : Host.Outcome State Fault Refusal := act 5 s (fireEff f 0x0c1 csubFx)

/-- What CMUL computes (R97). -/
def cmulFx : State → Fc → Fx := pure1 fun c => cmac c.l.lo c.l.hi c.r.lo c.r.hi negZero32 negZero32

/-- CMUL (R97). -/
def execCmul (f : Fire) (s : State) : Host.Outcome State Fault Refusal := act 5 s (fireEff f 0x0c2 cmulFx)

/-- What CMULJ computes (R97). -/
def cmuljFx : State → Fc → Fx := pure1 fun c => cmac c.l.lo c.l.hi c.r.lo (Fp.neg Fp.b32 c.r.hi) negZero32 negZero32

/-- CMULJ (R97). -/
def execCmulj (f : Fire) (s : State) : Host.Outcome State Fault Refusal := act 5 s (fireEff f 0x0c3 cmuljFx)

/-- What CMAC computes (R97). -/
def cmacFx : State → Fc → Fx := pure1 fun c => cmac c.l.lo c.l.hi c.r.lo c.r.hi c.t.lo c.t.hi

/-- CMAC (R97). -/
def execCmac (f : Fire) (s : State) : Host.Outcome State Fault Refusal := act 5 s (fireEff f 0x0c4 cmacFx)

/-- What CMACJ computes (R97). -/
def cmacjFx : State → Fc → Fx := pure1 fun c => cmac c.l.lo c.l.hi c.r.lo (Fp.neg Fp.b32 c.r.hi) c.t.lo c.t.hi

/-- CMACJ (R97). -/
def execCmacj (f : Fire) (s : State) : Host.Outcome State Fault Refusal := act 5 s (fireEff f 0x0c5 cmacjFx)

/-- What CCONJ computes (R97). -/
def cconjFx : State → Fc → Fx := pure1 fun c => vC c.l.lo (Fp.neg Fp.b32 c.l.hi)

/-- CCONJ (R97). -/
def execCconj (f : Fire) (s : State) : Host.Outcome State Fault Refusal := act 5 s (fireEff f 0x0c6 cconjFx)

/-- What CNEG computes (R97). -/
def cnegFx : State → Fc → Fx := pure1 fun c => vC (Fp.neg Fp.b32 c.l.lo) (Fp.neg Fp.b32 c.l.hi)

/-- CNEG (R97). -/
def execCneg (f : Fire) (s : State) : Host.Outcome State Fault Refusal := act 5 s (fireEff f 0x0c7 cnegFx)

/-- What CABS2 computes (R97). -/
def cabs2Fx : State → Fc → Fx := pure1 fun c => .of tyF32X2 (pair (Fp.fma Fp.b32 c.l.lo c.l.lo (Fp.mul Fp.b32 c.l.hi c.l.hi)) 0)

/-- CABS2 (R97). -/
def execCabs2 (f : Fire) (s : State) : Host.Outcome State Fault Refusal := act 5 s (fireEff f 0x0c8 cabs2Fx)

/-- What CSCALE computes (R97). -/
def cscaleFx : State → Fc → Fx := pure1 fun c => vC (Fp.mul Fp.b32 c.l.lo c.r.lo) (Fp.mul Fp.b32 c.l.hi c.r.lo)

/-- CSCALE (R97). -/
def execCscale (f : Fire) (s : State) : Host.Outcome State Fault Refusal := act 5 s (fireEff f 0x0c9 cscaleFx)

end Sys2Proof.Machine
end

