-- ==== Sys2Proof/Machine/PeInt.lean ====
section
/-! DEFINITION. The integer class of PE instructions (R93). -/

namespace Sys2Proof.Machine

open Sys2Proof

/-- An I64 result. -/
def vI (x : Word) : Val := ⟨x, tyI64, false⟩

/-- The signed maximum of two words, by comparison. -/
def smax (a b : Word) : Word := if a.slt b then b else a

/-- The signed minimum of two words. -/
def smin (a b : Word) : Word := if b.slt a then b else a

/-- Unsigned maximum and minimum. -/
def umax (a b : Word) : Word := if a.ult b then b else a
def umin (a b : Word) : Word := if b.ult a then b else a

/-- High 64 bits of a product of integers. -/
def high64 (i : Int) : Word := BitVec.ofInt 64 (i / (2 ^ 64 : Nat))

/-- The count of leading zero bits of `n` taken as `w` bits. -/
def clz (w n : Nat) : Nat := if n = 0 then w else w - 1 - Nat.log2 n

/-- The count of one bits. -/
def popc (n : Nat) : Nat := (List.range 64).countP fun i => n.testBit i

/-- The shift amount R[5:0] (R93). -/
def sh6 (x : Word) : Nat := x.toNat % 64

/-- What ADD computes (R93). -/
def addFx : State → Fc → Fx := pure1 fun c => vI (c.l.v + c.r.v)

/-- ADD (R93). -/
def execAdd (f : Fire) (s : State) : Host.Outcome State Fault Refusal := act 5 s (fireEff f 0x000 addFx)

/-- What SUB computes (R93). -/
def subFx : State → Fc → Fx := pure1 fun c => vI (c.l.v - c.r.v)

/-- SUB (R93). -/
def execSub (f : Fire) (s : State) : Host.Outcome State Fault Refusal := act 5 s (fireEff f 0x001 subFx)

/-- What MUL computes (R93). -/
def mulFx : State → Fc → Fx := pure1 fun c => vI (c.l.v * c.r.v)

/-- MUL (R93). -/
def execMul (f : Fire) (s : State) : Host.Outcome State Fault Refusal := act 5 s (fireEff f 0x002 mulFx)

/-- What MULHS computes (R93). -/
def mulhsFx : State → Fc → Fx := pure1 fun c => vI (high64 (c.l.v.toInt * c.r.v.toInt))

/-- MULHS (R93). -/
def execMulhs (f : Fire) (s : State) : Host.Outcome State Fault Refusal := act 5 s (fireEff f 0x003 mulhsFx)

/-- What MULHU computes (R93). -/
def mulhuFx : State → Fc → Fx := pure1 fun c => vI (high64 ((c.l.n * c.r.n : Nat) : Int))

/-- MULHU (R93). -/
def execMulhu (f : Fire) (s : State) : Host.Outcome State Fault Refusal := act 5 s (fireEff f 0x004 mulhuFx)

/-- What MADD computes (R93). -/
def maddFx : State → Fc → Fx := pure1 fun c => vI (c.l.v * c.r.v + c.t.v)

/-- MADD (R93). -/
def execMadd (f : Fire) (s : State) : Host.Outcome State Fault Refusal := act 5 s (fireEff f 0x005 maddFx)

/-- What AND computes (R93). -/
def opAndFx : State → Fc → Fx := pure1 fun c => ⟨c.l.v &&& c.r.v, c.l.ty, false⟩

/-- AND (R93). -/
def execOpAnd (f : Fire) (s : State) : Host.Outcome State Fault Refusal := act 5 s (fireEff f 0x006 opAndFx)

/-- What OR computes (R93). -/
def opOrFx : State → Fc → Fx := pure1 fun c => ⟨c.l.v ||| c.r.v, c.l.ty, false⟩

/-- OR (R93). -/
def execOpOr (f : Fire) (s : State) : Host.Outcome State Fault Refusal := act 5 s (fireEff f 0x007 opOrFx)

/-- What XOR computes (R93). -/
def opXorFx : State → Fc → Fx := pure1 fun c => ⟨c.l.v ^^^ c.r.v, c.l.ty, false⟩

/-- XOR (R93). -/
def execOpXor (f : Fire) (s : State) : Host.Outcome State Fault Refusal := act 5 s (fireEff f 0x008 opXorFx)

/-- What NOT computes (R93). -/
def opNotFx : State → Fc → Fx := pure1 fun c => ⟨if c.l.ty = tyBool then c.l.v ^^^ 1#64 else ~~~c.l.v, c.l.ty, false⟩

/-- NOT (R93). -/
def execOpNot (f : Fire) (s : State) : Host.Outcome State Fault Refusal := act 5 s (fireEff f 0x009 opNotFx)

/-- What SHL computes (R93). -/
def shlFx : State → Fc → Fx := pure1 fun c => vI (c.l.v <<< sh6 c.r.v)

/-- SHL (R93). -/
def execShl (f : Fire) (s : State) : Host.Outcome State Fault Refusal := act 5 s (fireEff f 0x00a shlFx)

/-- What SHR computes (R93). -/
def shrFx : State → Fc → Fx := pure1 fun c => vI (c.l.v >>> sh6 c.r.v)

/-- SHR (R93). -/
def execShr (f : Fire) (s : State) : Host.Outcome State Fault Refusal := act 5 s (fireEff f 0x00b shrFx)

/-- What SAR computes (R93). -/
def sarFx : State → Fc → Fx := pure1 fun c => vI (c.l.v.sshiftRight (sh6 c.r.v))

/-- SAR (R93). -/
def execSar (f : Fire) (s : State) : Host.Outcome State Fault Refusal := act 5 s (fireEff f 0x00c sarFx)

/-- What NEG computes (R93). -/
def opNegFx : State → Fc → Fx := pure1 fun c => vI (0 - c.l.v)

/-- NEG (R93). -/
def execOpNeg (f : Fire) (s : State) : Host.Outcome State Fault Refusal := act 5 s (fireEff f 0x00d opNegFx)

/-- What ABS computes (R93). -/
def opAbsFx : State → Fc → Fx := pure1 fun c => vI (if c.l.v.msb then 0 - c.l.v else c.l.v)

/-- ABS (R93). -/
def execOpAbs (f : Fire) (s : State) : Host.Outcome State Fault Refusal := act 5 s (fireEff f 0x00e opAbsFx)

/-- What MIN computes (R93). -/
def opMinFx : State → Fc → Fx := pure1 fun c => vI (smin c.l.v c.r.v)

/-- MIN (R93). -/
def execOpMin (f : Fire) (s : State) : Host.Outcome State Fault Refusal := act 5 s (fireEff f 0x00f opMinFx)

/-- What MAX computes (R93). -/
def opMaxFx : State → Fc → Fx := pure1 fun c => vI (smax c.l.v c.r.v)

/-- MAX (R93). -/
def execOpMax (f : Fire) (s : State) : Host.Outcome State Fault Refusal := act 5 s (fireEff f 0x010 opMaxFx)

/-- What MINU computes (R93). -/
def minuFx : State → Fc → Fx := pure1 fun c => vI (umin c.l.v c.r.v)

/-- MINU (R93). -/
def execMinu (f : Fire) (s : State) : Host.Outcome State Fault Refusal := act 5 s (fireEff f 0x011 minuFx)

/-- What MAXU computes (R93). -/
def maxuFx : State → Fc → Fx := pure1 fun c => vI (umax c.l.v c.r.v)

/-- MAXU (R93). -/
def execMaxu (f : Fire) (s : State) : Host.Outcome State Fault Refusal := act 5 s (fireEff f 0x012 maxuFx)

/-- What CLZ computes (R93). -/
def clzFx : State → Fc → Fx := pure1 fun c => .of tyI64 (clz 64 c.l.n)

/-- CLZ (R93). -/
def execClz (f : Fire) (s : State) : Host.Outcome State Fault Refusal := act 5 s (fireEff f 0x013 clzFx)

/-- What POPC computes (R93). -/
def popcFx : State → Fc → Fx := pure1 fun c => .of tyI64 (popc c.l.n)

/-- POPC (R93). -/
def execPopc (f : Fire) (s : State) : Host.Outcome State Fault Refusal := act 5 s (fireEff f 0x014 popcFx)

end Sys2Proof.Machine
end

