-- ==== Sys2Proof/Machine/PeMem.lean ====
section
/-! DEFINITION. The scratch memory and presence operations of PE instructions (R69, R72, R107 to R110). -/

namespace Sys2Proof.Machine

open Sys2Proof

/-- The rights of an operation (R69): bit 0 R, bit 1 W, bit 2 P, bit 3 B. -/
def rightsOf (opcode : Nat) : Nat :=
  if opcode = 0x1C0 ∨ opcode = 0x1C4 then 0b0001
  else if opcode = 0x1C1 then 0b0010
  else if opcode = 0x1C2 ∨ opcode = 0x1C3 then 0b1010
  else if opcode = 0x1C7 then 0b0111
  else 0b0110

/-- An access lies wholly inside an enabled window that holds the rights (R69). -/
def Win.allows (w : Win) (addr size need : Nat) : Bool :=
  w.length != 0 && w.base ≤ addr && addr + size ≤ w.base + w.length && w.perm &&& need == need

/-- The check of a native context (R69). -/
def nativeCheck (d : Desc) (addr size need : Nat) : Bool :=
  d.ring == 0 || d.w0.allows addr size need || d.w1.allows addr size need || d.w2.allows addr size need

/-- The rights that a capability holds, in the coding of `rightsOf`: W includes the bit-set and bit-clear views
(R72). -/
def capRights (n : Nat) : Nat := bits n 50 3 + bits n 51 1 * 8

/-- The address of a scratch operation, or the cause and DETAIL that refuse it (R69, R72, R107). In an Oxtuca context the manual
states no modulo: BASE + offset at or above 2^25 is not wrapped, and names a bank of 32 or more, which no station serves
(DESIGN CHOICE, log entry 76). -/
def scratchAddr (d : Desc) (opcode : Nat) (b off : Val) : Except (Nat × Nat) Nat :=
  let need := rightsOf opcode
  if d.mode = 1 then
    let len := bits b.n 25 25
    let a := bits b.n 0 25 + off.n
    if !(b.ty == tySaddr && b.cap) || bits b.n 54 10 != 0 || len < off.n + 8 || capRights b.n &&& need != need then
      .error (0x09, bits a 9 16)
    else .ok (a / 8 * 8)
  else
    let a := (bits b.n 0 25 + off.n) % 2 ^ 25 / 8 * 8
    if nativeCheck d a 8 need then .ok a else .error (0x08, bits a 9 16)

/-- A scratch operation: the address is checked at the PE, then the request leaves for the bank (R107, R108). -/
def scratchFx (opcode cmd : Nat) (b off : Fc → Val) (unit : Fc → Option Nat) (s : State) (c : Fc) : Fx :=
  match scratchAddr c.d opcode (b c) (off c) with
  | .error (cause, dt) => .fault cause dt c.f.port 0
  | .ok a =>
    let bank := a / 2 ^ 20
    let q := outReq s c cmd a (bgStation bank)
    .done [] fun s => peSend c.k {
      src := clStation c.cl, dstn := bgStation bank, dstp := bank % 8, ring := 0, cmd := cmd, vn := vnReq, epoch := 0,
      init := c.cl, f := reqF a q.txn (c.k % 17), body := .units (unit c).toList,
      who := some (c.f.ctx, c.f.iter, c.cl * 16 + (logPe s c.cl (c.k % 17)).getD 0, c.f.ia), asker := .pe c.k }
      (addReq c.k q s)

/-- A read-like operation: base in L, offset in R. -/
def readFx (opcode cmd : Nat) : State → Fc → Fx := scratchFx opcode cmd (·.l) (·.r) (fun _ => none)

/-- A write-like operation: value in L, base in R, offset in T. -/
def writeFx (opcode cmd : Nat) : State → Fc → Fx := scratchFx opcode cmd (·.r) (·.t) (fun c => some c.l.n)

/-- CAPNARROW (R110): a capability inside L's region with a subset of its rights. -/
def capnarrowFx (_ : State) (c : Fc) : Fx :=
  let l := c.l.n
  let p := c.w.w3
  let bad : Fx := .fault 0x09 (bits l 9 16) c.f.port 0
  if !c.l.cap then bad
  else if bits l 53 1 = 1 then (if c.r.n = 0 ∧ c.t.n = 0 ∧ p = 0 then toAll c c.l else bad)
  else if c.r.n % 8 ≠ 0 ∨ bits l 25 25 < c.r.n + c.t.n ∨ bits l 50 3 &&& p ≠ p then bad
  else
    let v := (bits l 0 25 + c.r.n) % 2 ^ 25 + c.t.n % 2 ^ 25 * 2 ^ 25 + p * 2 ^ 50
    toAll c ⟨BitVec.ofNat 64 v, tySaddr, true⟩

/-- What LOAD computes (R108). -/
def loadFx : State → Fc → Fx := readFx 0x1C0 0x10

/-- LOAD (R108). -/
def execLoad (f : Fire) (s : State) : Host.Outcome State Fault Refusal := act 5 s (fireEff f 0x1c0 loadFx)

/-- What STORE computes (R108). -/
def storeFx : State → Fc → Fx := writeFx 0x1C1 0x11

/-- STORE (R108). -/
def execStore (f : Fire) (s : State) : Host.Outcome State Fault Refusal := act 5 s (fireEff f 0x1c1 storeFx)

/-- What BSET computes (R108). -/
def bsetFx : State → Fc → Fx := writeFx 0x1C2 0x12

/-- BSET (R108). -/
def execBset (f : Fire) (s : State) : Host.Outcome State Fault Refusal := act 5 s (fireEff f 0x1c2 bsetFx)

/-- What BCLR computes (R108). -/
def bclrFx : State → Fc → Fx := writeFx 0x1C3 0x13

/-- BCLR (R108). -/
def execBclr (f : Fire) (s : State) : Host.Outcome State Fault Refusal := act 5 s (fireEff f 0x1c3 bclrFx)

/-- What IREAD computes (R108). -/
def ireadFx : State → Fc → Fx := readFx 0x1C4 0x14

/-- IREAD (R108). -/
def execIread (f : Fire) (s : State) : Host.Outcome State Fault Refusal := act 5 s (fireEff f 0x1c4 ireadFx)

/-- What IWRITE computes (R108). -/
def iwriteFx : State → Fc → Fx := writeFx 0x1C5 0x15

/-- IWRITE (R108). -/
def execIwrite (f : Fire) (s : State) : Host.Outcome State Fault Refusal := act 5 s (fireEff f 0x1c5 iwriteFx)

/-- What ICLEAR computes (R108). -/
def iclearFx : State → Fc → Fx := readFx 0x1C6 0x16

/-- ICLEAR (R108). -/
def execIclear (f : Fire) (s : State) : Host.Outcome State Fault Refusal := act 5 s (fireEff f 0x1c6 iclearFx)

/-- What MTAKE computes (R108). -/
def mtakeFx : State → Fc → Fx := readFx 0x1C7 0x17

/-- MTAKE (R108). -/
def execMtake (f : Fire) (s : State) : Host.Outcome State Fault Refusal := act 5 s (fireEff f 0x1c7 mtakeFx)

/-- What MPUT computes (R108). -/
def mputFx : State → Fc → Fx := writeFx 0x1C8 0x18

/-- MPUT (R108). -/
def execMput (f : Fire) (s : State) : Host.Outcome State Fault Refusal := act 5 s (fireEff f 0x1c8 mputFx)

/-- CAPNARROW (R110). -/
def execCapnarrow (f : Fire) (s : State) : Host.Outcome State Fault Refusal := act 5 s (fireEff f 0x1c9 capnarrowFx)

end Sys2Proof.Machine
end

