-- ==== Sys2Proof/Machine/PeConv.lean ====
section
/-! DEFINITION. The conversion and type class of PE instructions (R102, R103). -/

namespace Sys2Proof.Machine

open Sys2Proof

/-- The signed 24-bit code in bits 31:8 of a sample word. -/
def sampleCode (n : Nat) : Int := signed 24 (bits n 8 24)

/-- RETYPE: TAG and CTXREF only in ring 0; BOOL clears bits 63:1, TAG clears bit 0 (R103). -/
def retypeFx (_ : State) (c : Fc) : Fx :=
  let ty := c.w.typex
  if (ty = tyTag ∨ ty = tyCtxref) ∧ c.d.ring ≠ 0 then .fault 0x0A 0 c.f.port 0
  else toAll c (.of ty (if ty = tyBool then c.l.n % 2 else if ty = tyTag then c.l.n - c.l.n % 2 else c.l.n))

/-- What CVTIF computes (R102). -/
def cvtifFx : State → Fc → Fx := pure1 fun c => .of tyF64 (Fp.ofInt Fp.b64 c.l.v.toInt 0)

/-- CVTIF (R102). -/
def execCvtif (f : Fire) (s : State) : Host.Outcome State Fault Refusal := act 5 s (fireEff f 0x140 cvtifFx)

/-- What CVTFI computes (R102). -/
def cvtfiFx : State → Fc → Fx := pure1 fun c => .of tyI64 (wrap 64 (Fp.toI64 c.l.n))

/-- CVTFI (R102). -/
def execCvtfi (f : Fire) (s : State) : Host.Outcome State Fault Refusal := act 5 s (fireEff f 0x141 cvtfiFx)

/-- What CVTDS computes (R102). -/
def cvtdsFx : State → Fc → Fx := pure1 fun c => .of tyF32X2 (pair (Fp.narrow c.l.n) 0)

/-- CVTDS (R102). -/
def execCvtds (f : Fire) (s : State) : Host.Outcome State Fault Refusal := act 5 s (fireEff f 0x142 cvtdsFx)

/-- What CVTSD computes (R102). -/
def cvtsdFx : State → Fc → Fx := pure1 fun c => .of tyF64 (Fp.widen true c.l.lo)

/-- CVTSD (R102). -/
def execCvtsd (f : Fire) (s : State) : Host.Outcome State Fault Refusal := act 5 s (fireEff f 0x143 cvtsdFx)

/-- What CVTIS computes (R102). -/
def cvtisFx : State → Fc → Fx := pure1 fun c => .of tyF32X2 (pair (Fp.ofInt Fp.b32 c.l.v.toInt 0) 0)

/-- CVTIS (R102). -/
def execCvtis (f : Fire) (s : State) : Host.Outcome State Fault Refusal := act 5 s (fireEff f 0x144 cvtisFx)

/-- What SMPF computes (R102). -/
def smpfFx : State → Fc → Fx := pure1 fun c => .of tyF32X2 (pair (Fp.ofInt Fp.b32 (sampleCode c.l.n) (-23)) 0)

/-- SMPF (R102). -/
def execSmpf (f : Fire) (s : State) : Host.Outcome State Fault Refusal := act 5 s (fireEff f 0x145 smpfFx)

/-- What SMPSTAT computes (R102). -/
def smpstatFx : State → Fc → Fx := pure1 fun c => .of tyI64 (bits c.l.n 0 8)

/-- SMPSTAT (R102). -/
def execSmpstat (f : Fire) (s : State) : Host.Outcome State Fault Refusal := act 5 s (fireEff f 0x146 smpstatFx)

/-- What SMPCH computes (R102). -/
def smpchFx : State → Fc → Fx := pure1 fun c => .of tyI64 (bits c.l.n 32 10)

/-- SMPCH (R102). -/
def execSmpch (f : Fire) (s : State) : Host.Outcome State Fault Refusal := act 5 s (fireEff f 0x147 smpchFx)

/-- What SMPSEQ computes (R102). -/
def smpseqFx : State → Fc → Fx := pure1 fun c => .of tyI64 (bits c.l.n 42 22)

/-- SMPSEQ (R102). -/
def execSmpseq (f : Fire) (s : State) : Host.Outcome State Fault Refusal := act 5 s (fireEff f 0x148 smpseqFx)

/-- What PACK computes (R102). -/
def packFx : State → Fc → Fx := pure1 fun c => .of tyF32X2 (pair c.l.lo c.r.lo)

/-- PACK (R102). -/
def execPack (f : Fire) (s : State) : Host.Outcome State Fault Refusal := act 5 s (fireEff f 0x149 packFx)

/-- What LANE1 computes (R102). -/
def lane1Fx : State → Fc → Fx := pure1 fun c => .of tyF32X2 (pair c.l.hi 0)

/-- LANE1 (R102). -/
def execLane1 (f : Fire) (s : State) : Host.Outcome State Fault Refusal := act 5 s (fireEff f 0x14a lane1Fx)

/-- RETYPE (R103). -/
def execRetype (f : Fire) (s : State) : Host.Outcome State Fault Refusal := act 5 s (fireEff f 0x14b retypeFx)

/-- What TYPEOF computes (R102). -/
def typeofFx : State → Fc → Fx := pure1 fun c => .of tyI64 c.l.ty

/-- TYPEOF (R102). -/
def execTypeof (f : Fire) (s : State) : Host.Outcome State Fault Refusal := act 5 s (fireEff f 0x14c typeofFx)

/-- What ISCAP computes (R102). -/
def iscapFx : State → Fc → Fx := pure1 fun c => .of tyBool (bit c.l.cap)

/-- ISCAP (R102). -/
def execIscap (f : Fire) (s : State) : Host.Outcome State Fault Refusal := act 5 s (fireEff f 0x14d iscapFx)

end Sys2Proof.Machine
end

