-- ==== Sys2Proof/Machine/PePhase.lean ====
section
/-! DEFINITION. The phase and drive operations of PE instructions (R111, R112, R165, R166, R175). -/

namespace Sys2Proof.Machine

open Sys2Proof

/-- What the cluster holds of the context's phase source. -/
def srcAt (s : State) (c : Fc) : BusSrc := s.bs (c.cl * 16 + c.d.phsrc)

/-- The source is OFF (R166). -/
def srcOff (s : State) (c : Fc) : Bool := bits (srcAt s c).status 0 3 == 0

/-- PHSTAMP: DST1 takes L without its flag, DST2 the phase word (R111, R175). -/
def phstampFx (s : State) (c : Fc) : Fx :=
  if srcOff s c then .fault 0x34 c.d.phsrc c.f.port 0
  else .done ((if c.w.d1.en then [toDst c.w.d1 c.l.plain] else [])
    ++ (if c.w.d2.en then [toDst c.w.d2 (.of tyPhase (srcAt s c).pb)] else [])) id

/-- PHREL: L enters the phase gate with its release phase, in an entry reserved at issue (R111, R165, R166). -/
def phrelFx (s : State) (c : Fc) : Fx :=
  if srcOff s c then .fault 0x34 c.d.phsrc c.f.port 0
  else if !c.w.d1.en then .done [] id
  else if 512 ≤ gateUsed s c.cl then .fault 0x31 c.d.phsrc c.f.port 0
  else
    let rel := if c.r.ty = tyPhase then c.r.n else ((srcAt s c).pb + c.r.n) % 2 ^ 64
    .done [{ toDst c.w.d1 c.l with rel := some rel }] fun s =>
      gateHwm c.cl (s.updCl c.cl fun g => { g with reserved := g.reserved + 1 })

/-- PHTIME: pu over velocity, each conversion and the division rounded (R111). -/
def phtime (l r : Val) : Val :=
  .of tyF64 (Fp.div Fp.b64 (Fp.ofInt Fp.b64 l.v.toInt (-32)) (Fp.ofInt Fp.b64 r.v.toInt (-32)))

/-- DRVPUT: the value leaves for drive channel DRVFIRST + index over TOK (R112, R224). -/
def drvputFx (_ : State) (c : Fc) : Fx :=
  let ch := (c.d.drvfirst + c.w.w3) % 256
  .done [] (peSend c.k {
    src := clStation c.cl, dstn := 12, dstp := 0, ring := 0, cmd := 0x03, vn := vnTok, epoch := 0, init := c.cl, f := ch + c.f.ctx * 2 ^ 8 + c.l.ty * 2 ^ 64, body := .units [c.l.n], who := none, asker := .nobody })

/-- PHSTAMP (R111). -/
def execPhstamp (f : Fire) (s : State) : Host.Outcome State Fault Refusal := act 5 s (fireEff f 0x200 phstampFx)

/-- PHREL (R111, R166). -/
def execPhrel (f : Fire) (s : State) : Host.Outcome State Fault Refusal := act 5 s (fireEff f 0x201 phrelFx)

/-- What PHADD computes (R111). -/
def phaddFx : State → Fc → Fx := pure1 fun c => ⟨c.l.v + c.r.v, tyPhase, false⟩

/-- PHADD (R111). -/
def execPhadd (f : Fire) (s : State) : Host.Outcome State Fault Refusal := act 5 s (fireEff f 0x202 phaddFx)

/-- What PHSUB computes (R111). -/
def phsubFx : State → Fc → Fx := pure1 fun c => vI (c.l.v - c.r.v)

/-- PHSUB (R111). -/
def execPhsub (f : Fire) (s : State) : Host.Outcome State Fault Refusal := act 5 s (fireEff f 0x203 phsubFx)

/-- What PHTURNS computes (R111). -/
def phturnsFx : State → Fc → Fx := pure1 fun c => .of tyI64 (wrap 64 (signed 32 (bits c.l.n 32 32)))

/-- PHTURNS (R111). -/
def execPhturns (f : Fire) (s : State) : Host.Outcome State Fault Refusal := act 5 s (fireEff f 0x204 phturnsFx)

/-- What PHFRAC computes (R111). -/
def phfracFx : State → Fc → Fx := pure1 fun c => .of tyI64 (bits c.l.n 0 32)

/-- PHFRAC (R111). -/
def execPhfrac (f : Fire) (s : State) : Host.Outcome State Fault Refusal := act 5 s (fireEff f 0x205 phfracFx)

/-- What PHTIME computes (R111). -/
def phtimeFx : State → Fc → Fx := pure1 fun c => phtime c.l c.r

/-- PHTIME (R111). -/
def execPhtime (f : Fire) (s : State) : Host.Outcome State Fault Refusal := act 5 s (fireEff f 0x206 phtimeFx)

/-- DRVPUT (R112). -/
def execDrvput (f : Fire) (s : State) : Host.Outcome State Fault Refusal := act 5 s (fireEff f 0x207 drvputFx)

end Sys2Proof.Machine
end

