-- ==== Sys2Proof/Machine/PeSteer.lean ====
section
/-! DEFINITION. The compare and steer class of PE instructions (R98 to R101). -/

namespace Sys2Proof.Machine

open Sys2Proof

/-- A BOOL result. -/
def vB (b : Bool) : Val := .of tyBool (bit b)

/-- The value sent by a SWITCH: to DST1 when R is true, else to DST2 (R99). -/
def switchFx (_ : State) (c : Fc) : Fx :=
  let d := if c.r.n % 2 = 1 then c.w.d1 else c.w.d2
  .done (if d.en then [toDst d c.l] else []) id

/-- FORK: DST1, DST2, then the destinations of the extension words in order (R101). For a word placed through the store window
whose IA + k lies beyond 4,095 the manual gives no wrap and no fault: the words beyond the store read as zero and name no
destination (DESIGN CHOICE, log entry 76). -/
def forkFx (s : State) (c : Fc) : Fx :=
  let ext := ((List.range c.w.w3).map fun i => extDests (word s c.k (c.f.ia + 1 + i))).flatten.filter (·.en)
  .done ((c.w.dests ++ ext).map (toDst · c.l)) id

/-- NDMERGE: ITER of each result is the number that the token took from the sequence counter (R100). -/
def ndmergeFx (_ : State) (c : Fc) : Fx :=
  .done (c.w.dests.map fun d => { toDst d c.l with iter := c.f.t.map (·.n) }) id

/-- What CMPEQ computes (R98). -/
def cmpeqFx : State → Fc → Fx := pure1 fun c => vB (c.l.v == c.r.v)

/-- CMPEQ (R98). -/
def execCmpeq (f : Fire) (s : State) : Host.Outcome State Fault Refusal := act 5 s (fireEff f 0x100 cmpeqFx)

/-- What CMPNE computes (R98). -/
def cmpneFx : State → Fc → Fx := pure1 fun c => vB (c.l.v != c.r.v)

/-- CMPNE (R98). -/
def execCmpne (f : Fire) (s : State) : Host.Outcome State Fault Refusal := act 5 s (fireEff f 0x101 cmpneFx)

/-- What CMPLT computes (R98). -/
def cmpltFx : State → Fc → Fx := pure1 fun c => vB (c.l.v.slt c.r.v)

/-- CMPLT (R98). -/
def execCmplt (f : Fire) (s : State) : Host.Outcome State Fault Refusal := act 5 s (fireEff f 0x102 cmpltFx)

/-- What CMPLE computes (R98). -/
def cmpleFx : State → Fc → Fx := pure1 fun c => vB (c.l.v.sle c.r.v)

/-- CMPLE (R98). -/
def execCmple (f : Fire) (s : State) : Host.Outcome State Fault Refusal := act 5 s (fireEff f 0x103 cmpleFx)

/-- What CMPLTU computes (R98). -/
def cmpltuFx : State → Fc → Fx := pure1 fun c => vB (c.l.v.ult c.r.v)

/-- CMPLTU (R98). -/
def execCmpltu (f : Fire) (s : State) : Host.Outcome State Fault Refusal := act 5 s (fireEff f 0x104 cmpltuFx)

/-- What CMPLEU computes (R98). -/
def cmpleuFx : State → Fc → Fx := pure1 fun c => vB (c.l.v.ule c.r.v)

/-- CMPLEU (R98). -/
def execCmpleu (f : Fire) (s : State) : Host.Outcome State Fault Refusal := act 5 s (fireEff f 0x105 cmpleuFx)

/-- What FCMPEQ computes (R98). -/
def fcmpeqFx : State → Fc → Fx := pure1 fun c => vB (Fp.eq Fp.b64 c.l.n c.r.n)

/-- FCMPEQ (R98). -/
def execFcmpeq (f : Fire) (s : State) : Host.Outcome State Fault Refusal := act 5 s (fireEff f 0x106 fcmpeqFx)

/-- What FCMPLT computes (R98). -/
def fcmpltFx : State → Fc → Fx := pure1 fun c => vB (Fp.lt Fp.b64 c.l.n c.r.n)

/-- FCMPLT (R98). -/
def execFcmplt (f : Fire) (s : State) : Host.Outcome State Fault Refusal := act 5 s (fireEff f 0x107 fcmpltFx)

/-- What FCMPLE computes (R98). -/
def fcmpleFx : State → Fc → Fx := pure1 fun c => vB (Fp.lt Fp.b64 c.l.n c.r.n || Fp.eq Fp.b64 c.l.n c.r.n)

/-- FCMPLE (R98). -/
def execFcmple (f : Fire) (s : State) : Host.Outcome State Fault Refusal := act 5 s (fireEff f 0x108 fcmpleFx)

/-- What FCMPUN computes (R98). -/
def fcmpunFx : State → Fc → Fx := pure1 fun c => vB (Fp.isNan Fp.b64 c.l.n || Fp.isNan Fp.b64 c.r.n)

/-- FCMPUN (R98). -/
def execFcmpun (f : Fire) (s : State) : Host.Outcome State Fault Refusal := act 5 s (fireEff f 0x109 fcmpunFx)

/-- What PHCMPLT computes (R98). -/
def phcmpltFx : State → Fc → Fx := pure1 fun c => vB (c.l.v - c.r.v).msb

/-- PHCMPLT (R98). -/
def execPhcmplt (f : Fire) (s : State) : Host.Outcome State Fault Refusal := act 5 s (fireEff f 0x10a phcmpltFx)

/-- What IDENT computes (R99). The capability flag passes (R44). -/
def identFx : State → Fc → Fx := pure1 fun c => c.l

/-- IDENT (R99). The capability flag passes (R44). -/
def execIdent (f : Fire) (s : State) : Host.Outcome State Fault Refusal := act 5 s (fireEff f 0x110 identFx)

/-- FORK (R101). -/
def execFork (f : Fire) (s : State) : Host.Outcome State Fault Refusal := act 5 s (fireEff f 0x111 forkFx)

/-- SWITCH (R99). -/
def execSwitch (f : Fire) (s : State) : Host.Outcome State Fault Refusal := act 5 s (fireEff f 0x112 switchFx)

/-- What MERGE computes (R100). -/
def mergeFx : State → Fc → Fx := pure1 fun c => c.l

/-- MERGE (R100). -/
def execMerge (f : Fire) (s : State) : Host.Outcome State Fault Refusal := act 5 s (fireEff f 0x113 mergeFx)

/-- NDMERGE (R100). -/
def execNdmerge (f : Fire) (s : State) : Host.Outcome State Fault Refusal := act 5 s (fireEff f 0x114 ndmergeFx)

/-- What SELECT computes (R99). -/
def selectFx : State → Fc → Fx := pure1 fun c => if c.t.n % 2 = 1 then c.l.plain else c.r.plain

/-- SELECT (R99). -/
def execSelect (f : Fire) (s : State) : Host.Outcome State Fault Refusal := act 5 s (fireEff f 0x115 selectFx)

/-- What SYNC computes (R99). -/
def syncFx : State → Fc → Fx := pure1 fun c => c.l.plain

/-- SYNC (R99). -/
def execSync (f : Fire) (s : State) : Host.Outcome State Fault Refusal := act 5 s (fireEff f 0x116 syncFx)

/-- What SINK computes (R99). -/
def sinkFx : State → Fc → Fx := fun _ _ => .done [] id

/-- SINK (R99). -/
def execSink (f : Fire) (s : State) : Host.Outcome State Fault Refusal := act 5 s (fireEff f 0x117 sinkFx)

end Sys2Proof.Machine
end

