-- ==== Sys2Proof/Machine/PeBody.lean ====
section
/-! DEFINITION. The bodies of all PE instructions by opcode, for the single firing of the debug port (R92, R447). -/

namespace Sys2Proof.Machine

open Sys2Proof

def peBodies0 : List (Nat × (State → Fc → Fx)) := [
  (0x000, addFx),
  (0x001, subFx),
  (0x002, mulFx),
  (0x003, mulhsFx),
  (0x004, mulhuFx),
  (0x005, maddFx),
  (0x006, opAndFx),
  (0x007, opOrFx),
  (0x008, opXorFx),
  (0x009, opNotFx),
  (0x00a, shlFx),
  (0x00b, shrFx),
  (0x00c, sarFx),
  (0x00d, opNegFx),
  (0x00e, opAbsFx),
  (0x00f, opMinFx),
  (0x010, opMaxFx),
  (0x011, minuFx),
  (0x012, maxuFx),
  (0x013, clzFx),
  (0x014, popcFx),
  (0x040, faddFx),
  (0x041, fsubFx),
  (0x042, fmulFx)]

def peBodies1 : List (Nat × (State → Fc → Fx)) := [
  (0x043, fdivFx),
  (0x044, fsqrtFx),
  (0x045, fmaFx),
  (0x046, fminFx),
  (0x047, fmaxFx),
  (0x048, fabsFx),
  (0x049, fnegFx),
  (0x080, paddFx),
  (0x081, psubFx),
  (0x082, pmulFx),
  (0x083, pfmaFx),
  (0x084, pdivFx),
  (0x085, psqrtFx),
  (0x086, pminFx),
  (0x087, pmaxFx),
  (0x088, pabsFx),
  (0x089, pnegFx),
  (0x08a, psumFx),
  (0x08b, pswapFx),
  (0x0c0, caddFx),
  (0x0c1, csubFx),
  (0x0c2, cmulFx),
  (0x0c3, cmuljFx),
  (0x0c4, cmacFx)]

def peBodies2 : List (Nat × (State → Fc → Fx)) := [
  (0x0c5, cmacjFx),
  (0x0c6, cconjFx),
  (0x0c7, cnegFx),
  (0x0c8, cabs2Fx),
  (0x0c9, cscaleFx),
  (0x100, cmpeqFx),
  (0x101, cmpneFx),
  (0x102, cmpltFx),
  (0x103, cmpleFx),
  (0x104, cmpltuFx),
  (0x105, cmpleuFx),
  (0x106, fcmpeqFx),
  (0x107, fcmpltFx),
  (0x108, fcmpleFx),
  (0x109, fcmpunFx),
  (0x10a, phcmpltFx),
  (0x110, identFx),
  (0x111, forkFx),
  (0x112, switchFx),
  (0x113, mergeFx),
  (0x114, ndmergeFx),
  (0x115, selectFx),
  (0x116, syncFx),
  (0x117, sinkFx)]

def peBodies3 : List (Nat × (State → Fc → Fx)) := [
  (0x140, cvtifFx),
  (0x141, cvtfiFx),
  (0x142, cvtdsFx),
  (0x143, cvtsdFx),
  (0x144, cvtisFx),
  (0x145, smpfFx),
  (0x146, smpstatFx),
  (0x147, smpchFx),
  (0x148, smpseqFx),
  (0x149, packFx),
  (0x14a, lane1Fx),
  (0x14b, retypeFx),
  (0x14c, typeofFx),
  (0x14d, iscapFx),
  (0x180, mkcontFx),
  (0x181, ctxnewFx),
  (0x182, gatecallFx),
  (0x183, sendctxFx),
  (0x184, returnFx),
  (0x185, chgpeFx),
  (0x186, senddevFx),
  (0x187, iterenterFx),
  (0x188, iterretFx),
  (0x189, sendtagFx)]

def peBodies4 : List (Nat × (State → Fc → Fx)) := [
  (0x18a, itergetFx),
  (0x1c0, loadFx),
  (0x1c1, storeFx),
  (0x1c2, bsetFx),
  (0x1c3, bclrFx),
  (0x1c4, ireadFx),
  (0x1c5, iwriteFx),
  (0x1c6, iclearFx),
  (0x1c7, mtakeFx),
  (0x1c8, mputFx),
  (0x1c9, capnarrowFx),
  (0x200, phstampFx),
  (0x201, phrelFx),
  (0x202, phaddFx),
  (0x203, phsubFx),
  (0x204, phturnsFx),
  (0x205, phfracFx),
  (0x206, phtimeFx),
  (0x207, drvputFx)]

/-- The body of an opcode that has one. -/
def bodyOf (op : Nat) : Option (State → Fc → Fx) :=
  ((peBodies0 ++ peBodies1 ++ peBodies2 ++ peBodies3 ++ peBodies4).find? (·.1 == op)).map (·.2)

end Sys2Proof.Machine
end

