-- ==== Sys2Proof/Machine/Debug.lean ====
section
/-! DEFINITION. The serial debug port, its rights and authentication, the halts of cores and clusters, and the TAP (R439 to
R451). -/

namespace Sys2Proof.Machine

open Sys2Proof

/-! ### Rights (R442) -/

/-- The rights in force: all in OPEN, none in DISABLED. -/
def dbgRights (s : State) : Nat :=
  if s.lifecycle = 0 then 0x3F else if s.lifecycle = 1 then rd s F.dbgPortstatRights else 0

/-- The port has a right: 0 CORE, 1 CLUSTER, 2 MEM, 3 WRITE, 4 RESET, 5 PROVISION. -/
def hasRight (s : State) (k : Nat) : Bool := (dbgRights s).testBit k

def setErr (e : Nat) (s : State) : State := put s F.dbgPortstatErr e

/-- A write that needs a right which the session lacks changes nothing but ERR. -/
def withRight (k : Nat) (f : State → State) (s : State) : State := if hasRight s k then f s else setErr 2 s

/-! ### Answers and accesses (R439 to R441) -/

def ackOk (data : Option Nat) (s : State) : State := emitOut (.sdp 1 data) s
def ackWait (s : State) : State := emitOut (.sdp 2 none) s
def ackFault (s : State) : State := emitOut (.sdp 4 none) s

/-- A frame answered FAULT with ERR set. -/
def refuseFrame (e : Nat) (s : State) : State := ackFault (setErr e s)

/-- A frame that is executed; one whose CRC fails or whose CMD is reserved is not. -/
def frame (fr : Frame) (f : State → State) (s : State) : State :=
  if !fr.crcOk then refuseFrame 1 s else if !fr.cmdOk then refuseFrame 3 s else f s

/-- DBG_PORTSTAT as it reads. -/
def portStat (s : State) : Nat :=
  dbgRights s * 2 ^ 8 + rd s F.dbgPortstatAuthfails * 2 ^ 16 + rd s F.dbgPortstatErr * 2 ^ 24
    + rd s F.dbgPortstatBusy * 2 ^ 28 + rd s F.dbgPortstatLocked * 2 ^ 29 + s.lifecycle * 2 ^ 30

/-- GEN_ID as it reads (R32). -/
def genId (s : State) : Nat := s.stepping % 16 * 2 ^ 8 + s.variant % 16 * 2 ^ 12 + 0x9400 * 2 ^ 16

/-- An address lies in the DBG block. -/
def inDbg (a : Nat) : Bool := 0x120000 ≤ a && a < 0x130000

/-- The rights that a write of a DBG register needs: those of the bits it sets or changes. -/
def dbgNeeds (s : State) (off v : Nat) : Nat :=
  if off = 0x40 then
    (if bits v 4 3 ≠ 0 then 32 else 0) + (if v.testBit 3 then 16 else 0)
      + (if bits v 2 1 ≠ rd s F.dbgCtlForce then 2 else 0) + (if bits v 0 1 ≠ rd s F.dbgCtlAttach then 1 else 0)
  else if 0x100 ≤ off ∧ off < 0x200 then 1
  else if 0x400 ≤ off ∧ off < 0xC00 then 2
  else 0

/-- The session has every right that an access needs. -/
def mayAccess (s : State) (wr : Option Nat) (a : Nat) : Bool :=
  let has (m : Nat) : Bool := dbgRights s &&& m == m
  s.lifecycle != 3 &&
    (match wr with
     | some v => if inDbg a then has (dbgNeeds s (a - 0x120000) (v % 2 ^ 32)) else has 0xC
     | none => inDbg a || has 4)

/-- A READ or WRITE frame issues its access; an address that no block holds is sent to station 0, which answers it. -/
def sdpAccess (wr : Option Nat) (a : Nat) (s : State) : State :=
  if rd s F.dbgPortstatErr ≠ 0 then ackFault s
  else if !mayAccess s wr a then refuseFrame 2 s
  else if a % 8 ≠ 0 then refuseFrame 4 s
  else if rdB s F.dbgPortstatBusy then ackWait s
  else
    match (addrStation a).getD (0, 0) with
    | (st, port) =>
      let s1 := { put s F.dbgPortstatBusy 1 with dbgBusy := if wr.isNone then 1 else 2 }
      ackOk none (match wr with
        | some v => request 0 st port 0x41 0x5D a [v % 2 ^ 64] .sdp s1
        | none => request 0 st port 0x40 0x5D a [8] .sdp s1)

/-- RDBUF waits only for a READ that has not completed. -/
def rdbufEff (s : State) : State :=
  if rd s F.dbgPortstatErr ≠ 0 then ackFault s
  else if s.lifecycle = 3 then refuseFrame 2 s
  else if s.dbgBusy = 1 then ackWait s
  else ackOk (some s.dbgData) s

/-- The answer of the port's access. -/
def sdpAnswer (status v : Nat) (s : State) : State :=
  let s1 := { put s F.dbgPortstatBusy 0 with dbgBusy := 0 }
  if status ≠ stOK then setErr (8 + status) s1 else if s.dbgBusy = 1 then { s1 with dbgData := v % 2 ^ 64 } else s1

/-- The access outstanding is given up: its answer will be discarded. -/
def dropAccess (s : State) : State :=
  let s1 := s.updStn 0 fun x => { x with pend := x.pend.filter (·.asker != .sdp) }
  { put s1 F.dbgPortstatBusy 0 with dbgBusy := 0 }

/-! ### Halts (R445 to R448) -/

def coreHaltEff (c : Nat) (s : State) : State :=
  if c < 4 && (coreState s c == 1 || coreState s c == 2) then debugHalt c s else s

/-- A core runs again; WDOG did not count while it was halted. -/
def coreResumeEff (c : Nat) (s : State) : State :=
  if c < 4 && coreState s c == 4 then
    put (forAll [c * 2, c * 2 + 1] (fun t s => s.updThr t fun th =>
      { th with stepping := false, wdogSince := th.wdogSince + (s.now - th.haltAt) }) s)
      (F.supCorestatState c) (runState s c)
  else s

def coreStepEff (c : Nat) (s : State) : State :=
  if c < 4 && coreState s c == 4 then
    s.updThr (c * 2 + rd s (F.dbgCorectlThread c)) fun th => { th with stepping := true }
  else s

/-- The cluster places instructions of a context that has drive channels. -/
def placesDrive (s : State) (cl : Nat) : Bool :=
  (busyCtxs s).any fun c => (s.ctx c).d.drvcount != 0 && (List.range 16).any fun l => templateOn s (s.ctx c).d.tmpl (cl * 16 + l)

def clHaltEff (cl : Nat) (s : State) : State :=
  if 16 ≤ cl then s
  else if placesDrive s cl && !rdB s F.dbgCtlForce then putOr s F.dbgClstatRefused (2 ^ cl)
  else s.updCl cl fun c => { c with halted := true }

def clResumeEff (cl : Nat) (s : State) : State := s.updCl cl fun c => { c with halted := false }

/-- One firing of a halted cluster at a physical PE. -/
def clFireEff (f : Fire) (s : State) : State :=
  if 16 ≤ f.cl ∨ (s.cl f.cl).halted = false then s
  else
    match nextSet s (f.cl * 17 + f.pe) with
    | none => s
    | some (g, _) =>
      let op := (Insn.decode (word s (f.cl * 17 + f.pe) g.ia)).opcode
      match bodyOf op with
      | some b => fireAs true f op b s
      | none => fireAs true f 0 addFx s

/-! ### Authentication and lifecycle (R442 to R444) -/

/-- Bytes of DBG_AUTHBUF. -/
def authBytes (s : State) (off n : Nat) : List Nat :=
  (List.range n).map fun i => bits (mget 0 s.authBuf ((off + i) / 4)) (8 * ((off + i) % 4)) 8

def authGoEff (s : State) : State :=
  if s.lifecycle = 3 then setErr 2 s else if s.authBusy || rdB s F.dbgPortstatLocked then s else { s with authBusy := true }

/-- The rights that a request is granted; none where its verification fails. A service key never grants PROVISION. -/
def granted (s : State) : Option Nat :=
  let word := authBytes s 0 8
  let key := authBytes s 8 68
  let hash := shake256 key 32
  let own := hash == s.fwKeyHash
  let msg := natBytes 32 (Config.challenge s.challengeNo).toNat ++ shake256 Config.identityKey 32 ++ word
  if (own || (cfgOf s).keySlots.contains (some hash)) && Config.sigVerify key msg (authBytes s 0x50 2820) then
    some (ofLe word % (if own then 64 else 32))
  else none

def authDoneEff (s : State) : State :=
  if !s.authBusy then s
  else
    let s1 := { s with authBusy := false, challengeNo := s.challengeNo + 1 }
    match granted s with
    | some r => put s1 F.dbgPortstatRights r
    | none =>
      let s2 := event 16 0 0 (putSat s1 F.dbgPortstatAuthfails 1)
      if 8 ≤ rd s2 F.dbgPortstatAuthfails && !rdB s2 F.dbgPortstatLocked then event 16 1 0 (put s2 F.dbgPortstatLocked 1) else s2

def provisionEff (s : State) : State := if s.lifecycle = 0 then { s with lifecycle := 1 } else s

def disableEff (s : State) : State := { s with lifecycle := 3 }

/-- The service key slots are cleared, and then the device is reset. -/
def provresetEff (s : State) : State :=
  commandReset 3 (cfgWrite (fun c => { c with keySlots := [none, none, none, none] }) s)

/-- The session of the port is reset (R449). -/
def sessResetEff (s : State) : State :=
  let s1 := put (put (setErr 0 (dropAccess s)) F.dbgPortstatRights 0) F.dbgCtlAttach 0
  let s2 := forAll (List.range 16) clResumeEff (forAll (List.range 4) coreResumeEff s1)
  abandonLocks (fun h => h / 256 == 0x5D) { s2 with authBusy := false, challengeNo := s2.challengeNo + 1 }

/-! ### The rows -/

/-- SDP_IDCODE (R440). -/
def execSdpIdcode (fr : Frame) (s : State) : Host.Outcome State Fault Refusal :=
  act 1 s (frame fr fun s => ackOk (some (genId s + s.lifecycle * 2 ^ 32)) s)

/-- SDP_STATUS (R440). -/
def execSdpStatus (fr : Frame) (s : State) : Host.Outcome State Fault Refusal :=
  act 1 s (frame fr fun s => ackOk (some (portStat s)) s)

/-- SDP_READ (R441). -/
def execSdpRead (fr : Frame) (addr : Nat) (s : State) : Host.Outcome State Fault Refusal :=
  act 3 s (frame fr (sdpAccess none addr))

/-- SDP_WRITE (R441). -/
def execSdpWrite (fr : Frame) (addr data : Nat) (s : State) : Host.Outcome State Fault Refusal :=
  act 3 s (frame fr (sdpAccess (some data) addr))

/-- SDP_RDBUF (R440). -/
def execSdpRdbuf (fr : Frame) (s : State) : Host.Outcome State Fault Refusal := act 1 s (frame fr rdbufEff)

/-- SDP_ABORT (R440). -/
def execSdpAbort (fr : Frame) (s : State) : Host.Outcome State Fault Refusal :=
  act 1 s (frame fr fun s => ackOk none (setErr 0 (dropAccess s)))

/-- SESSRESET (R449). -/
def execSessreset (fr : Frame) (s : State) : Host.Outcome State Fault Refusal :=
  act 1 s (frame fr fun s => ackOk none (sessResetEff s))

/-- SDP_LINE_RESET (R439): a partial frame has changed nothing. -/
def execSdpLineReset (s : State) : Host.Outcome State Fault Refusal := .next s

/-- DBG_AUTHGO (R443). -/
def execDbgAuthgo (s : State) : Host.Outcome State Fault Refusal := act 1 s authGoEff

/-- AUTH_VERIFY_DONE (R443). -/
def execAuthVerifyDone (s : State) : Host.Outcome State Fault Refusal := act 1 s authDoneEff

/-- DBG_PROVISION (R444). -/
def execDbgProvision (s : State) : Host.Outcome State Fault Refusal := act 1 s (withRight 5 provisionEff)

/-- DBG_DISABLE (R444). -/
def execDbgDisable (s : State) : Host.Outcome State Fault Refusal := act 1 s (withRight 5 disableEff)

/-- DBG_PROVRESET (R444). -/
def execDbgProvreset (s : State) : Host.Outcome State Fault Refusal := act 1 s (withRight 5 provresetEff)

/-- DBG_DEVRESET (R444). -/
def execDbgDevreset (s : State) : Host.Outcome State Fault Refusal := act 1 s (withRight 4 (commandReset 3))

/-- DBG_CORE_HALT (R445). -/
def execDbgCoreHalt (c : Nat) (s : State) : Host.Outcome State Fault Refusal := act 3 s (withRight 0 (coreHaltEff c))

/-- DBG_CORE_STEP (R445). -/
def execDbgCoreStep (c : Nat) (s : State) : Host.Outcome State Fault Refusal := act 3 s (withRight 0 (coreStepEff c))

/-- DBG_CORE_RESUME (R445). -/
def execDbgCoreResume (c : Nat) (s : State) : Host.Outcome State Fault Refusal := act 3 s (withRight 0 (coreResumeEff c))

/-- DBG_CL_HALT (R447). -/
def execDbgClHalt (cl : Nat) (s : State) : Host.Outcome State Fault Refusal := act 3 s (withRight 1 (clHaltEff cl))

/-- DBG_CL_RESUME (R447). -/
def execDbgClResume (cl : Nat) (s : State) : Host.Outcome State Fault Refusal := act 3 s (withRight 1 (clResumeEff cl))

/-- DBG_CL_FIRE (R447). -/
def execDbgClFire (f : Fire) (s : State) : Host.Outcome State Fault Refusal := act 5 s (withRight 1 (clFireEff f))

/-- A TAP instruction becomes current (R451). -/
def setTap (n : Nat) (s : State) : State := { s with tap := n }

/-- TAP_BYPASS (R451). -/
def execTapBypass (s : State) : Host.Outcome State Fault Refusal := .next (setTap 0xF s)

/-- TAP_IDCODE (R451): part code, manufacturer code and stepping leave. -/
def execTapIdcode (s : State) : Host.Outcome State Fault Refusal :=
  .next (emitOut (.tap (s.stepping % 16 * 2 ^ 28 + 0x9400 * 2 ^ 12 + 0x4F5 * 2 + 1)) (setTap 1 s))

/-- TAP_SAMPLE_PRELOAD (R451). -/
def execTapSamplePreload (s : State) : Host.Outcome State Fault Refusal := .next (setTap 2 s)

/-- TAP_EXTEST (R451). -/
def execTapExtest (s : State) : Host.Outcome State Fault Refusal := .next (setTap 0 s)

/-- TAP_CLAMP (R451). -/
def execTapClamp (s : State) : Host.Outcome State Fault Refusal := .next (setTap 4 s)

/-- TAP_HIGHZ (R451). -/
def execTapHighz (s : State) : Host.Outcome State Fault Refusal := .next (setTap 5 s)

end Sys2Proof.Machine
end

