-- ==== Sys2Proof/Machine/PeAnswer.lean ====
section
/-! DEFINITION. Answers at a PE: results of scratch operations, creations and loop entries, loop windows, answers kept while a
context is QUIESCED, and the resumption of a context (R61, R67, R76, R108, R109, R136, R143, R231). -/

namespace Sys2Proof.Machine

open Sys2Proof

/-- The firing that a request came from, as its results and faults name it. -/
def OutReq.firing (q : OutReq) : Firing := ⟨q.ctx, q.iter, q.ia, q.pri, q.port, none, none, none⟩

/-- The cause of an error status, and its DETAIL (R67, R74, R108). -/
def errCause (q : OutReq) (status : Nat) : Nat × Nat :=
  if status = stISFULL then (0x0E, bits q.addr 9 16)
  else if status = stDEFFULL then (0x0F, q.addr / 2 ^ 20)
  else (0x10, bits q.addr 9 16)

/-- An operation whose answer is a word: LOAD, IREAD, MTAKE. -/
def readsWord (cmd : Nat) : Bool := cmd == 0x10 || cmd == 0x14 || cmd == 0x17

/-- The answer of a request formed into the result tokens of its firing, or raised as its fault (R108, R109). -/
def formAnswer (k : Nat) (a : Kept) (s : State) : State :=
  let q := a.req
  if a.status ≠ stOK then
    match errCause q a.status with
    | (c, dt) => firingFault k q.firing c dt q.port 0 s
  else if q.cmd = 0x1C ∧ a.val.ty = tyPoison then firingFault k q.firing 0x0C 0 q.port 0 s
  else
    let es := q.dests.map fun d : Dest =>
      if q.cmd = 0x1C ∧ a.val.ty = tyI64 then (⟨d, q.val, none, none, some (a.val.n % 4096), none⟩ : Emit)
      else ⟨d, a.val, none, none, none, none⟩
    forAll es (emit k q.firing) s

/-- The value that an answer carries to its firing: the word with the type of the instruction, true, a CTXREF, or for
ITERENTER the iteration HEADn as an I64. A creation without a reference, CTXFULL, is marked by POISON. With TYPEX BOOL the word's
bits 63:1 stay as they are, whether they are zero or not: the manual asks for zeros of a BOOL (R42) and for the word (R108)
(DESIGN CHOICE, log entry 76). -/
def answerVal (q : OutReq) (us : List Nat) : Val :=
  if q.cmd = 0x1C then
    (if q.typex = tyCtxref then (match us with | u :: _ => .of tyCtxref u | [] => .of tyPoison 0) else .of tyI64 (us.headD 0))
  else if readsWord q.cmd then .of q.typex (us.headD 0)
  else .of tyBool 1

/-- A loop window answer: the cache takes the entry as its most recently used, and the results parked for it are
checked (R136). -/
def lwcFill (k : Nat) (w : Lwc) (s : State) : State :=
  let p := s.pe k
  let mine (q : Parked) : Bool := match q.why with
    | .loop h => h.tok.tag.ctx == w.ctx && h.loop == w.loop
    | _ => false
  let hs := p.refill.filterMap fun q => if mine q then (match q.why with | .loop h => some h | _ => none) else none
  let s1 := s.setPe k { p with
    lwc := (w :: p.lwc.filter fun v => !(v.ctx == w.ctx && v.loop == w.loop)).take 32,
    refill := p.refill.filter fun q => !mine q }
  stallWatch (k / 17) <| pumpLoops k <| forAll hs (fun h s =>
    match lwcAdmit w h.tok.tag.iter with
    | .send => sendOut k h s
    | .hold => holdHeld k h s
    | _ => peFiringFault k h.tok.tag.ctx h.fport h.fia (k / 17 * 16 + (logPe s (k / 17) (k % 17)).getD 0) 0 h.fiter 0x07
             h.loop (unreserve (k / 17) h s)) s1

/-- The answer to a loop window query that is outstanding; one whose query the orphan census has removed, or that comes too late,
is discarded (R143, R231). -/
def queryAnswer (k txn : Nat) (w : Lwc) (s : State) : State :=
  match (s.pe k).queries.find? (·.txn == txn) with
  | some q => lwcFill k w (latency (clStation (k / 17)) (k / 17) q.sent
      (s.updPe k fun p => { p with queries := p.queries.erase q }))
  | none => s

/-- A loop window query that no answer has reached in time is completed with LOST, and sent again, since its parked tokens still
need their window (R231; DESIGN CHOICE, log entry 77). -/
def queryLost (k : Nat) (q : Query) (s : State) : State :=
  sendQuery k q.ctx q.loop (s.updPe k fun p => { p with queries := p.queries.erase q })

/-- An answer to a request that a PE still awaits: counted and discarded by the orphan census, kept while the context
does not fire, or formed (R76, R109, R142). -/
def answerPe (k : Nat) (q : OutReq) (status : Nat) (us : List Nat) (s : State) : State :=
  let s1 := s.updPe k fun p => { p with reqs := eraseFirst q p.reqs }
  let x := s1.ctx q.ctx
  let a : Kept := ⟨q, status, answerVal q us⟩
  if censusAt x (k / 17) then countCensus q.ctx (fun c => { c with answ := c.answ + 1 }) s1
  else if x.ctxq then s1.updPe k fun p => { p with kept := p.kept ++ [a] }
  else formAnswer k a s1

/-- The outstanding request of a PE with a transaction number. -/
def findReq (s : State) (k txn : Nat) (deferred : Bool) : Option OutReq :=
  (s.pe k).reqs.find? fun q => q.txn == txn && q.deferred == deferred

/-- An answer packet at the PE that asked: DEFERRED only ends the timer; a late answer is discarded (R231). -/
def peAnswer (k : Nat) (p : Packet) (status : Nat) (s : State) : State :=
  match p.body with
  | .window ctx loop head n thr => queryAnswer k p.txn ⟨ctx, loop, head, n, thr⟩ s
  | _ =>
    match findReq s k p.txn (p.cmd == 0x22) with
    | none => s
    | some q =>
      let s1 := if p.cmd = 0x22 then s else latency p.dstn p.init q.sent s
      if status = stDEFERRED then
        s1.updPe k fun x => { x with reqs := x.reqs.map fun r => if r = q then { r with deferred := true } else r }
      else answerPe k q status p.units s1

/-- A context resumes: LIVE, its channels' CTXQ condition ends, and the kept answers are formed in the order of their
arrival (R76). -/
def resumeCtx (ctx : Nat) (s : State) : State :=
  let s1 := s.updCtx ctx fun x => { x with state := .live, ctxq := false, quiescing := false }
  forAll (s1.pes.map (·.1)) (fun k s =>
    let mine := (s.pe k).kept.filter (·.req.ctx == ctx)
    forAll mine (formAnswer k) (s.updPe k fun p => { p with kept := p.kept.filter (·.req.ctx != ctx) })) s1

end Sys2Proof.Machine
end

