-- ==== Sys2Proof/Machine/Host.lean ====
section
/-! DEFINITION. Sessions and their doorbells, the context commands, and observation queues at the host (R316 to R332,
R339 to R346). -/

namespace Sys2Proof.Machine

open Sys2Proof

/-! ### Doorbells (R318, R319, R321) -/

/-- A doorbell write of a session's page: discarded and counted unless the session is ACTIVE, an error at or above the
ring's size. -/
def doorbell (n val size : Nat) (f : State → State) (s : State) : State :=
  if (s.sess n).st != .active then putSat s F.hifDbdropCount 1
  else if size ≤ val % 2 ^ 16 then sessError n s
  else f s

def sqtailEff (n val : Nat) (s : State) : State :=
  doorbell n val (2 ^ (s.sess n).sqLog)
    (fun s => raiseIrq (if n = 0 then 34 else 35) (s.updSess n fun x => { x with sqTail := val % 2 ^ 16 })) s

def cqheadEff (n val : Nat) (s : State) : State :=
  doorbell n val (2 ^ (s.sess n).cqLog)
    (fun s => drainHeld n (s.sess n).held (s.updSess n fun x => { x with cqHead := val % 2 ^ 16 })) s

/-- The size of an event ring; 0 for a session without one. -/
def evSize (x : Sess) : Nat := if x.evLog = 0 then 0 else 2 ^ x.evLog

def evheadEff (n val : Nat) (s : State) : State :=
  doorbell n val (evSize (s.sess n)) (fun s => s.updSess n fun x => { x with evHead := val % 2 ^ 16 }) s

/-- Entries that may be fetched in one read: available, at most 64, and not past the end of the ring. -/
def fetchLimit (x : Sess) : Nat :=
  let size := 2 ^ x.sqLog
  min (min ((x.sqTail + size - x.sqHead) % size) 64) (size - x.sqHead)

/-- The commands that entries become, numbered in ring order. -/
def cmdsOf (n first head : Nat) : List SqEntry → List Cmd
  | [] => []
  | e :: es => ⟨first, n, e, head, false, 0, 0, [], 0⟩ :: cmdsOf n (first + 1) head es

/-- A read of new submission entries returns (R319): none is fetched while the completion ring is full (R321). -/
def sqFetchEff (n : Nat) (es : List SqEntry) (bad : Bool) (s : State) : State :=
  let x := s.sess n
  let k := min es.length (fetchLimit x)
  if x.st != .active || x.held != [] || !cqRoom x || k == 0 then s
  else
    let s0 := emitOut (.hostRead x.fn (x.sqBase + 64 * x.sqHead) (64 * k)) s
    if bad then ringError n s0
    else
      let head := (x.sqHead + k) % 2 ^ x.sqLog
      passReserved n { s0.setSess n { x with sqHead := head, cmds := x.cmds ++ cmdsOf n s.nextCmd head (es.take k) } with
                       nextCmd := s.nextCmd + k }

/-- The coalescing time of a ring has passed since the first entry that is not signalled (R322). -/
def coalEff (n : Nat) (ev : Bool) (s : State) : State :=
  let x := s.sess n
  let un := if ev then x.evUns else x.cqUns
  let since := if ev then x.evSince else x.cqSince
  if un = 0 ∨ x.mute = true ∨ s.now - since < usEtu x.coalUs then s
  else emitOut (.msix x.fn (if ev then x.evVec else x.vec)) (s.setSess n (if ev then { x with evUns := 0 } else { x with cqUns := 0 }))

/-! ### Killing contexts (R76, R331) -/

/-- A context that is LIVE or QUIESCED is killed: quiesced, then RETURNING. -/
def killCtx (c : Nat) (s : State) : State :=
  match (s.ctx c).state with
  | .live => startReturning c (quiesceEffect c s)
  | .quiesced => startReturning c s
  | _ => s

/-- The contexts of a session that are not FREE. -/
def sessCtxs (s : State) (n : Nat) : List Nat := (busyCtxs s).filter fun c => (s.ctx c).d.session == n

/-- Those that have not entered RETURNING. -/
def sessLive (s : State) (n : Nat) : List Nat := (sessCtxs s n).filter fun c => (s.ctx c).state != .returning

/-! ### Observation queues (R341 to R345) -/

/-- The queues attached to a session. -/
def queuesOf (s : State) (n : Nat) : List Nat := (List.range 16).filter fun q => (s.queue q).attached == some n

def detach (q : Nat) (s : State) : State := s.updQueue q fun x => { x with attached := none }

/-- The marker as an item. -/
def Marker.item (m : Marker) : Item :=
  ⟨0x04, m.pri, 0, m.first, m.tick, m.phase, m.first + m.last * 2 ^ 32 + m.count * 2 ^ 64 + m.pri * 2 ^ 96⟩

/-- An item leaves a queue before another: higher priority, then lower sequence number. -/
def Item.before (a b : Item) : Bool := b.pri < a.pri || (a.pri == b.pri && a.seq < b.seq)

/-- The item that leaves first. -/
def firstItem : List Item → Option Item
  | [] => none
  | a :: l => match firstItem l with
    | none => some a
    | some b => if b.before a then some b else some a

/-- A pop (R342). -/
def Queue.pop (q : Queue) : Option (Item × Queue) :=
  match firstItem q.items, q.marker with
  | none, none => none
  | none, some m => some (m.item, { q with marker := none })
  | some a, none => some (a, { q with items := q.items.erase a })
  | some a, some m =>
    if m.item.before a then some (m.item, { q with marker := none }) else some (a, { q with items := q.items.erase a })

/-- The 64 bytes of an item in an event ring (R341). -/
def itemBytes (it : Item) (w queue : Nat) : List Nat :=
  leBytes 8 (it.kind + it.pri * 2 ^ 8 + w * 2 ^ 11 + queue * 2 ^ 12 + it.chan * 2 ^ 16 + it.seq * 2 ^ 32) ++ leBytes 8 it.tick
    ++ leBytes 8 it.phase ++ leBytes 40 it.payload

/-- A queue whose pointers disagree is reset (R344). -/
def queueReset (q : Nat) (s : State) : State :=
  let x := s.queue q
  let it : Item := ⟨0x05, 7, 0, x.next, tick s, phase0 s, x.next⟩
  event 11 0 q <| putSat (s.setQueue q { x with items := [it], marker := none, next := (x.next + 1) % 2 ^ 32 })
    (F.obqQstatResets q) 1

/-- The event ring has room. -/
def evRoom (x : Sess) : Bool := x.evLog != 0 && (x.evTail + 1) % 2 ^ x.evLog != x.evHead

/-- The next queue in rotation that has something to deliver. -/
def nextQueue (s : State) (n : Nat) : Option Nat :=
  ((List.range 16).map fun i => ((s.sess n).rot + 1 + i) % 16).find? fun q =>
    (s.queue q).attached == some n && ((s.queue q).items != [] || (s.queue q).marker.isSome)

/-- The courier delivers one item of a session (R345). -/
def courierEff (n : Nat) (mismatch bad : Bool) (s : State) : State :=
  let x := s.sess n
  if x.st != .active || !evRoom x then s
  else
    match nextQueue s n with
    | none => s
    | some q =>
      if mismatch then queueReset q s
      else
        match (s.queue q).pop with
        | none => s
        | some (it, rest) =>
          let s1 := (s.setQueue q rest).updSess n fun x => { x with rot := q }
          if bad then ringError n s1
          else
            let last := x.evTail + 1 == 2 ^ x.evLog
            posted n true <| emitOut (.event n x.evTail (itemBytes it (x.evPass % 2) q)) <|
              s1.updSess n fun x => { x with evTail := if last then 0 else x.evTail + 1,
                                             evPass := if last then x.evPass + 1 else x.evPass }

def obqAttachEff (r : Run) : State → State := runCmd r 0x1D 0 false [0xF] fun c s =>
  let q := c.par 0
  if (s.sess c.sess).evLog = 0 then invField c 24 s
  else
    match (s.queue q).attached with
    | some n => if n = c.sess then succeed c 0 0 s else failCmd c scBUSY s
    | none => succeed c 0 0 (s.updQueue q fun x => { x with attached := some c.sess })

def obqDetachEff (r : Run) : State → State := runCmd r 0x1E 0 false [0xF] fun c s =>
  let q := c.par 0
  if c.sess = 0 ∨ (s.queue q).attached = some c.sess then succeed c 0 0 (detach q s) else failCmd c scNOTPERMITTED s

/-! ### Sessions (R316, R323, R329) -/

/-- The first field of SESS_CREATE that is out of range, as its byte in the entry. -/
def sessField (s : State) (c : Cmd) : Option Nat :=
  let p := c.par 2
  let ok (l : Nat) : Bool := 4 ≤ l && l ≤ 16
  let vecs := fnVectors s (bits p 18 6)
  let ev := bits p 59 5
  if c.par 0 % 4096 ≠ 0 then some 24
  else if c.par 1 % 4096 ≠ 0 then some 32
  else if !ok (bits p 0 5) || !ok (bits p 5 5) || vecs ≤ bits p 24 11 || (ev != 0 && !ok ev) then some 40
  else if c.par 3 % 4096 ≠ 0 then some 48
  else if vecs ≤ c.par 4 then some 56
  else none

/-- The session numbers that are free, and the free slots of a VF. -/
def freeSess (s : State) : List Nat := ((List.range 4095).map (· + 1)).filter fun n => (s.sess n).st == .free

def freeSlot (s : State) (fn : Nat) : List Nat :=
  (List.range 256).filter fun k => !s.sessions.any fun e => e.2.st != .free && e.2.fn == fn && e.2.slot == k

def sessCreateEff (r : Run) : State → State :=
  runCmd r 0x01 1 false [full64, full64, full64, full64, 0x7FF] fun c s =>
    match sessField s c with
    | some o => invField c o s
    | none =>
      let p := c.par 2
      let fn := bits p 18 6
      let ns := freeSess s
      let ks := if fn = 0 then [0] else freeSlot s fn
      match ns[r.pick % ns.length]?, ks[r.pick / 4096 % ks.length]? with
      | some n, some k =>
        succeed c (n + k * 2 ^ 16) 0 (s.setSess n { Sess.init with
          st := .active, fn := fn, slot := k, group := bits p 10 8, sqBase := c.par 0, cqBase := c.par 1, evBase := c.par 3,
          sqLog := bits p 0 5, cqLog := bits p 5 5, evLog := bits p 59 5, vec := bits p 24 11, evVec := c.par 4,
          coalN := bits p 35 8, coalUs := bits p 43 16, rot := 15 })
      | _, _ => failCmd c scNORESOURCE s

/-- The commands of a session that have not started complete with ABORTED, in order. -/
def abortWaiting (n : Nat) (s : State) : State :=
  forAll ((s.sess n).cmds.filter (!·.started)) (fun c s => endCmd c scABORTED 0 0 0 s) s

/-- The cells of a session group, freed when the last session of the group goes (R276). -/
def freeGroup (n : Nat) (s : State) : State :=
  let x := s.sess n
  if s.sessions.any fun e => e.1 != n && (e.2.st == .active || e.2.st == .error) && e.2.fn == x.fn && e.2.group == x.group then s
  else abandonLocks (fun h => h == fnInit x.fn * 256 + x.group) s

/-- A session closes: it stops fetching, its contexts are killed, its queues are detached. -/
def closeSess (n : Nat) (s : State) : State :=
  let s1 := s.updSess n fun x => { x with st := .closing }
  let s2 := forAll (sessCtxs s n) killCtx s1
  freeGroup n (forAll (queuesOf s n) detach (abortWaiting n s2))

def sessDestroyEff (r : Run) : State → State := runCmd r 0x02 1 false [0x10FFF] fun c s =>
  let n := c.par 0 % 2 ^ 12
  let x := s.sess n
  if n = 0 then invField c 24 s
  else if x.st = .free then failCmd c scNOTFOUND s
  else if x.st = .closing then failCmd c scBUSY s
  else if !(c.par 0).testBit 16 && sessCtxs s n != [] then failCmd c scBUSY s
  else
    let k := (sessLive s n).length
    closeSess n (s.updSess n fun x => { x with destroyer := some c.id, killed := k })

/-- A closing session ends once its commands have and its contexts have entered RETURNING (R323). A context that was
CREATING is killed when it has become LIVE. -/
def sessClosedEff (n : Nat) (s : State) : State :=
  let x := s.sess n
  match x.st, x.destroyer with
  | .closing, some id =>
    let s1 := forAll (sessLive s n) killCtx s
    if sessLive s1 n = [] ∧ x.cmds = [] then finish id scSUCCESS x.killed 0 (s1.setSess n .init) else s1
  | _, _ => s

def nopEff (r : Run) : State → State := runCmd r 0x10 0 false [] fun c s => succeed c 0 0 s

/-! ### Context commands (R330, R331) -/

/-- Reserved encodings of a descriptor (R47). -/
def descReserved (ws : List Nat) : Bool :=
  let w (i : Nat) : Nat := ws.getD i 0
  bits (w 0) 20 2 == 3 || bits (w 0) 22 2 != 0 || ((w 0).testBit 3 && bits (w 0) 4 2 != 3) || bits (w 1) 48 16 != 0
    || bits (w 2) 57 7 != 0 || bits (w 4) 54 10 != 0 || bits (w 5) 54 10 != 0 || bits (w 6) 54 10 != 0
    || bits (w 7) 21 43 != 0

/-- A window of a descriptor. -/
def winOf (w : Nat) : Win := ⟨bits w 0 25, bits w 25 25, bits w 50 4⟩

/-- The descriptor that eight words hold (R47). -/
def descOf (ws : List Nat) : Desc :=
  let w (i : Nat) : Nat := ws.getD i 0
  { mode := bits (w 0) 3 1, ring := bits (w 0) 4 2, detonly := (w 0).testBit 6, farspill := (w 0).testBit 7,
    phsrc := bits (w 0) 16 4, stallpol := bits (w 0) 20 2, session := bits (w 0) 24 12, fltch := bits (w 0) 36 12,
    tmpl := bits (w 0) 48 16, kbound := (List.range 8).map fun n => bits (w 1) (6 * n) 6, mquota := bits (w 2) 0 16,
    squota := bits (w 2) 16 24, drvfirst := bits (w 2) 40 8, drvcount := bits (w 2) 48 9, rettag := w 3, w0 := winOf (w 4),
    w1 := winOf (w 5), w2 := winOf (w 6), fhpe := bits (w 7) 0 8, fhia := bits (w 7) 8 12, fhv := (w 7).testBit 20 }

/-- A window keeps its alignment. -/
def Win.aligned (w : Win) : Bool := w.base % 64 == 0 && w.length % 64 == 0

/-- RETTAG passes step 5 of R330. -/
def rettagOk (s : State) (sess n : Nat) : Bool :=
  n % 2 == 1 || (bits n 52 12 == devnum s && (s.ctx (bits n 38 14)).liveOrQuiesced
    && (s.ctx (bits n 38 14)).d.session == sess)

/-- A channel of the descriptor is bound to a LIVE or QUIESCED context (R201). -/
def drvTaken (s : State) (d : Desc) : Bool :=
  d.drvcount != 0 && (busyCtxs s).any fun c =>
    (s.ctx c).liveOrQuiesced && (s.ctx c).d.channels.any d.channels.contains

/-- The cluster of the lowest PE that a template's image places. -/
def lowestCl (s : State) (t : Template) : Nat :=
  match s.images.find? (·.id == t.image) with
  | some im => (im.places.foldl (fun m p => min m p.pe) 255) / 16
  | none => 0

/-- The first check of R330 that fails, as a status; steps 1 to 6. -/
def createStatus (s : State) (sess : Nat) (ws : List Nat) : Option Nat :=
  let d := descOf ws
  if devQuiesce s then some scQUIESCING
  else
    match s.templates.find? (·.handle == d.tmpl) with
    | none => some scNOTFOUND
    | some t =>
      if t.d.ring < (if sess = 0 then 2 else 3) then some scRING
      else if descReserved ws || d.ring != t.d.ring || d.mode != t.d.mode || !d.w0.aligned || !d.w1.aligned || !d.w2.aligned
          || 256 < d.drvfirst + d.drvcount then some scINVFIELD
      else if !rettagOk s sess d.rettag then some scNOTPERMITTED
      else if drvTaken s d then some scDRVBUSY
      else none

def ctxCreateEff (r : Run) : State → State := runCmd r 0x14 0 true [] fun c s =>
  let ws := (List.range 8).map fun i => fieldLe r.data (8 * i) 8
  if c.e.dlen ≠ 64 then invField c 16 s
  else if r.bad then bufferError c s
  else
    match createStatus s c.sess ws with
    | some st => if st = scINVFIELD then invField c 8 s else failCmd c st s
    | none =>
      let d := { descOf ws with session := c.sess }
      match s.templates.find? (·.handle == d.tmpl) with
      | none => failCmd c scNOTFOUND s
      | some t => match findSlot s (lowestCl s t) r.pick with
        | some slot => createCtx slot t d (.command c.id) s
        | none => failCmd c scNORESOURCE s

/-- A context command: the reference is checked under R49, then the owner of the context (R329). -/
def ctxCmd (c : Cmd) (f : Nat → State → State) (s : State) : State :=
  let n := c.par 0
  let k := bits n 0 14
  if stale s n then failCmd c scSTALECTX s
  else if c.sess ≠ 0 ∧ (s.ctx k).d.session ≠ c.sess then failCmd c scNOTPERMITTED s
  else f k s

def ctxQuiesceEff (r : Run) : State → State := runCmd r 0x15 0 false [full64] fun c =>
  ctxCmd c fun k s => succeed c 0 0 (if (s.ctx k).state = .live then quiesceEffect k s else s)

def ctxResumeEff (r : Run) : State → State := runCmd r 0x16 0 false [full64] fun c =>
  ctxCmd c fun k s =>
    if (s.ctx k).state = .live then succeed c 0 0 s
    else if devQuiesce s then failCmd c scQUIESCING s
    else succeed c 0 0 (resumeCtx k s)

/-- The reference names a context that is RETURNING. -/
def refReturning (s : State) (n : Nat) : Bool :=
  let x := s.ctx (bits n 0 14)
  x.state == .returning && x.gen == bits n 14 8 && bits n 43 21 == 0 && bits n 31 12 == devnum s

def ctxKillEff (r : Run) : State → State := runCmd r 0x17 0 false [full64] fun c s =>
  let n := c.par 0
  if refReturning s n then
    (if c.sess ≠ 0 ∧ (s.ctx (bits n 0 14)).d.session ≠ c.sess then failCmd c scNOTPERMITTED s else succeed c 0 0 s)
  else ctxCmd c (fun k s => succeed c 0 0 (killCtx k s)) s

/-- The types that the host may send (R331). -/
def hostType (t : Nat) : Bool := t ≤ 6 || t == 9 || t == 0xA

def ctxSendEff (r : Run) : State → State := runCmd r 0x18 0 false [full64, full64, 0x7F0F] fun c =>
  ctxCmd c fun k s =>
    let p := c.par 2
    let ty := p % 16
    if !hostType ty then failCmd c scBADTYPE s
    else
      match (template s (s.ctx k).d.tmpl).bind (·.args[bits p 8 4]?) with
      | none => invField c 40 s
      | some a =>
        succeed c 0 0 (injectTok 1 (fnInit (s.sess c.sess).fn)
          ⟨⟨devnum s, k, 0, a.ia, a.pe, a.port, bits p 12 3, false⟩, ⟨BitVec.ofNat 64 (c.par 1), ty, false⟩⟩ s)

/-- The state code of R46. -/
def stateCode : CtxState → Nat
  | .free => 0
  | .creating => 1
  | .live => 2
  | .quiesced => 3
  | .returning => 4

def ctxQueryEff (r : Run) : State → State := runCmd r 0x19 0 false [full64] fun c =>
  ctxCmd c fun k s =>
    let x := s.ctx k
    succeed c (stateCode x.state) (wrap 16 x.mcount + wrap 32 x.scount * 2 ^ 16) s

/-! ### NETTIME (R153, R334) -/

def nettimeEff (r : Run) : State → State := runCmd r 0x06 2 false [0xF, full64, full64] fun c s =>
  let n := c.par 0
  if srcType s n ≠ 6 then invField c 24 s
  else succeed c 0 0 (nettimeStep n (signed 64 (c.par 1)) (c.par 2 * 64) s)

/-! ### HIF_COMMIT (R346) -/

/-- Bases and sizes of session 0, in force or in the shadows. -/
def admRings (rdf : State → Fld → Nat) (s : State) : Nat × Nat × Nat × Nat :=
  (rdf s F.hifAdmsqloAddr + rdf s F.hifAdmsqhiAddr * 2 ^ 32, rdf s F.hifAdmcqloAddr + rdf s F.hifAdmcqhiAddr * 2 ^ 32,
    rdf s F.hifAdmcfgSqlog, rdf s F.hifAdmcfgCqlog)

/-- The commit is refused. -/
def hifRefused (s : State) : Bool :=
  let en := rdShB s F.hifAdmcfgEn
  let was := rdB s F.hifAdmcfgEn
  let ok (l : Nat) : Bool := 4 ≤ l && l ≤ 16
  match admRings rdSh s with
  | (sq, cq, sl, cl) =>
    (en && (sq % 4096 != 0 || cq % 4096 != 0 || !ok sl || !ok cl || fnVectors s 0 ≤ rdSh s F.hifAdmcfgVec))
      || (en && was && decide (admRings rdSh s ≠ admRings rd s))
      || (!en && was && s.sessions.any fun e => e.1 != 0 && e.2.st != .free)
      || (en && !was && !rdB s F.hifStatusReady)

def hifCommitEff (s : State) : State :=
  if hifRefused s then cfgErr 10 (dropShadow s 10)
  else
    let was := rdB s F.hifAdmcfgEn
    let s1 := commitOk s 10
    let en := rdB s1 F.hifAdmcfgEn
    match admRings rd s1 with
    | (sq, cq, sl, cl) =>
      if en && !was then
        put (s1.setSess 0 { Sess.init with
          st := .active, sqBase := sq, cqBase := cq, sqLog := sl, cqLog := cl, vec := rd s1 F.hifAdmcfgVec, rot := 15 })
          F.hifStatusAdmen 1
      else if !en && was then put (s1.setSess 0 .init) F.hifStatusAdmen 0
      else s1.updSess 0 fun x => { x with vec := rd s1 F.hifAdmcfgVec }

/-! ### The rows -/

/-- SQTAIL_WRITE (R319). -/
def execSqtailWrite (n val : Nat) (s : State) : Host.Outcome State Fault Refusal := act 3 s (sqtailEff n val)

/-- CQHEAD_WRITE (R321). -/
def execCqheadWrite (n val : Nat) (s : State) : Host.Outcome State Fault Refusal := act 3 s (cqheadEff n val)

/-- EVHEAD_WRITE (R318). -/
def execEvheadWrite (n val : Nat) (s : State) : Host.Outcome State Fault Refusal := act 3 s (evheadEff n val)

/-- SQ_ENTRY_FETCH (R319). -/
def execSqEntryFetch (n : Nat) (es : List SqEntry) (bad : Bool) (s : State) : Host.Outcome State Fault Refusal :=
  act 3 s (sqFetchEff n es bad)

/-- COAL_TIMEOUT (R322). -/
def execCoalTimeout (n : Nat) (ev : Bool) (s : State) : Host.Outcome State Fault Refusal := act 3 s (coalEff n ev)

/-- SESS_CREATE (R329). -/
def execSessCreate (r : Run) (s : State) : Host.Outcome State Fault Refusal := act 6 s (sessCreateEff r)

/-- SESS_DESTROY (R323). -/
def execSessDestroy (r : Run) (s : State) : Host.Outcome State Fault Refusal := act 6 s (sessDestroyEff r)

/-- SESS_CLOSED (R323). -/
def execSessClosed (n : Nat) (s : State) : Host.Outcome State Fault Refusal := act 6 s (sessClosedEff n)

/-- NOP (R329). -/
def execNop (r : Run) (s : State) : Host.Outcome State Fault Refusal := act 6 s (nopEff r)

/-- CTX_CREATE (R330). -/
def execCtxCreate (r : Run) (s : State) : Host.Outcome State Fault Refusal := act 6 s (ctxCreateEff r)

/-- CTX_QUIESCE (R331). -/
def execCtxQuiesce (r : Run) (s : State) : Host.Outcome State Fault Refusal := act 6 s (ctxQuiesceEff r)

/-- CTX_RESUME (R331). -/
def execCtxResume (r : Run) (s : State) : Host.Outcome State Fault Refusal := act 6 s (ctxResumeEff r)

/-- CTX_KILL (R331). -/
def execCtxKill (r : Run) (s : State) : Host.Outcome State Fault Refusal := act 6 s (ctxKillEff r)

/-- CTX_SEND (R331). -/
def execCtxSend (r : Run) (s : State) : Host.Outcome State Fault Refusal := act 6 s (ctxSendEff r)

/-- CTX_QUERY (R329). -/
def execCtxQuery (r : Run) (s : State) : Host.Outcome State Fault Refusal := act 6 s (ctxQueryEff r)

/-- OBQ_ATTACH (R345). -/
def execObqAttach (r : Run) (s : State) : Host.Outcome State Fault Refusal := act 6 s (obqAttachEff r)

/-- OBQ_DETACH (R329). -/
def execObqDetach (r : Run) (s : State) : Host.Outcome State Fault Refusal := act 6 s (obqDetachEff r)

/-- COURIER_WRITE (R345). -/
def execCourierWrite (n : Nat) (mismatch bad : Bool) (s : State) : Host.Outcome State Fault Refusal :=
  act 3 s (courierEff n mismatch bad)

/-- NETTIME (R153). -/
def execNettime (r : Run) (s : State) : Host.Outcome State Fault Refusal := act 6 s (nettimeEff r)

/-- HIF_COMMIT (R346). -/
def execHifCommit (s : State) : Host.Outcome State Fault Refusal := act 3 s hifCommitEff

end Sys2Proof.Machine
end

