-- ==== Sys2Proof/Machine/HostMem.lean ====
section
/-! DEFINITION. Session commands that move data between host buffers and the device, or grant it host memory: SCR_READ,
SCR_WRITE, CAP_READ, SPILL_GRANT, SPILL_REVOKE (R196, R329, R332, R333). -/

namespace Sys2Proof.Machine

open Sys2Proof

/-- The packet that a transfer sends next: its address, the bytes of its first unit that lie before the transfer, its
bytes and its units. A packet stays inside 128 aligned bytes. -/
structure Chunk where
  addr : Nat
  skip : Nat
  bytes : Nat
  units : Nat
  deriving DecidableEq, Repr

/-- The first byte of the view of a transfer (R259). -/
def viewStart (a view : Nat) : Nat := 0x100000000 + 0x2000000 * view + (if view = 3 then a / 32 else a)

/-- The next packet of a transfer. -/
def nextChunk (c : Cmd) : Chunk :=
  let va := viewStart (c.par 0) (c.par 1) + (c.e.dlen - c.left)
  let n := min c.left (128 - va % 128)
  ⟨va / 16 * 16, va % 16, n, (va % 16 + n + 15) / 16⟩

/-- The next packet of SCR_READ or SCR_WRITE leaves the host station under the initiator of the session's function. -/
def sendChunk (c : Cmd) (s : State) : State :=
  let k := nextChunk c
  match viewOf k.addr with
  | none => failCmd c scDEVERR s
  | some (_, a) =>
    let us := if c.e.opc = 0x1A then [k.units]
      else (List.range k.units).map fun i => ofLe ((c.acc.drop (c.e.dlen - c.left + 16 * i)).take 16)
    request 1 (bgStation (a / 2 ^ 20)) (a / 2 ^ 20 % 8) (if c.e.opc = 0x1A then 0x19 else 0x1A)
      (fnInit (s.sess c.sess).fn) k.addr us (.host c.id) s

/-- An error status of an answer, as the status of the command (R332). -/
def moveStatus (st : Nat) : Nat := if st = stREFUSED then scNOTPERMITTED else scDEVERR

/-- An answer to SCR_READ or SCR_WRITE: the data move, and the next packet follows. -/
def chunkAnswered (c : Cmd) (st : Nat) (us : List Nat) (s : State) : State :=
  if st ≠ stOK then failCmd c (moveStatus st) s
  else
    let k := nextChunk c
    let s1 := if c.e.opc = 0x1A then
        toHost c (c.e.dlen - c.left) (((us.flatMap (leBytes 16)).drop k.skip).take k.bytes) s else s
    let c' := { c with left := c.left - k.bytes }
    if c'.left = 0 then succeed c' 0 0 s1 else sendChunk c' (updCmd c (fun _ => c') s1)

/-- The first field of a transfer that R332 refuses. -/
def moveField (c : Cmd) : Option Nat :=
  let a := c.par 0
  let view := c.par 1
  let n := c.e.dlen
  let pres := c.e.opc == 0x1A && view == 3
  if n < 16 ∨ 1048576 < n ∨ n % 16 ≠ 0 then some 16
  else if a % (if pres then 256 else 16) ≠ 0 ∨ 0x2000000 < a + (if pres then 32 * n else n) then some 24
  else if (if c.e.opc = 0x1A then view ≠ 0 ∧ view ≠ 3 else view = 3) then some 32
  else none

def startMove (r : Run) (c : Cmd) (s : State) : State :=
  match moveField c with
  | some o => invField c o s
  | none =>
    if r.bad then bufferError c s
    else
      let c' := { c with left := c.e.dlen, acc := if c.e.opc = 0x1B then r.data.take c.e.dlen else [] }
      sendChunk c' (updCmd c (fun _ => c') s)

def scrReadEff (r : Run) : State → State := runCmd r 0x1A 0 true [0x1FFFFFF, 3] (startMove r)

def scrWriteEff (r : Run) : State → State := runCmd r 0x1B 0 true [0x1FFFFFF, 3] (startMove r)

/-! ### CAP_READ -/

/-- Records asked for in one RINGRD. -/
def capBatch : Nat := 2 ^ 20

/-- The next RINGRD of a CAP_READ. -/
def sendRingrd (c : Cmd) (s : State) : State :=
  let first := c.par 1 + (c.par 2 - c.left)
  request 1 12 0 0x1B (fnInit (s.sess c.sess).fn)
    (c.par 0 + first % 2 ^ 32 * 2 ^ 8 + min c.left capBatch * 2 ^ 40) [] (.host c.id) s

/-- The answer of the ring read service: TOTAL, then the records. RESULT0 holds TOTAL as it stood for the first. -/
def ringAnswered (c : Cmd) (st : Nat) (us : List Nat) (s : State) : State :=
  if st ≠ stOK then failCmd c (if st = stNOTARGET then scNOTFOUND else moveStatus st) s
  else
    let n := min c.left capBatch
    let l := capLen (ringNch s (c.par 0))
    let s1 := toHost c ((c.par 2 - c.left) * l) ((us.tail.flatMap (leBytes 16)).take (n * l)) s
    let c' := { c with left := c.left - n, acc := if c.acc = [] then [us.headD 0] else c.acc }
    if c'.left = 0 then succeed c' (c'.acc.headD 0) 0 s1 else sendRingrd c' (updCmd c (fun _ => c') s1)

def capReadEff (r : Run) : State → State := runCmd r 0x1C 0 true [0x3F, 0xFFFFFFFF, 0xFFFFFFFF] fun c s =>
  let ring := c.par 0
  if ringState s ring = 0 then failCmd c scNOTFOUND s
  else if c.e.dlen < c.par 2 * capLen (ringNch s ring) then invField c 16 s
  else if r.bad then bufferError c s
  else
    let c' := { c with left := c.par 2 }
    sendRingrd c' (updCmd c (fun _ => c') s)

/-- An answer for a session command. -/
def hostAnswer (id st : Nat) (us : List Nat) (s : State) : State :=
  match findCmd s id with
  | some c => if c.e.opc = 0x1C then ringAnswered c st us s else chunkAnswered c st us s
  | none => s

/-! ### Far-spill memory -/

/-- Bytes granted to the clusters other than `cl`. -/
def grantedElse (s : State) (cl : Nat) : Nat := s.grants.foldl (fun n e => if e.1 = cl then n else n + e.2) 0

/-- A shadow set. -/
def setShadow (s : State) (f : Fld) (v : Nat) : State := { s with shadow := mset (rd s f) s.shadow f.key v }

/-- The far region of a cluster written and committed; the flag tells of a refusal (R130). -/
def commitFar (cl base units : Nat) (s : State) : Bool × State :=
  let s1 := setShadow (setShadow (setShadow s (F.clFsbaseloAddr cl) (base % 2 ^ 32)) (F.clFsbasehiAddr cl) (base / 2 ^ 32))
    (F.clFssizeSize cl) units
  (clRefused s1 cl, clCommitEff cl s1)

def spillGrantEff (r : Run) : State → State := runCmd r 0x03 1 false [full64, full64, 0xF] fun c s =>
  let cl := c.par 2
  if c.par 0 % 65536 ≠ 0 then invField c 24 s
  else if c.par 1 % 65536 ≠ 0 then invField c 32 s
  else if rd s (F.clFsstatUsed cl) ≠ 0 then failCmd c scBUSY s
  else if 64 * 2 ^ 30 < grantedElse s cl + c.par 1 then invField c 32 s
  else
    match commitFar cl (c.par 0) (c.par 1 / 65536) s with
    | (true, s1) => failCmd c scDEVERR s1
    | (false, s1) => succeed c 0 0 { s1 with grants := mset 0 s1.grants cl (c.par 1) }

def spillRevokeEff (r : Run) : State → State := runCmd r 0x04 1 false [0, 0, 0xF] fun c s =>
  let cl := c.par 2
  if rd s (F.clFsstatUsed cl) ≠ 0 then failCmd c scFARSPILL s
  else
    match commitFar cl (rdSh s (F.clFsbaseloAddr cl) + rdSh s (F.clFsbasehiAddr cl) * 2 ^ 32) 0 s with
    | (true, s1) => failCmd c scDEVERR s1
    | (false, s1) => succeed c 0 0 { s1 with grants := mset 0 s1.grants cl 0 }

/-! ### The rows -/

/-- SPILL_GRANT (R333). -/
def execSpillGrant (r : Run) (s : State) : Host.Outcome State Fault Refusal := act 6 s (spillGrantEff r)

/-- SPILL_REVOKE (R333). -/
def execSpillRevoke (r : Run) (s : State) : Host.Outcome State Fault Refusal := act 6 s (spillRevokeEff r)

/-- SCR_READ (R332). -/
def execScrRead (r : Run) (s : State) : Host.Outcome State Fault Refusal := act 6 s (scrReadEff r)

/-- SCR_WRITE (R332). -/
def execScrWrite (r : Run) (s : State) : Host.Outcome State Fault Refusal := act 6 s (scrWriteEff r)

/-- CAP_READ (R332). -/
def execCapRead (r : Run) (s : State) : Host.Outcome State Fault Refusal := act 6 s (capReadEff r)

end Sys2Proof.Machine
end

