-- ==== Sys2Proof/Machine/Answers.lean ====
section
/-! DEFINITION. Answers at their requesters: data and acknowledgements of the rings, later answers to deferred requests,
answers of the management network, and requests that no answer reaches in time (R109, R225, R226, R231, R247, R309). -/

namespace Sys2Proof.Machine

open Sys2Proof

/-- An event capture that has been read arms its ring again when REARM = 1 (R349). -/
def rearm (k : Nat) (before s : State) : State :=
  if (logStream before k).event.isSome && (logStream s k).event.isNone && rdB s (F.logStreamcfgRearm k) then
    capArmEff (rd s (F.logStreamcfgRing k)) s
  else s

/-- What an agent other than a PE does with an answer: its status, the data units, and whether the frame of an exception that it
raises meets an uncorrectable error. -/
def answered (k : Asker) (status : Nat) (us : List Nat) (frameBad : Bool) (s : State) : State :=
  match k with
  | .nobody => s
  | .pe _ => s
  | .core t addr reg size sx => coreLoadAnswer t addr reg size sx status (us.headD 0) frameBad s
  | .coreStore t addr => coreStoreAnswer t addr status s
  | .corePres t addr reg _ => corePresAnswer t addr reg status us.head? frameBad s
  | .coreFrame t rete got => coreFrameAnswer t rete got status (us.headD 0) frameBad s
  | .host id => hostAnswer id status us s
  | .ring r => if status = stOK then s else capErr r s
  | .log st => rearm st s (logAnswer st status us s)
  | .sdp => sdpAnswer status (us.headD 0) s
  | .bar => emitOut (.barData (if status = stOK then 0 else 1) (us.headD 0)) s

/-- The status that the requester sees: an answer whose data unit is lost is UNCORR (R226). -/
def seenStatus (d : Deliver) (p : Packet) : Nat :=
  if d.data = .uncorrectable ∧ p.len ≠ 0 then stUNCORR else p.status

/-- A DEFERRED answer keeps the request until its DEFDATA arrives, without a timer (R231, R239). -/
def keepDeferred (st : Nat) (q : Pending) (s : State) : State :=
  s.updStn st fun x => { x with pend := x.pend ++ [{ q with deferred := true }] }

/-- An answer of the ring read service brings a part of the records: the request with what it has now, or all units behind TOTAL once
nothing is still to come. -/
def ringPart (q : Pending) (us : List Nat) : Pending ⊕ List Nat :=
  let got := q.got ++ us.tail
  if bits (us.headD 0) 64 64 = 0 then .inr (bits (us.headD 0) 0 64 :: got) else .inl { q with got := got }

/-- An answer at the station of its requester; one for which nothing is outstanding any more is discarded (R231). -/
def rspAt (d : Deliver) (p : Packet) (s : State) : Option State :=
  let status := seenStatus d p
  match p.asker with
  | .pe k => some (peAnswer k p status s)
  | k =>
    match takePend p.dstn p.txn k s with
    | (none, _) => some s
    | (some q, s1) =>
      if q.deferred then some s
      else if q.dstn = 12 ∧ p.cmd = 0x20 ∧ status = stOK then
        match ringPart q p.units with
        | .inl q' => some (s1.updStn p.dstn fun x => { x with pend := x.pend ++ [q'] })
        | .inr us => some (answered k status us (d.mem == .uncorrectable) (latency p.dstn p.init q.sent s1))
      else
        let s2 := latency p.dstn p.init q.sent s1
        some (answered k status p.units (d.mem == .uncorrectable) (if status = stDEFERRED then keepDeferred p.dstn q s2 else s2))

def rspDataEff (d : Deliver) (s : State) : State := deliverEff d [0x20] (rspAt d) s

def rspAckEff (d : Deliver) (s : State) : State := deliverEff d [0x21] (rspAt d) s

/-- The later answer to a deferred presence request: at a PE its result is formed, for a core it goes to the mailbox. -/
def defdataAt (d : Deliver) (p : Packet) (s : State) : Option State :=
  match p.asker with
  | .pe k => some (peAnswer k p (seenStatus d p) s)
  | .corePres t addr reg box =>
    match takePend p.dstn p.txn (.corePres t addr reg box) s with
    | (some _, s1) => some (mailbox t box (if seenStatus d p = stOK then p.units.head? else none) s1)
    | (none, _) => some s
  | _ => some s

def defdataEff (d : Deliver) (s : State) : State := deliverEff d [0x22] (defdataAt d) s

/-- An answer of the management network at its requester; at the span complex it leaves for the requesting device. -/
def mgtAt (d : Deliver) (p : Packet) (s : State) : Option State :=
  if p.dstn = 25 then some (spanAnswer p (bumpStat 25 p.init 3 1 s))
  else rspAt d p (bumpStat p.dstn p.init 3 1 s)

def regdataEff (d : Deliver) (s : State) : State := deliverEff d [0x42] (mgtAt d) s

def regackEff (d : Deliver) (s : State) : State := deliverEff d [0x43] (mgtAt d) s

/-- A request sent at `sent` has been outstanding for RNG_RSPTO, in cycles of 2.0 GHz, five to four etu. -/
def overdue (s : State) (sent : Nat) : Bool := 4 * 2 ^ rd s F.rngRsptoExp ≤ 5 * (s.now - sent)

/-- The span TXN of a request that has been completed as lost is free again (R231, R247). -/
def endSpanTxn (st : Nat) (x : Pending) (s : State) : State :=
  if x.dstn = 25 then
    { s with spanTxns := s.spanTxns.filter fun q => !(q.src == st && q.origTxn == x.txn && q.asker == x.asker) }
  else s

/-- A request that no answer has reached is completed with LOST, a loop window query too. -/
def rspTimeoutEff (q : ReqName) (s : State) : State :=
  match q.pe with
  | some k =>
    match findReq s k q.txn false with
    | some r => if overdue s r.sent then answerPe k r stLOST [] s else s
    | none =>
      match (s.pe k).queries.find? fun x => x.txn == q.txn && overdue s x.sent with
      | some x => queryLost k x s
      | none => s
  | none =>
    match (s.stn q.station).pend.find? fun x => x.txn == q.txn && !x.deferred && overdue s x.sent with
    | some x => answered x.asker stLOST [] false (endSpanTxn q.station x (s.updStn q.station fun y => { y with pend := y.pend.filter (· != x) }))
    | none => s

/-- RSP_DATA (R109). -/
def execRspData (d : Deliver) (s : State) : Host.Outcome State Fault Refusal := act 3 s (rspDataEff d)

/-- RSP_ACK (R109). -/
def execRspAck (d : Deliver) (s : State) : Host.Outcome State Fault Refusal := act 3 s (rspAckEff d)

/-- DEFDATA (R231). -/
def execDefdata (d : Deliver) (s : State) : Host.Outcome State Fault Refusal := act 3 s (defdataEff d)

/-- RSP_TIMEOUT (R231). -/
def execRspTimeout (q : ReqName) (s : State) : Host.Outcome State Fault Refusal := act 3 s (rspTimeoutEff q)

/-- REGDATA (R224). -/
def execRegdata (d : Deliver) (s : State) : Host.Outcome State Fault Refusal := act 3 s (regdataEff d)

/-- REGACK (R224). -/
def execRegack (d : Deliver) (s : State) : Host.Outcome State Fault Refusal := act 3 s (regackEff d)

end Sys2Proof.Machine
end

