-- ==== Sys2Proof/Machine/FaultRows.lean ====
section
/-! DEFINITION. Forced fault events and the history queue of a fault register group (R379, R383, R385, R389). -/

namespace Sys2Proof.Machine

open Sys2Proof

/-- The number of sources that R389 gives a block beside PHBUS and CFGERR. -/
def srcCount (b : Nat) : Nat :=
  if 17 ≤ b ∧ b ≤ 32 then 6
  else if b = 33 then 6
  else [2, 2, 2, 6, 6, 2, 6, 1, 6, 2, 5, 3, 6, 5, 3, 5, 2].getD b 0

/-- A block has source `src`. -/
def hasSrc (b src : Nat) : Bool := b < 34 && (src < srcCount b || src == 31 || (src == 30 && isReceiver b))

/-- The retire target that R389 gives an event which names no address: row 0 of the instance's store. -/
def forcedTarget (b src i : Nat) : Option Retire :=
  if 17 ≤ b ∧ b ≤ 32 then
    let u := (b - 17) * 32 + i
    if 17 ≤ i then none
    else if src = 0 then some ⟨1, 0, u, 0⟩
    else if src = 2 then some ⟨1, 1, u, 0⟩
    else if src = 1 ∨ src = 3 ∨ src = 4 then some ⟨3, 0, u, 0⟩
    else none
  else if b = 6 then (if src = 0 ∧ i < 26 then some ⟨5, 0, i, 0⟩ else none)
  else if b = 8 then
    (if 33 ≤ i then none
     else if src = 0 ∨ src = 4 then some (rowTarget (i * 2 ^ 20))
     else if src = 1 ∨ src = 5 then some (bankTarget i)
     else none)
  else if b = 15 then (if src = 3 ∨ src = 4 then some (supTarget 0x08000000) else none)
  else if b = 33 then (if src = 0 ∨ src = 1 then some ⟨6, 0, 0, 0⟩ else none)
  else none

/-- A forced event: real in every respect but that it names no context (R385). -/
def forcedEv (s : State) (b src : Nat) : FEv :=
  let i := rd s (F.fltforceinstInst b)
  { blk := b, src := src, inst := i, ctx := none, detail := 0, forced := true,
    firing := false, cause := src == 5 && (b == 4 || (17 ≤ b && b ≤ 32)), tgt := forcedTarget b src i }

/-- A write of FLTFORCE: the sources of the mask in ascending order. -/
def fltforceEff (b mask : Nat) (s : State) : State :=
  forAll ((List.range 32).filter fun src => mask.testBit src && hasSrc b src)
    (fun src s => fault (forcedEv s b src) s) s

/-- The oldest history entry removed. -/
def fltpopEff (b : Nat) (s : State) : State :=
  if 34 ≤ b then s else
  let l := (mget [] s.flt b).drop 1
  put { s with flt := mset [] s.flt b l } (F.flthiststatDepth b) l.length

/-- The words 0 to 7 of a history entry (R383). -/
def HistE.word (h : HistE) (w : Nat) : Nat :=
  if w = 0 then
    h.source % 32 + h.inst % 64 * 2 ^ 5 + bit h.forced * 2 ^ 11 + bit h.persist * 2 ^ 12 + h.react % 8 * 2 ^ 13
      + bit h.fallback * 2 ^ 16
  else if w = 1 then (match h.ctx with | some (c, g) => c % 2 ^ 14 + g % 256 * 2 ^ 14 + 2 ^ 22 | none => 0)
  else if w < 4 then bits h.detail (32 * (w - 2)) 32
  else if w < 6 then bits h.phase (32 * (w - 4)) 32
  else bits h.tick (32 * (w - 6)) 32

/-- FLTHISTw as read: of the oldest entry, zero when none is stored. -/
def histWord (s : State) (b w : Nat) : Nat :=
  match mget [] s.flt b with
  | h :: _ => h.word w
  | [] => 0

/-- FLTFORCE (R385). -/
def execFltforce (b mask : Nat) (s : State) : Host.Outcome State Fault Refusal := act 3 s (fltforceEff b mask)

/-- FLTHISTPOP (R379). -/
def execFlthistpop (b : Nat) (s : State) : Host.Outcome State Fault Refusal := act 3 s (fltpopEff b)

end Sys2Proof.Machine
end

