-- ==== Sys2Proof/Machine/HostLink.lean ====
section
/-! DEFINITION. The host link: function-level resets, the PCI Express resets, power states of the link, configuration requests,
and completions that never come (R30, R276, R311 to R315, R324, R339, R348, R370, R419 to R421). -/

namespace Sys2Proof.Machine

open Sys2Proof

/-! ### Function-level reset (R339) -/

/-- The functions that a reset of function `fn` covers: of the PF, all. -/
def flrCovers (fn : Nat) : List Nat := if fn = 0 then List.range 64 else [fn]

/-- Sessions of the functions covered that are not FREE. -/
def flrSess (s : State) (fn : Nat) : List Nat :=
  (s.sessions.filter fun e => e.2.st != .free && (flrCovers fn).contains e.2.fn).map (·.1)

/-- A session of the function closes without another write to the host: what was fetched and not started is gone, what was
started completes in silence. -/
def flrClose (n : Nat) (s : State) : State :=
  let s1 := s.updSess n fun x => { x with
    st := .closing, mute := true, cmds := x.cmds.filter (·.started), held := [], cqUns := 0, evUns := 0 }
  forAll (queuesOf s1 n) detach (forAll (sessCtxs s1 n) killCtx s1)

/-- The far records of a cluster are freed unread, and its grant is withdrawn. -/
def dropFar (cl : Nat) (s : State) : State :=
  let s1 := if rd s (F.clFsstatUsed cl) = 0 then s
    else forAll (List.range 16) (fun lpe s => forAll (List.range 1024) (fun set s =>
      let n := getDir s cl lpe set
      if dirCount true n = 0 then s else putDir cl lpe set (dirSet true n (noPtr true) 0) s) s) s
  let near (m : FMap (List Nat)) : FMap (List Nat) :=
    (m.map fun e => (e.1, e.2.filter fun p => !isFar p)).filter fun e => e.2 != []
  let s2 := s1.updCl cl fun c => { c with
    far := [], farFree := [], farBump := 0, readyChain := near c.readyChain, heldChain := near c.heldChain,
    toFree := c.toFree.filter fun p => !isFar p }
  put (put s2 (F.clFssizeSize cl) 0) (F.clFsstatUsed cl) 0

/-- The log engine loses its queues; the journal stays (R370). -/
def withdrawQueues (s : State) : State :=
  let s1 := failLogCmds scABORTED s
  enterLog 0 (forAll (nsList s1) (fun i s => setNs i none s)
    (updLog (fun l => { l with staged := [], cur := none, fill := [], streams := [] }) s1))

/-- What the reset of the PF adds: session 0 off, grants and NVMe queues withdrawn. -/
def flrPf (s : State) : State :=
  let s1 := put (put (dropShadow s 10) F.hifAdmcfgEn 0) F.hifStatusAdmen 0
  withdrawQueues { forAll (List.range 16) dropFar s1 with grants := [] }

/-- Configuration space and MSI-X state of the functions covered are at their reset values. Keys are function × 4,096 + offset,
and of the MSI-X table function × 65,536 + offset. -/
def flrConfig (fn : Nat) (s : State) : State :=
  { s with fnState := s.fnState.filter fun e => !(flrCovers fn).contains (e.1 / 4096),
           msixMask := s.msixMask.filter fun e => !(flrCovers fn).contains (e.1 / 65536) }

/-- A function-level reset begins. -/
def flrEff (fn : Nat) (s : State) : State :=
  if 64 ≤ fn then s
  else
    let s1 := forAll (flrSess s fn) flrClose s
    let s2 := abandonLocks (fun h => (flrCovers fn).any fun f => h / 256 == fnInit f) s1
    let s3 := forAll (List.range 32) (fun b s =>
      if (flrCovers fn).any fun f => rd s (F.sbOwnerOwner b) == fnInit f then put s (F.sbOwnerFence b) 1 else s) s2
    let s4 := flrConfig fn (if fn = 0 then flrPf s3 else s3)
    event 10 4 fn (put { s4 with flrFns := if s4.flrFns.contains fn then s4.flrFns else s4.flrFns ++ [fn] } F.hifStatusFlrbusy 1)

/-- A muted session is FREE; a destroy that waited for it completes (R323). -/
def flrFree (n : Nat) (s : State) : State :=
  let s1 := s.setSess n .init
  match (s.sess n).destroyer with
  | some id => finish id scSUCCESS (s.sess n).killed 0 s1
  | none => s1

/-- A function-level reset completes once the commands of its sessions have ended and their contexts have entered RETURNING; a
context that was CREATING is killed when it has become LIVE. -/
def flrDoneEff (fn : Nat) (s : State) : State :=
  if !s.flrFns.contains fn then s
  else
    let ns := flrSess s fn
    let s1 := forAll ns (fun n s => forAll (sessLive s n) killCtx s) s
    if ns.all fun n => sessLive s1 n == [] && (s1.sess n).cmds == [] then
      let s2 := forAll ns flrFree s1
      let fs := s2.flrFns.filter (· != fn)
      put { s2 with flrFns := fs } F.hifStatusFlrbusy (bit (fs != []))
    else s1

/-! ### The link and PERST_N (R312, R419, R420) -/

/-- The link is down: no width or rate is negotiated. -/
def linkDown (s : State) : State := put (put { s with linkState := 0 } F.hifStatusWidth 0) F.hifStatusSpeed 0

/-- A hot reset or DL_Down. -/
def linkDownEff (s : State) : State := flrEff 0 (linkDown s)

/-- PERST_N low: a reset of the PF, with HIFPHY off. -/
def perstAssertEff (s : State) : State := enterState 23 4 (flrEff 0 (linkDown (setPin 2 0 s)))

/-- PERST_N high: configuration requests are retried until firmware is ready, and HIFPHY wakes. -/
def perstReleaseEff (s : State) : State :=
  let s1 := { setPin 2 1 s with crsWindow := true }
  if s.up 4 then wakeNow 23 s1 else s1

/-- One second after the release. -/
def crsTimeoutEff (s : State) : State := { s with crsWindow := false }

/-- The negotiated width and rate, which nothing in the command tells (log entry 3). -/
def linkTrained (s : State) : State :=
  match s.takeFree with
  | (w, s1) => put (put s1 F.hifStatusWidth (w.toNat % 5)) F.hifStatusSpeed (1 + w.toNat / 8 % 6)

/-- The link changes its state: outside L0 and L0p the log engine pauses, and far spill waits (R30, R370). -/
def linkPowerEff (st : Nat) (s : State) : State :=
  if 5 ≤ st || !perstHigh s then s
  else
    let s1 := if st = 0 then linkDown s else if s.linkState = 0 then linkTrained { s with linkState := st } else { s with linkState := st }
    let s2 := if s.linkState = 4 ∧ st ≠ 4 then wakeNow 23 s1 else s1
    setPause 0 (!linkUp s2) s2

/-! ### Configuration requests (R312, R314, R421) -/

/-- A dword of a function's configuration space as last written. -/
def cfgDword (s : State) (fn off : Nat) : Nat := mget 0 s.fnState (fn * 4096 + off % 4096 / 4 * 4)

/-- VF Enable of the SR-IOV capability. -/
def vfEnabled (s : State) : Bool := (cfgDword s 0 Config.cfgSriov).testBit 0

/-- The PF is in D3hot with PME enabled and an attached queue holds an item: WAKE_N is driven low (R421). -/
def wakeLow (s : State) : Bool :=
  let w := cfgDword s 0 Config.cfgPmcsr
  s.up 7 && bits w 0 2 == 3 && w.testBit 8 && (List.range 16).any fun q =>
    (s.queue q).attached.isSome && ((s.queue q).items != [] || (s.queue q).marker.isSome)

/-- A configuration request answered: 0 success, 1 Unsupported Request, 2 Request Retry Status. The manual gives the space no
layout: what a read returns is left open (log entries 3 and 31). -/
def configEff (fn off : Nat) (wr : Option Nat) (s : State) : State :=
  if !perstHigh s then s
  else if s.crsWindow && !rdB s F.hifStatusReady then emitOut (.config 2 0) s
  else if 64 ≤ fn || (fn != 0 && !vfEnabled s) then emitOut (.config 1 0) s
  else
    match wr with
    | some v =>
      let a := off % 4096 / 4 * 4
      let s1 := { s with fnState := mset 0 s.fnState (fn * 4096 + a) (v % 2 ^ 32) }
      let s2 := if fn = 0 ∧ vfEnabled s1 = true ∧ s1.locked.contains 10 = false then { s1 with locked := 10 :: s1.locked } else s1
      emitOut (.config 0 0) s2
    | none => match s.takeFree with
      | (w, s1) => emitOut (.config 0 (w.toNat % 2 ^ 32)) s1

/-! ### Accesses to host memory that receive no completion (R315) -/

/-- The read of a far record fails: the walk for the next token that has not been looked up ends there (R146). -/
def spillTimeout (cl lpe : Nat) (s : State) : State :=
  match firstUnasked (s.pe (peKey s (cl * 16 + lpe))) with
  | some q =>
    let set := match q.why with | .entry st => st | .const st _ => st | .loop _ => 0
    if chainOf s cl lpe set true = [] then s
    else splookupEff ⟨cl, lpe, 0, stOK, none, some (chainOf s cl lpe set false).length⟩ (event 10 1 0 s)
  | none => s

/-- A request of the device that the host did not complete. -/
def complTimeoutEff (a : HostAcc) (s : State) : State :=
  match a with
  | .ring n => if (s.sess n).st = .active then ringError n s else s
  | .buffer n => match (s.sess n).cmds.find? (·.e.dlen != 0) with
    | some c => bufferError c s
    | none => s
  | .spill cl lpe => spillTimeout cl lpe s
  | .nvme i => if (s.ns i).isSome then setPause 1 true (event 12 5 0 (event 10 1 0 s)) else s

/-- An uncorrectable error of the link logged under AER (R348). -/
def aerEff (s : State) : State := event 10 0 0 s

/-! ### The rows -/

/-- FLR (R339). -/
def execFlr (fn : Nat) (s : State) : Host.Outcome State Fault Refusal := act 3 s (flrEff fn)

/-- FLR_COMPLETE (R339). -/
def execFlrComplete (fn : Nat) (s : State) : Host.Outcome State Fault Refusal := act 3 s (flrDoneEff fn)

/-- LINK_DOWN_RESET (R339). -/
def execLinkDownReset (s : State) : Host.Outcome State Fault Refusal := act 3 s linkDownEff

/-- LINK_POWER_CHANGE (R370). -/
def execLinkPowerChange (st : Nat) (s : State) : Host.Outcome State Fault Refusal := act 3 s (linkPowerEff st)

/-- PERST_ASSERT (R419): the pin falls whatever else is in reset. -/
def execPerstAssert (s : State) : Host.Outcome State Fault Refusal :=
  .next (if s.up 4 then perstAssertEff s else setPin 2 0 s)

/-- PERST_RELEASE (R312). -/
def execPerstRelease (s : State) : Host.Outcome State Fault Refusal := .next (perstReleaseEff s)

/-- CRS_TIMEOUT (R312). -/
def execCrsTimeout (s : State) : Host.Outcome State Fault Refusal := .next (crsTimeoutEff s)

/-- CONFIG_REQUEST (R312). -/
def execConfigRequest (fn off : Nat) (wr : Option Nat) (s : State) : Host.Outcome State Fault Refusal :=
  act 4 s (configEff fn off wr)

/-- COMPLETION_TIMEOUT (R315). -/
def execCompletionTimeout (a : HostAcc) (s : State) : Host.Outcome State Fault Refusal := act 3 s (complTimeoutEff a)

/-- AER_UNCORRECTABLE_ERROR (R348). -/
def execAerUncorrectableError (s : State) : Host.Outcome State Fault Refusal := act 3 s aerEff

end Sys2Proof.Machine
end

