-- ==== Sys2Proof/Machine/Image.lean ====
section
/-! DEFINITION. Graph images: their layout and the checks at load, placing, template handles, the graph image store
(R88, R101, R329, R335 to R337, R397, R434). -/

namespace Sys2Proof.Machine

open Sys2Proof

/-- A check: the offset of the field, and whether it offends. -/
abbrev Check := Nat × Bool

/-- The offset of the first offending byte. -/
def firstOffence (l : List Check) : Option Nat :=
  l.foldl (fun m c => if c.2 then some (match m with | some k => min k c.1 | none => c.1) else m) none

/-- A field of an image. -/
def imgField (bs : List Nat) (off n : Nat) : Nat := fieldLe bs off n

/-- The bits from `lo` up of a field of `n` bytes must be zero: the first byte that holds one that is not. -/
def zeroCheck (bs : List Nat) (off n lo : Nat) : Check :=
  let v := imgField bs off n / 2 ^ lo
  (off + (lo + ((List.range (8 * n)).find? v.testBit).getD 0) / 8, v != 0)

/-- A section table entry (R335), with its own offset. -/
structure Sect where
  entry : Nat
  typ : Nat
  sub : Nat
  aux : Nat
  off : Nat
  size : Nat
  deriving DecidableEq, Repr

/-- The section table. -/
def sections (bs : List Nat) : List Sect :=
  (List.range (min (imgField bs 0x0C 2) 1024)).map fun i =>
    let e := 0x40 + 16 * i
    ⟨e, imgField bs e 1, imgField bs (e + 1) 1, imgField bs (e + 2) 2, imgField bs (e + 4) 4, imgField bs (e + 8) 4⟩

/-- The header (R335). -/
def headerChecks (bs : List Nat) : List Check :=
  let len := imgField bs 8 4
  let nsect := imgField bs 0x0C 2
  [(0, imgField bs 0 4 != 0x47444B53), (4, imgField bs 4 2 != 1), zeroCheck bs 6 2 1,
   (8, len % 16 != 0 || bs.length < len || len < 0x40 + 16 * nsect), (0x0C, nsect == 0 || 1024 < nsect),
   (0x0E, 256 < imgField bs 0x0E 2),
   (0x10, shake256 ((bs.take len).drop 0x40) 32 != (bs.drop 0x10).take 32), zeroCheck bs 0x30 16 0]

/-- Bytes that the contents of a section need (R336). -/
def Sect.need (bs : List Nat) (x : Sect) : Nat :=
  if x.typ = 1 then 16 + 16 * imgField bs x.off 2 + (imgField bs x.off 2 + 127) / 128 * 16
  else 0x80 + 16 * imgField bs (x.off + 2) 2

/-- A section table entry: its type, its target, its place in the image. -/
def sectChecks (bs : List Nat) (x : Sect) : List Check :=
  let ntmpl := imgField bs 0x0E 2
  [(x.entry, x.typ != 1 && x.typ != 2), (x.entry + 1, x.typ == 2 && x.sub != 0),
   (x.entry + 2, (x.typ == 1 && 4096 < x.aux + imgField bs x.off 2) || (x.typ == 2 && ntmpl ≤ x.aux)),
   (x.entry + 4, x.off % 16 != 0), (x.entry + 8, imgField bs 8 4 < x.off + x.size || x.size < x.need bs),
   zeroCheck bs (x.entry + 12) 4 0]

/-- Two sections overlap: the entry of the later one offends; two TEMPLATE sections of one index do too. -/
def pairChecks : List Sect → List Check
  | [] => []
  | x :: xs =>
    xs.flatMap (fun y =>
      [(y.entry + 4, x.off < y.off + y.size && y.off < x.off + x.size && x.size != 0 && y.size != 0),
       (y.entry + 2, x.typ == 2 && y.typ == 2 && x.aux == y.aux)]) ++ pairChecks xs

/-- Every template of the image has its section. -/
def templChecks (bs : List Nat) : List Check :=
  [(0x0E, !(List.range (imgField bs 0x0E 2)).all fun i => (sections bs).any fun x => x.typ == 2 && x.aux == i)]

/-- The place of a PLACE section (R336). -/
def Sect.placed (bs : List Nat) (x : Sect) : Placed :=
  let n := imgField bs x.off 2
  { pe := x.sub, first := x.aux, words := (List.range n).map fun j => imgField bs (x.off + 16 + 16 * j) 16,
    ext := (List.range n).map fun j => (imgField bs (x.off + 16 + 16 * n + j / 8) 1).testBit (j % 8) }

/-- The places of an image. -/
def placesOf (bs : List Nat) : List Placed := ((sections bs).filter (·.typ == 1)).map (·.placed bs)

/-- The instruction address is placed on a PE and marked as `ext` says. -/
def placedAt (ps : List Placed) (pe ia : Nat) (ext : Bool) : Bool :=
  ps.any fun p => p.pe == pe && p.first ≤ ia && p.ext[ia - p.first]? == some ext

/-- The word at an IA keeps R88, and a FORK R101. -/
def wordOk (ps : List Placed) (pe ia n : Nat) : Bool :=
  let i := Insn.decode n
  i.ok && (i.opcode != 0x111 || (List.range (i.w3 % 16)).all fun k => placedAt ps pe (ia + 1 + k) true)

/-- The contents of a PLACE section. -/
def placeChecks (bs : List Nat) (ps : List Placed) (x : Sect) : List Check :=
  let p := x.placed bs
  let n := imgField bs x.off 2
  let pad := (n + 127) / 128 * 16
  [(x.off, n == 0 || 4096 < n), zeroCheck bs (x.off + 2) 14 0,
   zeroCheck bs (x.off + 16 + 16 * n) pad n]
  ++ (List.range n).map fun j =>
    (x.off + 16 + 16 * j,
      !(if p.ext.getD j false then extWordOk (p.words.getD j 0) else wordOk ps x.sub (x.aux + j) (p.words.getD j 0)))

/-- An argument table entry (R336). -/
def argOf (n : Nat) : ArgSlot := ⟨bits n 0 8, bits n 8 12, bits n 20 2⟩

/-- The template of a TEMPLATE section, as image `id` and handle `h`. -/
def Sect.template (bs : List Nat) (id h : Nat) (x : Sect) : Template :=
  let o := x.off
  let b0 := imgField bs o 1
  let b1 := imgField bs (o + 1) 1
  let q := imgField bs (o + 0x10) 8
  let fh := imgField bs (o + 0x30) 8
  { handle := h, image := id,
    d := { Desc.init with
      ring := bits b0 0 2, mode := bits b0 2 1, detonly := b0.testBit 3, stallpol := bits b0 4 2, phsrc := bits b1 0 4,
      farspill := b1.testBit 4, tmpl := h, kbound := (List.range 8).map fun n => bits (imgField bs (o + 8) 8) (6 * n) 6,
      mquota := bits q 0 16, squota := bits q 16 24, w0 := winOf (imgField bs (o + 0x18) 8),
      w1 := winOf (imgField bs (o + 0x20) 8), w2 := winOf (imgField bs (o + 0x28) 8), fhpe := bits fh 0 8,
      fhia := bits fh 8 12, fhv := fh.testBit 20 },
    args := (List.range (imgField bs (o + 4) 1)).map fun i => argOf (imgField bs (o + 0x40 + 4 * i) 4),
    consts := (List.range (imgField bs (o + 2) 2)).map fun i =>
      let c := o + 0x80 + 16 * i
      ⟨imgField bs c 8, imgField bs (c + 8) 1 % 16, imgField bs (c + 9) 1, imgField bs (c + 10) 1,
        imgField bs (c + 11) 2 % 4096⟩ }

/-- A window word: bits 5:0 of BASE and of LENGTH, and bits 63:54, are zero (R47). -/
def winChecks (bs : List Nat) (o : Nat) : List Check :=
  let w := imgField bs o 8
  [(o, bits w 0 6 != 0), (o + 3, bits w 25 6 != 0), zeroCheck bs o 8 54]

/-- The constants of a template. -/
def constChecks (bs : List Nat) (ps : List Placed) (mode o i : Nat) : List Check :=
  let c := o + 0x80 + 16 * i
  let ty := imgField bs (c + 8) 1
  let kind := imgField bs (c + 9) 1
  [(c + 8, 16 ≤ ty || (kind == 0 && !hostType ty)), (c + 9, 4 < kind || (kind != 0 && mode == 0)),
   (c + 10, !placedAt ps (imgField bs (c + 10) 1) (imgField bs (c + 11) 2) false), zeroCheck bs (c + 13) 3 0]

/-- The contents of a TEMPLATE section. -/
def templateChecks (bs : List Nat) (ps : List Placed) (x : Sect) : List Check :=
  let o := x.off
  let b0 := imgField bs o 1
  let fh := imgField bs (o + 0x30) 8
  let nargs := imgField bs (o + 4) 1
  let nconst := imgField bs (o + 2) 2
  [(o, bits b0 6 2 != 0 || (b0.testBit 2 && bits b0 0 2 != 3) || bits b0 4 2 == 3
      || ((imgField bs 6 2).testBit 0 && !b0.testBit 2)),
   (o + 1, 32 ≤ imgField bs (o + 1) 1), (o + 2, 256 < nconst), (o + 4, 16 < nargs), zeroCheck bs (o + 5) 3 0,
   zeroCheck bs (o + 8) 8 48, zeroCheck bs (o + 0x10) 8 40,
   (o + 0x30, fh.testBit 20 && !placedAt ps (bits fh 0 8) (bits fh 8 12) false), zeroCheck bs (o + 0x30) 8 21,
   zeroCheck bs (o + 0x38) 8 0]
  ++ winChecks bs (o + 0x18) ++ winChecks bs (o + 0x20) ++ winChecks bs (o + 0x28)
  ++ ((List.range 16).flatMap fun i =>
    let p := o + 0x40 + 4 * i
    if i < nargs then
      let a := argOf (imgField bs p 4)
      [(p, !placedAt ps a.pe a.ia false), zeroCheck bs p 4 22]
    else [zeroCheck bs p 4 0])
  ++ (List.range (min nconst 256)).flatMap (constChecks bs ps (bits b0 2 1) o)

/-- IMGINVALID: the offset of the first offending byte of an image (R328, R337). Sections are read only when the
header and the table hold. -/
def imageOffence (bs : List Nat) : Option Nat :=
  let xs := sections bs
  match firstOffence (headerChecks bs ++ xs.flatMap (sectChecks bs) ++ pairChecks xs ++ templChecks bs) with
  | some o => some o
  | none =>
    let ps := placesOf bs
    firstOffence (xs.flatMap fun x => if x.typ = 1 then placeChecks bs ps x else templateChecks bs ps x)

/-- An IA of one of the places is placed by a loaded image. -/
def placeConflict (s : State) (ps : List Placed) : Bool :=
  ps.any fun p => s.images.any fun im => im.places.any fun q =>
    p.pe == q.pe && p.first < q.first + q.words.length && q.first < p.first + p.words.length

/-- A logical PE is failed (R397). -/
def lpeFailed (s : State) (d : Nat) : Bool := (rd s (F.clRemapFailed (d / 16))).testBit (physPe s (d / 16) (d % 16))

/-- Bytes of the graph image store in use: working copies and stored images (R16, R337). -/
def storeUsed (s : State) : Nat :=
  s.images.foldl (fun n im => n + im.bytes.length) 0 + s.stored.foldl (fun n e => n + e.2.length) 0

/-- The graph image store of R16. -/
def storeSize : Nat := 40 * 2 ^ 20

/-- The lowest number from `lo` with `n` numbers from it free, below 65,536. -/
def lowestRun (used : List Nat) (lo n : Nat) : Option Nat :=
  (lo :: used.map (· + 1)).foldl (fun m k =>
    if lo ≤ k && k + n ≤ 65536 && used.all (fun u => u < k || k + n ≤ u) then
      some (match m with | some j => min j k | none => k)
    else m) none

/-- The placed words in the instruction stores of the PEs that serve their logical PEs. -/
def writePlaced (p : Placed) (s : State) : State :=
  s.updPe (peKey s p.pe) fun x =>
    { x with imem := p.words.zipIdx.foldl (fun m e => mset 0 m (p.first + e.2) e.1) x.imem }

/-- The image is placed, given its handles and its working copy, and measured (R337, R434). -/
def placeImage (c : Cmd) (bs : List Nat) (s : State) : State :=
  let ps := placesOf bs
  let xs := (sections bs).filter (·.typ == 2)
  if xs.any fun x => (x.template bs 0 0).d.ring < (if c.sess = 0 then 2 else 3) then failCmd c scRING s
  else if placeConflict s ps then failCmd c scPLACECONFLICT s
  else if storeSize < storeUsed s + bs.length || ps.any fun p => lpeFailed s p.pe then failCmd c scNORESOURCE s
  else
    match lowestRun (s.templates.map (·.handle)) 1 xs.length, lowestRun (s.images.map (·.id)) 0 1 with
    | some h, some id =>
      let s1 := { s with
        images := s.images ++ [⟨id, c.sess, ps, bs⟩], templates := s.templates ++ xs.map fun x => x.template bs id (h + x.aux) }
      let s2 := measure 4 0 id ((bs.drop 0x10).take 32) (forAll ps writePlaced s1)
      succeed c (h + xs.length * 2 ^ 16) id s2
    | _, _ => failCmd c scNORESOURCE s

/-- An image's bytes: those up to its LENGTH. -/
def checkedImage (c : Cmd) (bs : List Nat) (s : State) : State :=
  match imageOffence bs with
  | some o => finishCmd c scIMGINVALID 0 o 0 s
  | none => placeImage c (bs.take (imgField bs 8 4)) s

def imgLoadEff (r : Run) : State → State := runCmd r 0x11 0 true [0, 0x1FF] fun c s =>
  let p := c.par 1
  if p.testBit 8 then
    if c.e.dptr ≠ 0 then invField c 8 s
    else if c.e.dlen ≠ 0 then invField c 16 s
    else if 64 ≤ p % 256 then invField c 32 s
    else
      match mget [] s.stored (p % 256) with
      | [] => failCmd c scNOTFOUND s
      | bs => checkedImage c bs s
  else if p ≠ 0 then invField c 32 s
  else if r.bad then bufferError c s
  else checkedImage c (r.data.take c.e.dlen) s

def imgStoreEff (r : Run) : State → State := runCmd r 0x05 1 false [0xFFFF, 0xFF] fun c s =>
  let slot := c.par 1
  if 64 ≤ slot then invField c 32 s
  else
    match s.images.find? (·.id == c.par 0) with
    | none => failCmd c scNOTFOUND s
    | some im =>
      let s1 := { s with stored := mset [] s.stored slot im.bytes }
      if storeSize < storeUsed s1 then failCmd c scNORESOURCE s else succeed c im.bytes.length 0 s1

/-- A context of one of an image's templates is not FREE. -/
def imageBusy (s : State) (id : Nat) : Bool :=
  (busyCtxs s).any fun k => s.templates.any fun t => t.image == id && t.handle == (s.ctx k).d.tmpl

def imgUnloadEff (r : Run) : State → State := runCmd r 0x12 0 false [0xFFFF] fun c s =>
  let id := c.par 0
  match s.images.find? (·.id == id) with
  | none => failCmd c scNOTFOUND s
  | some im =>
    if c.sess ≠ 0 ∧ c.sess ≠ im.sess then failCmd c scNOTPERMITTED s
    else if imageBusy s id then failCmd c scBUSY s
    else succeed c 0 0 { s with images := s.images.filter (·.id != id), templates := s.templates.filter (·.image != id) }

/-! ### The rows -/

/-- IMG_STORE (R329). -/
def execImgStore (r : Run) (s : State) : Host.Outcome State Fault Refusal := act 6 s (imgStoreEff r)

/-- IMG_LOAD (R337). -/
def execImgLoad (r : Run) (s : State) : Host.Outcome State Fault Refusal := act 6 s (imgLoadEff r)

/-- IMG_UNLOAD (R337). -/
def execImgUnload (r : Run) (s : State) : Host.Outcome State Fault Refusal := act 6 s (imgUnloadEff r)

end Sys2Proof.Machine
end

