-- ==== Sys2Proof/Machine/Repair.lean ====
section
/-! DEFINITION. The repair controller: retirements, the repair map, the fault census, and the patrol of the PE stores (R23, R238,
R273, R391 to R401). -/

namespace Sys2Proof.Machine

open Sys2Proof

/-! ### The repair map and the fault census (R398, R399) -/

/-- Where the repair and census region begins (R455); the map first, the two census copies after it (log entry 29). -/
def repBase : Nat := 0x203800000

def censusBase (copy : Nat) : Nat := repBase + 0x10000 + copy * 0x2000

/-- The spare that a retirement takes: the next row or column of its array, 0 for a whole unit. -/
def spareOf (s : State) (r : Retire) : Nat :=
  if r.kind = 1 ∨ r.kind = 2 ∨ r.kind = 6 then mget 0 s.spareRows (spareKey r.kind r.array r.unit) else 0

/-- A record appended to the repair map while it has room. -/
def writeRecord (r : Retire) (s : State) : State :=
  let n := s.mapRecs.length
  if 4096 ≤ n then s
  else
    let bs := mapRecord r (spareOf s r) (tick s % 2 ^ 32)
    put { s with mapRecs := s.mapRecs ++ [bs], mem := memWrite s.mem (repBase + 16 * n) bs } F.repMapusedRecords (n + 1)

/-- The sources counted: every source of every block, as block × 32 + source. -/
def censusKeys : List Nat := List.range (34 * 32)

/-- The lifetime count of a source after the addition. -/
def lifeAfter (s : State) (k : Nat) : Nat :=
  min (mget 0 s.lifetime k + (mget 0 s.census k + 2 ^ 48 - mget 0 s.censusSeen k) % 2 ^ 48) 0xFFFFFFFF

/-- The copy of the table with the higher sequence whose CRC holds: its number and sequence. -/
def censusLatest (s : State) : Nat × Nat :=
  let seqOf (c : Nat) : Nat :=
    let b := memRead s.mem (censusBase c) 4368
    if fieldLe b 4360 8 = crc64 (b.take 4360) then fieldLe b 4352 8 else 0
  if seqOf 0 < seqOf 1 then (1, seqOf 1) else (0, seqOf 0)

/-- The census counts added into the lifetime counts, and the table written over the older copy. -/
def censusAdd (s : State) : State :=
  let life := censusKeys.foldl (fun m k => mset 0 m k (lifeAfter s k)) s.lifetime
  let b := censusKeys.flatMap (fun k => leBytes 4 (mget 0 life k))
  match censusLatest s with
  | (c, q) =>
    let b' := b ++ leBytes 8 (q + 1)
    { s with lifetime := life, censusSeen := s.census, mem := memWrite s.mem (censusBase (1 - c)) (b' ++ leBytes 8 (crc64 b')) }

/-! ### Starting a retirement -/

/-- REP_STATE: 0 idle, 1 copying, 2 switching, 3 recording. -/
def repState (n : Nat) (s : State) : State := put s F.repStateState n

/-- The retirement is over. -/
def retireEnd (s : State) : State :=
  repState 0 <| put (put (put { s with running := none, copied := false, committed := false } F.repStateWaitfw 0) F.repStateKind 0)
    F.repStateUnit 0

/-- The retirement runs. -/
def retireRuns (r : Retire) (s : State) : State :=
  repState 1 (put (put { s with running := some (r, 0), copied := false, committed := false } F.repStateKind r.kind)
    F.repStateUnit r.unit)

def retired (kind : Nat) (s : State) : State := event 33 3 kind s

/-- A retirement that finds no spare at its start (R386, R400). -/
def noSpare (r : Retire) (s : State) : State :=
  forAll (if r.kind = 3 ∨ r.kind = 4 then affected s r else []) quiesceCtx (event 33 2 r.kind s)

/-- The contexts of a retired station's cluster, or with a window in a bank of its group (R396). -/
def behindStation (s : State) (st : Nat) : List Nat :=
  (busyCtxs s).filter fun c =>
    let x := s.ctx c
    x.liveOrQuiesced &&
      match stationCl st with
      | some cl => ctxOfCl s cl c
      | none => (List.range 32).any fun b => bgStation b == st && (x.d.w0.inBank b || x.d.w1.inBank b || x.d.w2.inBank b)

/-- The packets that the retirement of a station loses: those in its buffers, and those elsewhere on the rings that only it could
eject (log entry 30). -/
def residents (s : State) (st : Nat) : List Packet := s.net.filter fun p => p.onRing && (p.at_ == st || p.dstn == st)

/-- STNLOSS with the packets lost of each virtual network, 12 bits each, the TOK count lowest (log entry 30). -/
def stnLoss (st : Nat) (lost : List Packet) (s : State) : State :=
  if lost = [] then s
  else
    let n := (List.range 5).foldl (fun m v => m + min (lost.filter (·.vn == v)).length 4095 * 2 ^ (12 * v)) 0
    fault { FEv.plain 6 3 st with detail := n } s

/-- The requests of every other station that wait for the retired one are completed with LOST (R238). -/
def loseRequests (st : Nat) (s : State) : State :=
  let s1 := forAll (s.pes.map (·.1)) (fun k s =>
    if clStation (k / 17) = st then s
    else forAll ((s.pe k).reqs.filter (·.station == st)) (fun q s => answerPe k q stLOST [] s) s) s
  forAll ((List.range 26).filter (· != st)) (fun a s =>
    forAll ((s.stn a).pend.filter (·.dstn == st)) (fun q s =>
      answered q.asker stLOST [] false (s.updStn a fun x => { x with pend := x.pend.filter (· != q) })) s) s1

/-- A station switches to its passive path at once (R238, R396). -/
def stationRetire (r : Retire) (s : State) : State :=
  let st := r.unit
  let lost := residents s st
  let s1 := putOr { s with net := s.net.filter fun p => !(p.onRing && (p.at_ == st || p.dstn == st)) } F.rngBypassByp (2 ^ st)
  retired 5 (forAll (behindStation s st) quiesceCtx (loseRequests st (stnLoss st lost (writeRecord r s1))))

/-- The retirement of PE `u` of a cluster whose spare is free: the PE stops. The free spare itself is only marked. -/
def peRetire (r : Retire) (s : State) : State :=
  let cl := r.unit / 32
  if r.unit % 32 = 16 then retired 3 (putOr (writeRecord r (markFailed r.unit s)) F.repPespareFailed (2 ^ cl))
  else retireRuns r (s.updPe (cl * 17 + r.unit % 32) fun p => { p with stopped := true })

/-- A retirement with a spare begins. -/
def retireBegin (r : Retire) (s : State) : State :=
  if r.kind = 3 then peRetire r s
  else if r.kind = 4 then
    let s1 := retireRuns r (writeRecord r (put (put (put s F.sbSpareState 1) F.sbSpareBank r.unit) F.sbSpareCopied 0))
    { s1 with running := some (r, s.now) }
  else if r.kind = 5 then stationRetire r s
  else retireRuns r (writeRecord r s)

/-! ### The steps of a PE retirement (R394, R395) -/

/-- The PE's pipe is empty: firmware is asked to load the spare, and the copy starts. -/
def pipeDrainedEff (s : State) : State :=
  match s.running with
  | some (r, _) =>
    if r.kind = 3 ∧ rdB s F.repStateWaitfw = false ∧ (s.pe (r.unit / 32 * 17 + r.unit % 32)).pipe = none ∧ s.deviceHalted = false then
      raiseIrq 33 (put { s with running := some (r, s.now) } F.repStateWaitfw 1)
    else s
  | none => s

/-- The PE retirement is abandoned: PE p stays stopped and has failed, and its contexts are quiesced. -/
def retireAbandon (r : Retire) (s : State) : State :=
  let s1 := markFailed r.unit (retireEnd s)
  event 33 5 3 (forAll (affected s1 r) quiesceCtx s1)

/-- An asker of PE `old` becomes one of PE `new`. -/
def Asker.move (old new : Nat) (a : Asker) : Asker := if a = .pe old then .pe new else a

/-- What still comes back to PE `old` goes to PE `new`. -/
def moveAskers (old new : Nat) (s : State) : State :=
  { s with
    net := s.net.map fun p => { p with asker := p.asker.move old new },
    defers := s.defers.map fun e => (e.1, e.2.map fun d => { d with asker := d.asker.move old new }),
    ctxs := s.ctxs.map fun e => (e.1, match e.2.onLive with
      | .firing k txn ref => { e.2 with onLive := .firing (if k = old then new else k) txn ref }
      | _ => e.2),
    stations := s.stations.map fun e =>
      (e.1, { e.2 with parkReq := e.2.parkReq.map fun p => { p with asker := p.asker.move old new } }) }

/-- Steps 5 and 6: the record is written, and the spare serves the logical PE with the state of the retired PE. -/
def peSwitch (r : Retire) (s : State) : State :=
  let cl := r.unit / 32
  let old := cl * 17 + r.unit % 32
  let new := cl * 17 + 16
  let p := s.pe old
  let s1 := markFailed r.unit (substPe cl (r.unit % 32) (writeRecord r s))
  let s2 := s1.setPe new { p with imem := (s.pe new).imem, lwc := [], stopped := false }
  retired 3 (retireEnd (moveAskers old new (s2.setPe old { Pe.init with imem := p.imem, stopped := true })))

/-- The copy of the PE's state is complete; the model moves the state at the switch. -/
def stateCopiedEff (bad : Bool) (s : State) : State :=
  match s.running with
  | some (r, _) =>
    if r.kind = 3 ∧ rdB s F.repStateWaitfw = true ∧ s.copied = false then
      if bad then
        retireAbandon r (putOr (markFailed (r.unit / 32 * 32 + 16) s) F.repPespareFailed (2 ^ (r.unit / 32)))
      else if s.committed then peSwitch r s
      else { s with copied := true }
    else s
  | none => s

/-- A write of REP_RETCOMMIT by the physical function or by firmware in ring 0; step 5 waits for step 4. -/
def retcommitEff (init : Nat) (s : State) : State :=
  match s.running with
  | some (r, _) =>
    if supInit init && r.kind == 3 && rdB s F.repStateWaitfw then
      if s.copied then peSwitch r s else { s with committed := true }
    else s
  | none => s

/-- REP_RETTO has passed since WAITFW. -/
def retireTimeoutEff (s : State) : State :=
  match s.running with
  | some (r, t) =>
    if r.kind = 3 ∧ rdB s F.repStateWaitfw = true ∧ msEtu (rd s F.repRettoMs) ≤ s.now - t then retireAbandon r s else s
  | none => s

/-! ### Rows, columns and banks (R273, R393) -/

/-- The spare row or column is in use. -/
def rowDoneEff (s : State) : State :=
  match s.running with
  | some (r, _) =>
    if r.kind = 1 ∨ r.kind = 2 ∨ r.kind = 6 then retired r.kind (retireEnd (applyRepair r.kind r.array r.unit s))
    else s
  | none => s

/-- The spare multiplexer switches once every row has been copied: bank 32 answers as bank b. -/
def spareSwitchEff (s : State) : State :=
  match s.running with
  | some (r, _) =>
    if r.kind = 4 ∧ rd s F.sbSpareState = 1 ∧ rd s F.sbSpareCopied = 2048 then retired 4 (retireEnd (put s F.sbSpareState 2)) else s
  | none => s

/-! ### The queue of retirements (R386, R400) -/

/-- The next queued retirement starts; the census is added up first. -/
def retireStartEff (s : State) : State :=
  match s.running, s.retQueue with
  | none, r :: rest =>
    if s.deviceHalted then s
    else
      let s1 := censusAdd { s with retQueue := rest }
      match widen s1 r with
      | some t => if spareLeft s1 t then retireBegin t s1 else noSpare t s1
      | none => noSpare r s1
  | _, _ => s

/-- A write of REP_RETIRE: GO queues the unit given, as a RETIRE reaction would. -/
def repRetireEff (init val : Nat) (s : State) : State :=
  if !supInit init then s
  else
    match writePlain s 33 4 val with
    | (s0, bad) =>
      let s1 := if bad then cfgErr 33 s0 else s0
      let r : Retire := ⟨rd s1 F.repRetireKind, rd s1 F.repRetireArray, rd s1 F.repRetireUnit, rd s1 F.repRetireIndex⟩
      if bits val 31 1 = 1 && 1 ≤ r.kind && r.kind ≤ 4 && mapUnitOk r.kind r.array r.unit 0 then
        let k := settle s1 { FEv.plain 33 2 r.kind with tgt := some r } 3
        let s2 := forAll k.quiesce quiesceCtx s1
        let s3 := match k.retire with | some t => { s2 with retQueue := s2.retQueue ++ [t] } | none => s2
        match k.nospare with
        | some kd => event 33 2 kd s3
        | none => s3
      else s1

/-! ### Patrol (R401) -/

/-- A patrol read of an idle PE: corrections are reported; an uncorrectable word stays, an uncorrectable entry goes as R124
says. -/
def patrolEff (p : Patrol) (s : State) : State :=
  let k := p.cl * 17 + p.pe
  let x := s.pe k
  if clRuns s p.cl && p.pe < 17 && !x.stopped && x.pipe.isNone && x.inq.isEmpty then
    let s1 := match p.word with
      | .ok => s
      | .corrected => fault { FEv.plain (17 + p.cl) 0 p.pe with tgt := some ⟨1, 0, p.cl * 32 + p.pe, p.ia % 4096 / 16⟩ } s
      | .uncorrectable => fault { FEv.plain (17 + p.cl) 1 p.pe with tgt := some ⟨3, 0, p.cl * 32 + p.pe, 0⟩ } s
    match (s1.pe k).store[p.entry]? with
    | some e => (readEntry k e p.half0 p.half1 s1).2
    | none => s1
  else s

/-! ### The rows -/

/-- REP_RETIRE (R400). -/
def execRepRetire (init val : Nat) (s : State) : Host.Outcome State Fault Refusal := act 3 s (repRetireEff init val)

/-- RETIRE_START (R394). -/
def execRetireStart (s : State) : Host.Outcome State Fault Refusal := act 3 s retireStartEff

/-- PE_PIPE_DRAINED (R394). -/
def execPePipeDrained (s : State) : Host.Outcome State Fault Refusal := act 3 s pipeDrainedEff

/-- PE_STATE_COPIED (R394). -/
def execPeStateCopied (spareBad : Bool) (s : State) : Host.Outcome State Fault Refusal := act 3 s (stateCopiedEff spareBad)

/-- REP_RETCOMMIT (R394). -/
def execRepRetcommit (init : Nat) (s : State) : Host.Outcome State Fault Refusal := act 3 s (retcommitEff init)

/-- RETIRE_TIMEOUT (R394). -/
def execRetireTimeout (s : State) : Host.Outcome State Fault Refusal := act 3 s retireTimeoutEff

/-- ROW_RETIRE_DONE (R393). -/
def execRowRetireDone (s : State) : Host.Outcome State Fault Refusal := act 3 s rowDoneEff

/-- SPARE_SWITCH (R273). -/
def execSpareSwitch (s : State) : Host.Outcome State Fault Refusal := act 3 s spareSwitchEff

/-- CENSUS_UPDATE (R399). -/
def execCensusUpdate (s : State) : Host.Outcome State Fault Refusal := act 3 s censusAdd

/-- PATROL_READ (R401). -/
def execPatrolRead (p : Patrol) (s : State) : Host.Outcome State Fault Refusal := act 5 s (patrolEff p)

end Sys2Proof.Machine
end

