-- ==== Sys2Proof/Machine/StoreWindow.lean ====
section
/-! DEFINITION. Which initiators may write registers, and the store window of a cluster onto its PE stores, context table slice
and gate table (R387, R456, R458, R459). -/

namespace Sys2Proof.Machine

open Sys2Proof

/-- An offset of BAR0 lies in a fault register group (R379). -/
def inFaults (off : Nat) : Bool := (blkOf off).isSome && 0xF000 ≤ off % 0x10000

/-- A register that only the supervisor cores write: SEC_CFGCTL, SEC_CFGDATAk and the SEC_HASH registers (R430, R462). -/
def coresOnly (o : Nat) : Bool := o == 0x30 || (0x40 ≤ o && o < 0x60) || (0x800 ≤ o && o < 0x830)

/-- A write of an initiator to a register is accepted (R456); in a device halt the host writes only GEN_QUIESCE and the fault
groups (R387). -/
def writeAccepted (s : State) (init off : Nat) : Bool :=
  let core := 0x50 ≤ init && init ≤ 0x53
  let pf := init == 0x10
  let halt := pf && s.deviceHalted && off != 0x30 && !inFaults off
  !halt &&
    match blkOf off with
    | none => pf || core || (init == 0x5D && hasRight s 3)
    | some b =>
      let o := off % 0x10000
      if b = 16 then init == 0x5D
      else if b = 15 ∨ b = 33 then pf || core
      else if b = 0 ∧ o = 0x40 then pf || core
      else if b = 14 ∧ coresOnly o = true then core
      else pf || core || (init == 0x5D && hasRight s 3) || (init == 0x5B && (b == 3 || b == 13))

/-! ### Items (R458) -/

/-- The descriptor of a slot as its 64 bytes (R47). -/
def descBits (x : Ctx) : Nat :=
  let d := x.d
  let win (w : Win) : Nat := w.base % 2 ^ 25 + w.length % 2 ^ 25 * 2 ^ 25 + w.perm % 16 * 2 ^ 50
  let w0 := stateCode x.state + d.mode % 2 * 2 ^ 3 + d.ring % 4 * 2 ^ 4 + bit d.detonly * 2 ^ 6 + bit d.farspill * 2 ^ 7
    + x.gen % 256 * 2 ^ 8 + d.phsrc % 16 * 2 ^ 16 + d.stallpol % 4 * 2 ^ 20 + d.session % 2 ^ 12 * 2 ^ 24
    + d.fltch % 2 ^ 12 * 2 ^ 36 + d.tmpl % 2 ^ 16 * 2 ^ 48
  let w1 := (List.range 8).foldl (fun m n => m + d.kbound.getD n 0 % 64 * 2 ^ (6 * n)) 0
  let w2 := d.mquota % 2 ^ 16 + d.squota % 2 ^ 24 * 2 ^ 16 + d.drvfirst % 256 * 2 ^ 40 + d.drvcount % 512 * 2 ^ 48
  let w7 := d.fhpe % 256 + d.fhia % 2 ^ 12 * 2 ^ 8 + bit d.fhv * 2 ^ 20
  w0 + w1 * 2 ^ 64 + w2 * 2 ^ 128 + d.rettag % 2 ^ 64 * 2 ^ 192 + win d.w0 * 2 ^ 256 + win d.w1 * 2 ^ 320 + win d.w2 * 2 ^ 384
    + w7 * 2 ^ 448

/-- Entry `i` of a matching store: set i / 4, way i % 4, the ways taken in the order in which the model lists them. -/
def entryAt (p : Pe) (i : Nat) : Nat :=
  match (p.store.filter fun e => e.set == i / 4)[i % 4]? with
  | some e => Rec.image (.entry e)
  | none => 0

/-- The item that the window names. -/
def swItem (s : State) (cl : Nat) : Nat :=
  let i := rd s (F.clSwaddrIndex cl)
  let p := s.pe (cl * 17 + rd s (F.clSwaddrPpe cl))
  match rd s (F.clSwaddrSpace cl) with
  | 0 => mget 0 p.imem i
  | 1 => entryAt p i
  | 2 => descBits (s.ctx (cl * 1024 + i))
  | _ => mget 0 s.gateTable (cl * 256 + i)

/-- The PE named has failed, or is being retired; the spare of a running retirement is open (R459). -/
def swBarred (s : State) (cl : Nat) : Bool :=
  let p := rd s (F.clSwaddrPpe cl)
  decide (rd s (F.clSwaddrSpace cl) < 2) &&
    ((rd s (F.clRemapFailed cl)).testBit p
      || match s.running with | some (r, _) => r.kind == 3 && r.unit == cl * 32 + p | none => false)

/-- SWDATA as one number. -/
def swData (s : State) (cl : Nat) : Nat :=
  (List.range 16).foldl (fun m k => m + rd s (F.clSwdataData cl k) * 2 ^ (32 * k)) 0

/-- How many words of SWDATA an item takes. -/
def swWords (space : Nat) : Nat := if space = 0 then 4 else if space = 1 then 8 else if space = 2 then 16 else 2

/-- An operation begins and its result is recorded; BUSY holds until it is complete. -/
def swStart (cl err : Nat) (s : State) : State := put (put s (F.clSwctlBusy cl) 1) (F.clSwctlErr cl) err

/-- An item goes to SWDATA. -/
def swReadEff (cl : Nat) (s : State) : State :=
  if swBarred s cl then swStart cl 2 s
  else
    let n := swItem s cl
    swStart cl 0 (forAll (List.range (swWords (rd s (F.clSwaddrSpace cl))))
      (fun k s => put s (F.clSwdataData cl k) (bits n (32 * k) 32)) s)

/-- The bits of a gate entry that must be zero (R70). -/
def gateReserved (n : Nat) : Bool := bits n 22 10 != 0 || bits n 37 27 != 0

/-- SWDATA goes to the item: an instruction word or a gate entry. -/
def swWriteEff (cl : Nat) (s : State) : State :=
  let i := rd s (F.clSwaddrIndex cl)
  let space := rd s (F.clSwaddrSpace cl)
  let n := swData s cl
  if space = 1 ∨ space = 2 then swStart cl 1 s
  else if swBarred s cl then swStart cl 2 s
  else if space = 0 then
    swStart cl 0 (s.updPe (cl * 17 + rd s (F.clSwaddrPpe cl)) fun p => { p with imem := mset 0 p.imem i (n % 2 ^ 128) })
  else if gateReserved (n % 2 ^ 64) then swStart cl 4 s
  else swStart cl 0 { s with gateTable := mset 0 s.gateTable (cl * 256 + i) (n % 2 ^ 64) }

/-- A write of CLn_SWCTL: both bits, or any while an operation runs, are discarded with CFGERR (R459). -/
def swctlWrite (cl val : Nat) (s : State) : State :=
  let rd_ := val.testBit 0
  let wr := val.testBit 1
  if !rd_ && !wr then s
  else if (rd_ && wr) || rdB s (F.clSwctlBusy cl) then cfgErr (17 + cl) s
  else if wr then swWriteEff cl s
  else swReadEff cl s

/-- An operation is complete. -/
def swDoneEff (cl : Nat) (s : State) : State := if cl < 16 then put s (F.clSwctlBusy cl) 0 else s

/-- A write of CLn_SWCTL by an initiator. -/
def swOp (init cl bits : Nat) (s : State) : State :=
  if cl < 16 && writeAccepted s init (0x200904 + 0x10000 * cl) then swctlWrite cl bits s else s

/-! ### The rows -/

/-- SW_READ (R459). -/
def execSwRead (init cl : Nat) (s : State) : Host.Outcome State Fault Refusal := act 5 s (swOp init cl 1)

/-- SW_WRITE (R459). -/
def execSwWrite (init cl : Nat) (s : State) : Host.Outcome State Fault Refusal := act 5 s (swOp init cl 2)

/-- SW_OP_DONE (R459). -/
def execSwOpDone (cl : Nat) (s : State) : Host.Outcome State Fault Refusal := act 5 s (swDoneEff cl)

end Sys2Proof.Machine
end

