-- ==== Sys2Proof/Machine/RegAccess.lean ====
section
/-! DEFINITION. Reads and writes of registers, from the host and over the management network, and the other regions of the
device address space (R7 to R13, R31, R163, R236, R242, R275, R379, R450, R452 to R460). -/

namespace Sys2Proof.Machine

open Sys2Proof

/-! ### Values read (R10) -/

/-- A counter of the selected station and initiator in the readable half (R241, R242). -/
def statShadow (s : State) (k : Nat) : Nat :=
  match (s.stn (rd s F.rngStatselStn)).shadow.find? (·.1 == rd s F.rngStatselInit) with
  | some (_, r) => r.getD k 0
  | none => 0

/-- PWR_DOMSTAT.TNEXT: µs to the known event of a domain, saturating (R422). -/
def tnext (s : State) (d : Nat) : Nat :=
  match mget none s.pwrE d with
  | some e => min ((e - s.now) / usEtu 1) 0xFFFFFF
  | none => 0xFFFFFF

/-- LCK_CELLn as read. -/
def Lock.word (x : Lock) : Nat := x.holder % 2 ^ 16 + bit x.abandoned * 2 ^ 30 + bit x.held * 2 ^ 31

/-- One bit of each of 32 lock cells. -/
def lockMask (s : State) (k : Nat) (f : Lock → Bool) : Nat :=
  (List.range 32).foldl (fun m j => m + bit (f (s.lock (32 * k + j))) * 2 ^ j) 0

/-- A field that shows other state of the device and is kept nowhere else: its value. Index 0 of the register's indices is
`i`. -/
def shown (s : State) (b off lo i : Nat) : Option Nat :=
  if 0xF020 ≤ off ∧ off < 0xF040 then some (histWord s b ((off - 0xF020) / 4))
  else if 0xF000 ≤ off then none
  else if 17 ≤ b ∧ b ≤ 32 then
    (if 0x500 ≤ off ∧ off < 0x544 ∧ lo = 0 then some (s.pe ((b - 17) * 17 + i)).store.length
     else if off = 0x604 ∧ lo = 0 then some (gateUsed s (b - 17))
     else if off = 0x464 ∧ lo = 30 then
       some (if rdB s (F.clStallcfgEn (b - 17)) && waitsFull s (b - 17) then rd s (F.clStallstatState (b - 17)) else 0)
     else none)
  else
    match b with
    | 8 => if 0x100 ≤ off ∧ off < 0x180 ∧ lo = 21 then some (min ((defersOf s i).length + openAt s i) 2047) else none
    | 0 => if off = 0 then some (genId s / 2 ^ lo) else none
    | 1 =>
      if off = 0 ∧ lo = 24 then some s.ledger.length
      else if 0x200 ≤ off ∧ lo = 31 then some (bit (s.ledger.any (·.dom == i)))
      else if 0x200 ≤ off ∧ lo = 30 then some (bit (govLimited s i))
      else if 0x200 ≤ off ∧ lo = 0 then some (tnext s i)
      else none
    | 3 =>
      if off < 0x100 then none
      else
        let r := off % 64
        let w := s.phNow.getD i .init
        if r = 0x18 ∧ lo < 7 then some (mget 0 s.held (i * 4 + 3) / 2 ^ lo)
        else if r = 0x20 then some w.pb
        else if r = 0x24 then some (mget 0 s.held (i * 4))
        else if r = 0x28 then some (mget 0 s.held (i * 4 + 1))
        else if r = 0x2C then some (mget 0 s.held (i * 4 + 2))
        else none
    | 6 =>
      if off = 0x10 then some (drainMask s)
      else if 0x24 ≤ off ∧ off ≤ 0x38 then some (statShadow s ((off - 0x24) / 4))
      else if 0x100 ≤ off ∧ off < 0x1000 then
        (match lo with
         | 16 => some (s.stn i).parkTok.length
         | 7 => some (s.stn i).parkReq.length
         | 2 => some (s.stn i).parkMgt.length
         | _ => none)
      else none
    | 9 =>
      if off < 0x400 then some ((s.lock i).word / 2 ^ lo)
      else if 0x500 ≤ off ∧ off < 0x520 then some (lockMask s i Lock.held)
      else if 0x520 ≤ off then some (lockMask s i Lock.abandoned)
      else none
    | 10 =>
      if off = 0x30 ∧ lo = 16 then some (2048 - 63 * rd s F.hifVecsplitVfvec)
      else if off = 0x34 then some (s.sessions.filter (fun e => e.2.st != .free)).length
      else none
    | 11 =>
      if off < 0x100 ∨ 0x4000 ≤ off then none
      else
        let q := s.queue i
        if off % 16 = 4 then some q.next
        else
          (match lo with
           | 31 => some (bit q.attached.isSome)
           | 16 => some (q.attached.getD 0)
           | 11 => some (bit q.marker.isSome)
           | 0 => some q.items.length
           | _ => none)
    | 14 =>
      if off = 4 then some s.svnFloor
      else if 0x100 ≤ off ∧ off < 0x120 then some (fieldLe s.fwKeyHash (4 * i) 4)
      else none
    | 16 =>
      if off = 0 then some (portStat s / 2 ^ lo)
      else if 0x10 ≤ off ∧ off < 0x30 then some ((Config.challenge s.challengeNo).toNat / 2 ^ (32 * i))
      else if off = 0x404 ∧ lo = 0 then some ((List.range 16).foldl (fun m c => m + bit (s.cl c).halted * 2 ^ c) 0)
      else none
    | 33 => if off = 0 ∧ lo = 24 then some s.retQueue.length else none
    | _ => none

/-- The value that a read returns for a field, in its place. -/
def readField (s : State) (b off : Nat) (is : List Nat) (fd : FieldD) : Nat :=
  match fd.acc with
  | .wo | .w1s => 0
  | _ =>
    let w := fd.hi - fd.lo + 1
    ((shown s b off fd.lo (is.headD 0)).getD (rd s (fldAt b off is fd))) % 2 ^ w * 2 ^ fd.lo

/-- The value of a register; an undefined offset reads as zero (R9). -/
def readReg (s : State) (b off : Nat) : Nat :=
  match findReg b off with
  | some (r, is) => r.fields.foldl (fun m fd => m + readField s b off is fd) 0
  | none => 0

/-- A read of a register: its value, and the state after it. -/
def readRegEff (b off : Nat) (s : State) : Nat × State :=
  let s1 := if b = 3 ∧ 0x100 ≤ off ∧ off < 0x500 ∧ off % 64 = 0x20 then phloReadEff ((off - 0x100) / 64) s else s
  match findReg b off with
  | some (r, is) => (readReg s1 b off, clearRc s1 b off is r.fields)
  | none => (0, s1)

/-! ### Writes with an effect of their own -/

/-- A write with no effect but those of the access codes, and CFGERR of the block (R8). -/
def plainWrite (b o v : Nat) (s : State) : State :=
  match writePlain s b o v with
  | (s1, bad) => if bad then cfgErr b s1 else s1

def writeGen (init o v : Nat) (s : State) : State :=
  if o = 0x10 then
    let s1 := plainWrite 0 o v s
    put s1 F.genProfstatPending (bit (rd s1 F.genProfileSel != rd s1 F.genProfstatActive))
  else if o = 0x30 then
    (if v % 4 = 3 then cfgErr 0 s
     else if v % 4 = 1 then quiesceReqEff s
     else if v % 4 = 2 then quiesceResumeEff s
     else s)
  else if o = 0x40 then devresetEff init (v % 2 ^ 16) s
  else plainWrite 0 o v s

/-- CNV_CAPrCTL: STOP, then ARM, then TRIG (log entry 32). -/
def writeCnv (o v : Nat) (s : State) : State :=
  if 0x1000 ≤ o ∧ o < 0x2000 ∧ o % 64 = 0x1C then
    let r := (o - 0x1000) / 64
    let s1 := if v.testBit 2 then capStopEff r s else s
    let s2 := if v.testBit 0 then capArmEff r s1 else s1
    if v.testBit 1 then capTrigEff r s2 else s2
  else plainWrite 4 o v s

/-- The heartbeat timer starts with HBEN, and stops with it (R207). -/
def writeSafe (v : Nat) (s : State) : State :=
  let s1 := plainWrite 5 8 v s
  match rdB s F.drvSafecfgHben, rdB s1 F.drvSafecfgHben with
  | false, true => { s1 with heartbeatAt := some s1.now }
  | true, false => { s1 with heartbeatAt := none }
  | _, _ => s1

def writeDrv (o v : Nat) (s : State) : State :=
  if o = 0 then
    let on := bits v 0 8
    let off := bits v 8 8
    if on &&& off ≠ 0 then cfgErr 5 s
    else
      let s1 := if off = 0 then s else drvOffEff off s
      if on = 0 then s1 else drvOnEff on s1
  else if o = 4 then causeClearEff v s
  else if o = 8 then writeSafe v s
  else if o = 0xC then heartbeatEff s
  else if 0x1400 ≤ o ∧ o < 0x1800 then (if v.testBit 29 then recoverEff ((o - 0x1400) / 4) s else s)
  else plainWrite 5 o v s

/-- A table entry of the epoch in force, or of either during a changeover, is not written (R236, R242). -/
def writeRng (o v : Nat) (s : State) : State :=
  if o = 0 then (if v.testBit 1 then epochStartEff s else s)
  else if 0x1000 ≤ o ∧ (findReg 6 o).isSome then
    (if o / 0x80 % 2 = rd s F.rngEpochCur ∨ rd s F.rngEpochState ≠ 0 then cfgErr 6 s else plainWrite 6 o v s)
  else plainWrite 6 o v s

/-- Lock cells take the master ID of the request (R28, R275, R277). -/
def writeLck (master o v : Nat) (s : State) : State :=
  if o < 0x400 then (if v.testBit 16 then releaseEff master (o / 4) s else acquireEff master (o / 4) s)
  else if o = 0x400 then lockAckEff master (v % 256) s
  else s

def writeSec (init o v : Nat) (s : State) : State :=
  if o = 0x20 then
    let s1 := plainWrite 14 o v s
    if v.testBit 0 then recovEff init (bits v 1 1) s1 else s1
  else if o = 0x30 then
    (if v.testBit 0 then
       let s := if coreInit init then put s F.secCfgctlSlot (bits v 8 2) else s
       (match bits v 4 4 with
        | 1 => cfgSetBootEff init s
        | 2 => cfgSetProfdefEff init s
        | 3 => cfgSetKeyslotEff init (bits v 8 2) s
        | op => cfgBadOpEff init op s)
     else plainWrite 14 o v s)
  else if o = 0x80C then (if v.testBit 0 then hashGoEff init s else s)
  else plainWrite 14 o v s

def writeSup (init o v : Nat) (s : State) : State :=
  if o = 0x10 then supIpiEff init (v % 16) s
  else if 0x100 ≤ o ∧ o < 0x180 ∧ o % 32 = 0 then
    let c := (o - 0x100) / 32
    let s1 := coreRunEff init c (v.testBit 0) (v.testBit 1) s
    if v.testBit 2 then coreResetEff init c s1 else s1
  else plainWrite 15 o v s

/-- DBG_CTL: DISABLE, PROVISION, PROVRESET, then DEVRESET (log entry 32). -/
def writeDbgCtl (v : Nat) (s : State) : State :=
  let s1 := plainWrite 16 0x40 v s
  let s2 := if v.testBit 6 then withRight 5 disableEff s1 else s1
  let s3 := if v.testBit 5 then withRight 5 provisionEff s2 else s2
  let s4 := if v.testBit 4 then withRight 5 provresetEff s3 else s3
  if v.testBit 3 then withRight 4 (commandReset 3) s4 else s4

def writeDbg (o v : Nat) (s : State) : State :=
  if o = 0x30 then (if v.testBit 0 then authGoEff s else s)
  else if o = 0x40 then writeDbgCtl v s
  else if 0x100 ≤ o ∧ o < 0x200 ∧ o % 64 = 0 then
    let c := (o - 0x100) / 64
    let s1 := plainWrite 16 o v s
    let s2 := if v.testBit 0 then coreHaltEff c s1 else s1
    let s3 := if v.testBit 1 then coreResumeEff c s2 else s2
    if v.testBit 2 then coreStepEff c s3 else s3
  else if o = 0x400 then
    forAll ((List.range 16).filter fun c => v.testBit (16 + c)) clResumeEff
      (forAll ((List.range 16).filter fun c => v.testBit c) clHaltEff s)
  else if 0x800 ≤ o ∧ o < 0xC00 ∧ o % 64 = 0 then
    let s1 := plainWrite 16 o v s
    if v.testBit 31 then clFireEff ⟨(o - 0x800) / 64, rd s1 (F.dbgClfirePpe ((o - 0x800) / 64)), .ok, [], .ok, .ok⟩ s1 else s1
  else if 0x1000 ≤ o ∧ o < 0x1C00 then { s with authBuf := mset 0 s.authBuf ((o - 0x1000) / 4) v }
  else plainWrite 16 o v s

/-- An INDEX within its SPACE; a SPACE out of range leaves the one kept (R8, R458). -/
def swIndexOk (s : State) (cl v : Nat) : Bool :=
  let sp := if bits v 29 3 < 4 then bits v 29 3 else rd s (F.clSwaddrSpace cl)
  if sp = 2 then bits v 0 12 < 1024 else if sp = 3 then bits v 0 12 < 256 else true

def writeCl (cl o v : Nat) (s : State) : State :=
  if o = 0x904 then swctlWrite cl v s
  else if (o = 0x900 ∨ (0x940 ≤ o ∧ o < 0x980)) ∧ rdB s (F.clSwctlBusy cl) = true then cfgErr (17 + cl) s
  else if o = 0x900 ∧ swIndexOk s cl v = false then cfgErr (17 + cl) s
  else if o = 0x460 then stallWatch cl (plainWrite (17 + cl) o v s)
  else plainWrite (17 + cl) o v s

/-- COMMIT of a block (R12, R460). -/
def commitBlk (b : Nat) (s : State) : State :=
  if 17 ≤ b ∧ b ≤ 32 then clCommitEff (b - 17) s
  else
    match b with
    | 0 => genCommitEff s
    | 3 => phCommitEff s
    | 4 => cnvCommitEff s
    | 5 => drvCommitEff s
    | 10 => hifCommitEff s
    | 12 => logCommitEff s
    | 13 => spnCommitEff s
    | _ => s

/-- The fault register group: FORCE, POP, and PERSIST, whose bit of the context faults covers every cause (R379, R384). -/
def writeFlt (b o v : Nat) (s : State) : State :=
  if o = 0xF008 then fltforceEff b v s
  else if o = 0xF01C then (if v.testBit 0 then fltpopEff b s else s)
  else if o = 0xF00C then
    let s1 := plainWrite b o v s
    if v.testBit 5 && (b == 4 || (17 ≤ b && b ≤ 32)) then
      { s1 with causePersist := s1.causePersist.filter fun e => e.1 / 128 != b }
    else s1
  else plainWrite b o v s

/-- A write of 32 bits that its block has accepted; `agent` is the agent of the master ID (R28). An offset that is no
multiple of four is no register's (R9). -/
def writeReg (init agent b o v : Nat) (s : State) : State :=
  if o % 4 ≠ 0 then s
  else if 0xF000 ≤ o then writeFlt b o v s
  else if o = 0xF0 ∧ b ≠ 9 then (if v.testBit 0 then commitBlk b s else s)
  else if 17 ≤ b ∧ b ≤ 32 then writeCl (b - 17) o v s
  else
    match b with
    | 0 => writeGen init o v s
    | 1 => if 0x100 ≤ o ∧ o < 0x150 ∧ o % 4 = 0 then depthWriteEff ((o - 0x100) / 4) v s else plainWrite 1 o v s
    | 4 => writeCnv o v s
    | 5 => writeDrv o v s
    | 6 => writeRng o v s
    | 7 => if o = 0 then (if v.testBit 0 then statSnapEff s else s) else plainWrite 7 o v s
    | 8 => if 0x100 ≤ o ∧ o < 0x180 ∧ o % 4 = 0 then ownerWrite ((o - 0x100) / 4) v s else plainWrite 8 o v s
    | 9 => writeLck (init * 256 + agent) o v s
    | 13 =>
      if 0x100 ≤ o ∧ o < 0x180 ∧ o % 32 = 0 then spanEnableEff ((o - 0x100) / 32) (v % 2) s else plainWrite 13 o v s
    | 14 => writeSec init o v s
    | 15 => writeSup init o v s
    | 16 => writeDbg o v s
    | 33 =>
      if o = 4 then repRetireEff init v s
      else if o = 8 then (if v.testBit 0 then retcommitEff init s else s)
      else plainWrite 33 o v s
    | _ => plainWrite b o v s

/-! ### Narrow accesses (R225, R309; log entry 6) -/

/-- The bytes of a data unit at address `d` that lie in the `n` bytes from `r`: their value, and the mask of the bytes not
written. -/
def unitPart (u d r n : Nat) : Nat × Nat :=
  (List.range n).foldl (fun (m : Nat × Nat) i =>
    if d ≤ r + i ∧ r + i < d + 8 ∧ u.testBit (128 + (r + i - d)) = false then
      (m.1 + bits u (8 * (r + i - d)) 8 * 256 ^ i, m.2)
    else (m.1, m.2 + 2 ^ i)) (0, 0)

/-- What the bytes that a write does not enable keep: the fields that hold what was written; no bit of the others is set. -/
def keptBits (s : State) (b off : Nat) : Nat :=
  match findReg b off with
  | some (r, is) => r.fields.foldl (fun m fd =>
      let f := fldAt b off is fd
      match fd.acc with
      | .rw | .rwl => m + rd s f * 2 ^ fd.lo
      | .rwp => m + rdSh s f * 2 ^ fd.lo
      | _ => m) 0
  | none => 0

/-- The 32 bits that a write with disabled bytes carries. -/
def mergeBits (s : State) (b off v dis : Nat) : Nat :=
  if dis = 0 then v else v + (keptBits s b off &&& (2 ^ 32 - 1 - byteMask dis % 2 ^ 32))

/-! ### Host accesses to BAR0, and the register rows (R452, R456, R457) -/

/-- The block of a register has left reset (R418). -/
def blkUp (s : State) (b : Nat) : Bool := s.up (if (17 ≤ b ∧ b ≤ 32) ∨ b = 8 then 5 else 3)

/-- The station and the stop from which an initiator reaches registers. -/
def initStation (init : Nat) : Nat := if init = 0x5D then 0 else if 0x50 ≤ init ∧ init ≤ 0x53 then 24 else if init = 0x5B then 25 else 1

/-- Access of a register whose domain sleeps: it goes as a management request, and waits for the domain (R457). -/
def askReg (init cmd off : Nat) (us : List Nat) (k : Asker) (s : State) : State :=
  let t := (addrStation off).getD (0, 0)
  request (initStation init) t.1 t.2 cmd init off us k s

/-- An initiator that has a register region: no virtual function has (R453). -/
def regInit (init : Nat) : Bool := !(0x11 ≤ init && init < 0x50)

/-- The MSI-X table: the entries of the physical function's vectors (R452). -/
def inMsix (s : State) (off : Nat) : Bool := 0x800000 ≤ off && off < 0x800000 + 16 * (2048 - 63 * rd s F.hifVecsplitVfvec)

/-- The session has the rights for a write of the debug port. -/
def debugOk (s : State) (init off v : Nat) : Bool := init != 0x5D || mayAccess s (some v) off

def regWriteEff (init off val : Nat) (s : State) : State :=
  if !regInit init || 0x1000000 ≤ off then s
  else
    match blkOf off with
    | none => if init = 0x10 ∧ inMsix s off then { s with msixMask := mset 0 s.msixMask (off - 0x800000) val } else s
    | some b =>
      if !blkUp s b then s
      else if !stationRuns s (regStation off) then askReg init 0x41 off [storeUnit val 4 0 8] .nobody s
      else if writeAccepted s init off && debugOk s init off val then
        writeReg init 0 b (off % 0x10000) (val % 2 ^ 32) s
      else s

/-- A read leaves its value to the reader. -/
def regReadEff (init off : Nat) (s : State) : State :=
  if !regInit init || 0x1000000 ≤ off then s
  else
    match blkOf off with
    | none => emitOut (.barData 0 (if init = 0x10 ∧ inMsix s off then mget 0 s.msixMask (off - 0x800000) else 0)) s
    | some b =>
      if !blkUp s b then s
      else if init = 0x5B ∧ (b = 14 ∨ b = 16) then emitOut (.barData 1 0) s
      else if !stationRuns s (regStation off) then askReg init 0x40 off [4] .bar s
      else
        match readRegEff b (off % 0x10000) s with
        | (v, s1) => emitOut (.barData 0 v) s1

/-! ### Requests of the management network (R454 to R457) -/

/-- Registers read in ascending order as one number. -/
def readRegs (off : Nat) : Nat → State → Nat × State
  | 0, s => (0, s)
  | n + 1, s =>
    match (match blkOf off with | some b => readRegEff b (off % 0x10000) s | none => (0, s)) with
    | (v, s1) => match readRegs (off + 4) n s1 with | (w, s2) => (v + w * 2 ^ 32, s2)

/-- Registers written in ascending order with the bytes of a unit at address `d`. -/
def writeRegs (init agent u d off : Nat) : Nat → State → State
  | 0, s => s
  | n + 1, s =>
    let p := unitPart u d off 4
    let s1 := match blkOf off with
      | some b => if p.2 = 15 then s else writeReg init agent b (off % 0x10000) (mergeBits s b (off % 0x10000) p.1 p.2) s
      | none => s
    writeRegs init agent u d (off + 4) n s1

/-- An answer with data, and one without. -/
def mgtData (p : Packet) (v : Nat) (s : State) : State := reply p 0x42 stOK [v] s

def mgtAck (p : Packet) (st : Nat) (s : State) : State := reply p 0x43 st [] s

/-- A management request on scratch: the owner check and the fence, which the debug port passes (R262, R264). -/
def mgtBank (b : Nat) (write : Bool) (p : Packet) (f : State → State) (s : State) : Option State :=
  bankTurn b write p (mgtAck p stREFUSED) f s

/-- The regions of the persistent store window (R455). -/
inductive Region where
  | slot | imageStore | repair | config | journal | signatures | wear
  deriving DecidableEq, Repr

def regionOf (o : Nat) : Region :=
  if o < 0x1000000 then .slot
  else if o < 0x3800000 then .imageStore
  else if o < 0x39F0000 then .repair
  else if o < 0x3A00000 then .config
  else if o < 0x3C00000 then .journal
  else if o < 0x3D00000 then .signatures
  else .wear

/-- A word of the persistent store reads corrected or uncorrectable (R20, R398). -/
def mramErr (src a : Nat) (s : State) : State :=
  fault { FEv.plain 33 src 0 with detail := a, tgt := some ⟨6, 0, (a - 0x200000000) / 8, 0⟩ } s

/-- Bytes read from a memory with its check bits: the value, or UNCORR. -/
def mgtMem (p : Packet) (a n : Nat) (e : Ecc) (corr uncorr : State → State) (s : State) : State :=
  if e = .uncorrectable then mgtAck p stUNCORR (uncorr s)
  else mgtData p (memNat s.mem a n) (if e = .corrected then corr s else s)

def mramRead (p : Packet) (a n : Nat) (e : Ecc) (s : State) : State :=
  let core := 0x50 ≤ p.init && p.init ≤ 0x53
  match regionOf (a - 0x200000000) with
  | .wear => mgtAck p stNOTARGET s
  | .signatures => if core then mgtMem p a n e (mramErr 0 a) (mramErr 1 a) s else mgtAck p stREFUSED s
  | .config =>
    if e = .uncorrectable then mgtAck p stUNCORR (mramErr 1 a s)
    else match s.takeFree with
      | (w, s1) => mgtData p (w.toNat % 2 ^ (8 * n)) (if e = .corrected then mramErr 0 a s1 else s1)
  | _ => mgtMem p a n e (mramErr 0 a) (mramErr 1 a) s

def scrRead (d : Deliver) (p : Packet) (v a da n : Nat) (s : State) : Option State :=
  let k := (da % 8 + n + 7) / 8
  mgtBank (a / 2 ^ 20) false p (fun s =>
    if v = 3 then
      let s := if d.word < 32 * k then checkPres (a + 8 * d.word) d.pres s else s
      mgtData p (bits ((List.range k).foldr (fun i m => presWord s (a + 256 * i) + m * 2 ^ 64) 0) (8 * (da % 8)) (8 * n)) s
    else
      match readWords a d.word k d.mem s with
      | (ws, bad, s1) =>
        if bad then mgtAck p stUNCORR s1
        else mgtData p (bits (ws.foldr (fun w m => w + m * 2 ^ 64) 0) (8 * (da % 8)) (8 * n)) s1) s

/-- The bytes that a REGRD asks for: its unit, or eight (log entry 6). -/
def Packet.asked (p : Packet) : Nat := if p.units.headD 8 = 0 then 8 else min (p.units.headD 8) 8

/-- REGRD at its target. -/
def regrdAt (d : Deliver) (p : Packet) (s : State) : Option State :=
  let a := p.mgtAddr
  let n := p.asked
  if a < 0x1000000 then
    match blkOf a with
    | none => some (mgtData p 0 s)
    | some b =>
      if !blkUp s b then none
      else if p.init = 0x5B ∧ (b = 14 ∨ b = 16) then some (mgtAck p stREFUSED s)
      else
        match readRegs (a / 4 * 4) ((a % 4 + n + 3) / 4) s with
        | (v, s1) => some (mgtData p (bits v (8 * (a % 4)) (8 * n)) s1)
  else if (0x08000000 ≤ a ∧ a < 0x082C0000) ∨ (0x0D000000 ≤ a ∧ a < 0x0D040000) then
    some (mgtMem p a n d.mem (supMemErr 3 a) (supMemErr 4 a) s)
  else if 0x0E000000 ≤ a ∧ a < 0x0E010000 then some (mgtData p (romNat (a - 0x0E000000) n) s)
  else if 0x200000000 ≤ a ∧ a < 0x204000000 then some (mramRead p a n d.mem s)
  else
    match viewOf (a / 8 * 8) with
    | some (v, x) => scrRead d p v x a n s
    | none => some (mgtAck p stNOTARGET s)

/-- The enabled bytes of a unit at an address of memory. -/
def memUnit (u a : Nat) (s : State) : State :=
  let ks := (List.range 8).filter fun k => !u.testBit (128 + k)
  { s with mem := ks.foldl (fun m k => memSet m (a + k) (BitVec.ofNat 8 (bits u (8 * k) 8))) s.mem }

/-- The agent of the master ID that a request carries: the thread of a supervisor core (R28). -/
def Packet.agent (p : Packet) : Nat :=
  match p.asker with
  | .core t _ _ _ _ => t % 2
  | .coreStore t _ => t % 2
  | .coreFrame t _ _ => t % 2
  | _ => 0

/-- Every register that a unit at `a` writes accepts the initiator's write (R456). -/
def regsAccepted (s : State) (init u a : Nat) : Bool :=
  (List.range ((a % 4 + 11) / 4)).all fun i =>
    (unitPart u a (a / 4 * 4 + 4 * i) 4).2 == 15 || writeAccepted s init (a / 4 * 4 + 4 * i)

/-- REGWR at its target; a lost data unit is not written (R226). -/
def regwrAt (d : Deliver) (p : Packet) (s : State) : Option State :=
  let a := p.mgtAddr
  let u := p.units.headD 0
  if a < 0x1000000 then
    match blkOf a with
    | none => some (mgtAck p (if d.data = .uncorrectable then stUNCORR else if writeAccepted s p.init a then stOK else stREFUSED) s)
    | some b =>
      if !blkUp s b then none
      else if d.data = .uncorrectable then some (mgtAck p stUNCORR s)
      else if !regsAccepted s p.init u a then some (mgtAck p stREFUSED s)
      else some (mgtAck p stOK (writeRegs p.init p.agent u a (a / 4 * 4) ((a % 4 + 11) / 4) s))
  else if d.data = .uncorrectable then some (mgtAck p stUNCORR s)
  else if (0x08000000 ≤ a ∧ a < 0x082C0000) ∨ (0x0D000000 ≤ a ∧ a < 0x0D040000) then some (mgtAck p stOK (memUnit u a s))
  else if 0x0E000000 ≤ a ∧ a < 0x0E010000 then some (mgtAck p stREFUSED s)
  else if 0x200000000 ≤ a ∧ a < 0x204000000 then
    match regionOf (a - 0x200000000) with
    | .wear => some (mgtAck p stNOTARGET s)
    | .slot | .imageStore =>
      some (if 0x50 ≤ p.init ∧ p.init ≤ 0x53 then mgtAck p stOK (memUnit u a s) else mgtAck p stREFUSED s)
    | _ => some (mgtAck p stREFUSED s)
  else
    match viewOf (a / 8 * 8) with
    | none => some (mgtAck p stNOTARGET s)
    | some (v, x) =>
      mgtBank (x / 2 ^ 20) true p (fun s =>
        if v = 3 then mgtAck p stREFUSED s
        else
          match writeWords v x d.word ((List.range ((a % 8 + 15) / 8)).map fun i => unitPart u a (a / 8 * 8 + 8 * i) 8) d.mem s with
          | (bad, s1) => mgtAck p (if bad then stUNCORR else stOK) s1) s

def regrdEff (d : Deliver) (s : State) : State := deliverEff d [0x40] (regrdAt d) s

def regwrEff (d : Deliver) (s : State) : State := deliverEff d [0x41] (regwrAt d) s

/-! ### The rows -/

/-- REG_WRITE (R10). -/
def execRegWrite (init off val : Nat) (s : State) : Host.Outcome State Fault Refusal := act 3 s (regWriteEff init off val)

/-- REG_READ_CLEAR (R10). -/
def execRegReadClear (init off : Nat) (s : State) : Host.Outcome State Fault Refusal := act 3 s (regReadEff init off)

/-- REGRD (R224). -/
def execRegrd (d : Deliver) (s : State) : Host.Outcome State Fault Refusal := act 3 s (regrdEff d)

/-- REGWR (R456). -/
def execRegwr (d : Deliver) (s : State) : Host.Outcome State Fault Refusal := act 3 s (regwrEff d)

end Sys2Proof.Machine
end

