-- ==== Sys2Proof/Machine/Dispatch.lean ====
section
/-! DEFINITION. The meaning of every command, one arm each. -/

namespace Sys2Proof.Machine

open Sys2Proof

def exec (i : Instr) (s : State) : Host.Outcome State Fault Refusal :=
  match i with
  | .regWrite init off val => Sys2Proof.Machine.execRegWrite init off val s
  | .phSrcPhloRead n => Sys2Proof.Machine.execPhSrcPhloRead n s
  | .genCommit => Sys2Proof.Machine.execGenCommit s
  | .phCommit => Sys2Proof.Machine.execPhCommit s
  | .cnvCommit => Sys2Proof.Machine.execCnvCommit s
  | .drvCommit => Sys2Proof.Machine.execDrvCommit s
  | .clCommit c => Sys2Proof.Machine.execClCommit c s
  | .hifCommit => Sys2Proof.Machine.execHifCommit s
  | .logCommit => Sys2Proof.Machine.execLogCommit s
  | .spnCommit => Sys2Proof.Machine.execSpnCommit s
  | .quiesceReq => Sys2Proof.Machine.execQuiesceReq s
  | .quiesceDrained => Sys2Proof.Machine.execQuiesceDrained s
  | .quiesceComplete => Sys2Proof.Machine.execQuiesceComplete s
  | .quiesceResume => Sys2Proof.Machine.execQuiesceResume s
  | .tokenRead r => Sys2Proof.Machine.execTokenRead r s
  | .overflowRetry cl x => Sys2Proof.Machine.execOverflowRetry cl x s
  | .outputQueueSend cl x => Sys2Proof.Machine.execOutputQueueSend cl x s
  | .add f => Sys2Proof.Machine.execAdd f s
  | .sub f => Sys2Proof.Machine.execSub f s
  | .mul f => Sys2Proof.Machine.execMul f s
  | .mulhs f => Sys2Proof.Machine.execMulhs f s
  | .mulhu f => Sys2Proof.Machine.execMulhu f s
  | .madd f => Sys2Proof.Machine.execMadd f s
  | .opAnd f => Sys2Proof.Machine.execOpAnd f s
  | .opOr f => Sys2Proof.Machine.execOpOr f s
  | .opXor f => Sys2Proof.Machine.execOpXor f s
  | .opNot f => Sys2Proof.Machine.execOpNot f s
  | .shl f => Sys2Proof.Machine.execShl f s
  | .shr f => Sys2Proof.Machine.execShr f s
  | .sar f => Sys2Proof.Machine.execSar f s
  | .opNeg f => Sys2Proof.Machine.execOpNeg f s
  | .opAbs f => Sys2Proof.Machine.execOpAbs f s
  | .opMin f => Sys2Proof.Machine.execOpMin f s
  | .opMax f => Sys2Proof.Machine.execOpMax f s
  | .minu f => Sys2Proof.Machine.execMinu f s
  | .maxu f => Sys2Proof.Machine.execMaxu f s
  | .clz f => Sys2Proof.Machine.execClz f s
  | .popc f => Sys2Proof.Machine.execPopc f s
  | .fadd f => Sys2Proof.Machine.execFadd f s
  | .fsub f => Sys2Proof.Machine.execFsub f s
  | .fmul f => Sys2Proof.Machine.execFmul f s
  | .fdiv f => Sys2Proof.Machine.execFdiv f s
  | .fsqrt f => Sys2Proof.Machine.execFsqrt f s
  | .fma f => Sys2Proof.Machine.execFma f s
  | .fmin f => Sys2Proof.Machine.execFmin f s
  | .fmax f => Sys2Proof.Machine.execFmax f s
  | .fabs f => Sys2Proof.Machine.execFabs f s
  | .fneg f => Sys2Proof.Machine.execFneg f s
  | .padd f => Sys2Proof.Machine.execPadd f s
  | .psub f => Sys2Proof.Machine.execPsub f s
  | .pmul f => Sys2Proof.Machine.execPmul f s
  | .pfma f => Sys2Proof.Machine.execPfma f s
  | .pdiv f => Sys2Proof.Machine.execPdiv f s
  | .psqrt f => Sys2Proof.Machine.execPsqrt f s
  | .pmin f => Sys2Proof.Machine.execPmin f s
  | .pmax f => Sys2Proof.Machine.execPmax f s
  | .pabs f => Sys2Proof.Machine.execPabs f s
  | .pneg f => Sys2Proof.Machine.execPneg f s
  | .psum f => Sys2Proof.Machine.execPsum f s
  | .pswap f => Sys2Proof.Machine.execPswap f s
  | .cadd f => Sys2Proof.Machine.execCadd f s
  | .csub f => Sys2Proof.Machine.execCsub f s
  | .cmul f => Sys2Proof.Machine.execCmul f s
  | .cmulj f => Sys2Proof.Machine.execCmulj f s
  | .cmac f => Sys2Proof.Machine.execCmac f s
  | .cmacj f => Sys2Proof.Machine.execCmacj f s
  | .cconj f => Sys2Proof.Machine.execCconj f s
  | .cneg f => Sys2Proof.Machine.execCneg f s
  | .cabs2 f => Sys2Proof.Machine.execCabs2 f s
  | .cscale f => Sys2Proof.Machine.execCscale f s
  | .cmpeq f => Sys2Proof.Machine.execCmpeq f s
  | .cmpne f => Sys2Proof.Machine.execCmpne f s
  | .cmplt f => Sys2Proof.Machine.execCmplt f s
  | .cmple f => Sys2Proof.Machine.execCmple f s
  | .cmpltu f => Sys2Proof.Machine.execCmpltu f s
  | .cmpleu f => Sys2Proof.Machine.execCmpleu f s
  | .fcmpeq f => Sys2Proof.Machine.execFcmpeq f s
  | .fcmplt f => Sys2Proof.Machine.execFcmplt f s
  | .fcmple f => Sys2Proof.Machine.execFcmple f s
  | .fcmpun f => Sys2Proof.Machine.execFcmpun f s
  | .phcmplt f => Sys2Proof.Machine.execPhcmplt f s
  | .ident f => Sys2Proof.Machine.execIdent f s
  | .fork f => Sys2Proof.Machine.execFork f s
  | .switch f => Sys2Proof.Machine.execSwitch f s
  | .merge f => Sys2Proof.Machine.execMerge f s
  | .ndmerge f => Sys2Proof.Machine.execNdmerge f s
  | .select f => Sys2Proof.Machine.execSelect f s
  | .sync f => Sys2Proof.Machine.execSync f s
  | .sink f => Sys2Proof.Machine.execSink f s
  | .cvtif f => Sys2Proof.Machine.execCvtif f s
  | .cvtfi f => Sys2Proof.Machine.execCvtfi f s
  | .cvtds f => Sys2Proof.Machine.execCvtds f s
  | .cvtsd f => Sys2Proof.Machine.execCvtsd f s
  | .cvtis f => Sys2Proof.Machine.execCvtis f s
  | .smpf f => Sys2Proof.Machine.execSmpf f s
  | .smpstat f => Sys2Proof.Machine.execSmpstat f s
  | .smpch f => Sys2Proof.Machine.execSmpch f s
  | .smpseq f => Sys2Proof.Machine.execSmpseq f s
  | .pack f => Sys2Proof.Machine.execPack f s
  | .lane1 f => Sys2Proof.Machine.execLane1 f s
  | .retype f => Sys2Proof.Machine.execRetype f s
  | .typeof f => Sys2Proof.Machine.execTypeof f s
  | .iscap f => Sys2Proof.Machine.execIscap f s
  | .mkcont f => Sys2Proof.Machine.execMkcont f s
  | .ctxnew f => Sys2Proof.Machine.execCtxnew f s
  | .gatecall f => Sys2Proof.Machine.execGatecall f s
  | .sendctx f => Sys2Proof.Machine.execSendctx f s
  | .opReturn f => Sys2Proof.Machine.execOpReturn f s
  | .chgpe f => Sys2Proof.Machine.execChgpe f s
  | .senddev f => Sys2Proof.Machine.execSenddev f s
  | .iterenter f => Sys2Proof.Machine.execIterenter f s
  | .iterret f => Sys2Proof.Machine.execIterret f s
  | .sendtag f => Sys2Proof.Machine.execSendtag f s
  | .iterget f => Sys2Proof.Machine.execIterget f s
  | .load f => Sys2Proof.Machine.execLoad f s
  | .store f => Sys2Proof.Machine.execStore f s
  | .bset f => Sys2Proof.Machine.execBset f s
  | .bclr f => Sys2Proof.Machine.execBclr f s
  | .iread f => Sys2Proof.Machine.execIread f s
  | .iwrite f => Sys2Proof.Machine.execIwrite f s
  | .iclear f => Sys2Proof.Machine.execIclear f s
  | .mtake f => Sys2Proof.Machine.execMtake f s
  | .mput f => Sys2Proof.Machine.execMput f s
  | .capnarrow f => Sys2Proof.Machine.execCapnarrow f s
  | .phstamp f => Sys2Proof.Machine.execPhstamp f s
  | .phrel f => Sys2Proof.Machine.execPhrel f s
  | .phadd f => Sys2Proof.Machine.execPhadd f s
  | .phsub f => Sys2Proof.Machine.execPhsub f s
  | .phturns f => Sys2Proof.Machine.execPhturns f s
  | .phfrac f => Sys2Proof.Machine.execPhfrac f s
  | .phtime f => Sys2Proof.Machine.execPhtime f s
  | .drvput f => Sys2Proof.Machine.execDrvput f s
  | .ctxLive ctx => Sys2Proof.Machine.execCtxLive ctx s
  | .slice d => Sys2Proof.Machine.execSlice d s
  | .iterretApply ctx loop => Sys2Proof.Machine.execIterretApply ctx loop s
  | .returnApply ctx => Sys2Proof.Machine.execReturnApply ctx s
  | .notice d => Sys2Proof.Machine.execNotice d s
  | .deltaFlush cl pe ctx => Sys2Proof.Machine.execDeltaFlush cl pe ctx s
  | .ctxQuiesceEffect ctx => Sys2Proof.Machine.execCtxQuiesceEffect ctx s
  | .stallWin1Expire cl => Sys2Proof.Machine.execStallWin1Expire cl s
  | .stallWin2Expire cl => Sys2Proof.Machine.execStallWin2Expire cl s
  | .censusStart ctx cl => Sys2Proof.Machine.execCensusStart ctx cl s
  | .censusScanDone ctx cl pe => Sys2Proof.Machine.execCensusScanDone ctx cl pe s
  | .flush d => Sys2Proof.Machine.execFlush d s
  | .censusSpillDone ctx cl => Sys2Proof.Machine.execCensusSpillDone ctx cl s
  | .censusBankPurge ctx bank => Sys2Proof.Machine.execCensusBankPurge ctx bank s
  | .censusGatePurge ctx cl => Sys2Proof.Machine.execCensusGatePurge ctx cl s
  | .censusEnd ctx => Sys2Proof.Machine.execCensusEnd ctx s
  | .censusto ctx => Sys2Proof.Machine.execCensusto ctx s
  | .spillDrainDone cl win => Sys2Proof.Machine.execSpillDrainDone cl win s
  | .phaseTick bad corr badGate => Sys2Proof.Machine.execPhaseTick bad corr badGate s
  | .countEvent tri a b te => Sys2Proof.Machine.execCountEvent tri a b te s
  | .noonMark tri te => Sys2Proof.Machine.execNoonMark tri te s
  | .mainsEdge tri te => Sys2Proof.Machine.execMainsEdge tri te s
  | .edgeTimeout n => Sys2Proof.Machine.execEdgeTimeout n s
  | .horizonExpire n => Sys2Proof.Machine.execHorizonExpire n s
  | .phaseExport => Sys2Proof.Machine.execPhaseExport s
  | .phframe port f data => Sys2Proof.Machine.execPhframe port f data s
  | .nettime r => Sys2Proof.Machine.execNettime r s
  | .cnvPllLock => Sys2Proof.Machine.execCnvPllLock s
  | .cnvPllunlock => Sys2Proof.Machine.execCnvPllunlock s
  | .cmclkloss => Sys2Proof.Machine.execCmclkloss s
  | .ostb port te => Sys2Proof.Machine.execOstb port te s
  | .inputFrame port lane0 lane1 => Sys2Proof.Machine.execInputFrame port lane0 lane1 s
  | .frameMissing port => Sys2Proof.Machine.execFrameMissing port s
  | .ringrd d => Sys2Proof.Machine.execRingrd d s
  | .capArm ring => Sys2Proof.Machine.execCapArm ring s
  | .capTrig ring => Sys2Proof.Machine.execCapTrig ring s
  | .capStop ring => Sys2Proof.Machine.execCapStop ring s
  | .drvval d => Sys2Proof.Machine.execDrvval d s
  | .outputFrameClose port te => Sys2Proof.Machine.execOutputFrameClose port te s
  | .abortInPin => Sys2Proof.Machine.execAbortInPin s
  | .abortInPinHigh => Sys2Proof.Machine.execAbortInPinHigh s
  | .heartbeatWrite => Sys2Proof.Machine.execHeartbeatWrite s
  | .heartbeatExpire => Sys2Proof.Machine.execHeartbeatExpire s
  | .supplyMarginLost => Sys2Proof.Machine.execSupplyMarginLost s
  | .supplyMarginRestored => Sys2Proof.Machine.execSupplyMarginRestored s
  | .drvOn mask => Sys2Proof.Machine.execDrvOn mask s
  | .drvOff mask => Sys2Proof.Machine.execDrvOff mask s
  | .abortCauseClear val => Sys2Proof.Machine.execAbortCauseClear val s
  | .drvRecover ch => Sys2Proof.Machine.execDrvRecover ch s
  | .token d => Sys2Proof.Machine.execToken d s
  | .reqLoad d => Sys2Proof.Machine.execReqLoad d s
  | .reqStore d => Sys2Proof.Machine.execReqStore d s
  | .reqBset d => Sys2Proof.Machine.execReqBset d s
  | .reqBclr d => Sys2Proof.Machine.execReqBclr d s
  | .reqIread d => Sys2Proof.Machine.execReqIread d s
  | .reqIwrite d => Sys2Proof.Machine.execReqIwrite d s
  | .reqIclear d => Sys2Proof.Machine.execReqIclear d s
  | .reqMtake d => Sys2Proof.Machine.execReqMtake d s
  | .reqMput d => Sys2Proof.Machine.execReqMput d s
  | .reqRead d => Sys2Proof.Machine.execReqRead d s
  | .reqWrite d => Sys2Proof.Machine.execReqWrite d s
  | .rspData d => Sys2Proof.Machine.execRspData d s
  | .rspAck d => Sys2Proof.Machine.execRspAck d s
  | .defdata d => Sys2Proof.Machine.execDefdata d s
  | .rspTimeout q => Sys2Proof.Machine.execRspTimeout q s
  | .spwrite sp => Sys2Proof.Machine.execSpwrite sp s
  | .splookup sp => Sys2Proof.Machine.execSplookup sp s
  | .spfree cl => Sys2Proof.Machine.execSpfree cl s
  | .spread sp => Sys2Proof.Machine.execSpread sp s
  | .spdata cl x => Sys2Proof.Machine.execSpdata cl x s
  | .spack cl pe => Sys2Proof.Machine.execSpack cl pe s
  | .regrd d => Sys2Proof.Machine.execRegrd d s
  | .regwr d => Sys2Proof.Machine.execRegwr d s
  | .regdata d => Sys2Proof.Machine.execRegdata d s
  | .regack d => Sys2Proof.Machine.execRegack d s
  | .epochStart => Sys2Proof.Machine.execEpochStart s
  | .epochDrained => Sys2Proof.Machine.execEpochDrained s
  | .epochto => Sys2Proof.Machine.execEpochto s
  | .domainCloseBegin dom => Sys2Proof.Machine.execDomainCloseBegin dom s
  | .domainReopen dom => Sys2Proof.Machine.execDomainReopen dom s
  | .spanPortEnable port en => Sys2Proof.Machine.execSpanPortEnable port en s
  | .pmdTrained port => Sys2Proof.Machine.execPmdTrained port s
  | .spanAligned port => Sys2Proof.Machine.execSpanAligned port s
  | .codeword port c => Sys2Proof.Machine.execCodeword port c s
  | .linkIdle port => Sys2Proof.Machine.execLinkIdle port s
  | .credit port f => Sys2Proof.Machine.execCredit port f s
  | .probe port f hold => Sys2Proof.Machine.execProbe port f hold s
  | .echo port f => Sys2Proof.Machine.execEcho port f s
  | .spanIdentTimer port => Sys2Proof.Machine.execSpanIdentTimer port s
  | .spanProbeTimer port => Sys2Proof.Machine.execSpanProbeTimer port s
  | .codewordLockLoss port => Sys2Proof.Machine.execCodewordLockLoss port s
  | .spanLos port => Sys2Proof.Machine.execSpanLos port s
  | .spanRetrainTimeout port => Sys2Proof.Machine.execSpanRetrainTimeout port s
  | .ownershipRequest bank owner fence => Sys2Proof.Machine.execOwnershipRequest bank owner fence s
  | .bankFence bank => Sys2Proof.Machine.execBankFence bank s
  | .abortdef bank => Sys2Proof.Machine.execAbortdef bank s
  | .bar4Read addr len ecc => Sys2Proof.Machine.execBar4Read addr len ecc s
  | .bar4Write addr bytes => Sys2Proof.Machine.execBar4Write addr bytes s
  | .sweepRowStart r => Sys2Proof.Machine.execSweepRowStart r s
  | .spareSwitch => Sys2Proof.Machine.execSpareSwitch s
  | .lockAcquire master cell => Sys2Proof.Machine.execLockAcquire master cell s
  | .lockRelease master cell => Sys2Proof.Machine.execLockRelease master cell s
  | .lockAck master cell => Sys2Proof.Machine.execLockAck master cell s
  | .supAlu x op rd ra rb imm => Sys2Proof.Machine.execSupAlu x op rd ra rb imm s
  | .supMul x op rd ra rb => Sys2Proof.Machine.execSupMul x op rd ra rb s
  | .supDiv x op rd ra rb => Sys2Proof.Machine.execSupDiv x op rd ra rb s
  | .supLoad x rd ra off size sx ecc => Sys2Proof.Machine.execSupLoad x rd ra off size sx ecc s
  | .supStore x rs ra off size => Sys2Proof.Machine.execSupStore x rs ra off size s
  | .storeBuserr t addr => Sys2Proof.Machine.execStoreBuserr t addr s
  | .supAtomic x op rd ra rb => Sys2Proof.Machine.execSupAtomic x op rd ra rb s
  | .supPresence x op rd ra rs box => Sys2Proof.Machine.execSupPresence x op rd ra rs box s
  | .supBranch x op ra rb target => Sys2Proof.Machine.execSupBranch x op ra rb target s
  | .supLoop x lend rc => Sys2Proof.Machine.execSupLoop x lend rc s
  | .loopi x lend count => Sys2Proof.Machine.execLoopi x lend count s
  | .crd x rd n => Sys2Proof.Machine.execCrd x rd n s
  | .cwr x n rs => Sys2Proof.Machine.execCwr x n rs s
  | .fence x => Sys2Proof.Machine.execFence x s
  | .wait x => Sys2Proof.Machine.execWait x s
  | .trap x imm => Sys2Proof.Machine.execTrap x imm s
  | .supBreak x => Sys2Proof.Machine.execSupBreak x s
  | .gate x n => Sys2Proof.Machine.execGate x n s
  | .gret x => Sys2Proof.Machine.execGret x s
  | .rete x => Sys2Proof.Machine.execRete x s
  | .irqDeliver src => Sys2Proof.Machine.execIrqDeliver src s
  | .interruptTake t frameBad => Sys2Proof.Machine.execInterruptTake t frameBad s
  | .watchdogExpire t => Sys2Proof.Machine.execWatchdogExpire t s
  | .supIpi init mask => Sys2Proof.Machine.execSupIpi init mask s
  | .coreReset init c => Sys2Proof.Machine.execCoreReset init c s
  | .coreRunWrite init c run thr1 => Sys2Proof.Machine.execCoreRunWrite init c run thr1 s
  | .perstAssert => Sys2Proof.Machine.execPerstAssert s
  | .perstRelease => Sys2Proof.Machine.execPerstRelease s
  | .crsTimeout => Sys2Proof.Machine.execCrsTimeout s
  | .configRequest fn off wr => Sys2Proof.Machine.execConfigRequest fn off wr s
  | .sqtailWrite sess val => Sys2Proof.Machine.execSqtailWrite sess val s
  | .cqheadWrite sess val => Sys2Proof.Machine.execCqheadWrite sess val s
  | .evheadWrite sess val => Sys2Proof.Machine.execEvheadWrite sess val s
  | .sqEntryFetch sess es bad => Sys2Proof.Machine.execSqEntryFetch sess es bad s
  | .coalTimeout sess ev => Sys2Proof.Machine.execCoalTimeout sess ev s
  | .sessCreate r => Sys2Proof.Machine.execSessCreate r s
  | .sessDestroy r => Sys2Proof.Machine.execSessDestroy r s
  | .sessClosed sess => Sys2Proof.Machine.execSessClosed sess s
  | .spillGrant r => Sys2Proof.Machine.execSpillGrant r s
  | .spillRevoke r => Sys2Proof.Machine.execSpillRevoke r s
  | .imgStore r => Sys2Proof.Machine.execImgStore r s
  | .nop r => Sys2Proof.Machine.execNop r s
  | .imgLoad r => Sys2Proof.Machine.execImgLoad r s
  | .imgUnload r => Sys2Proof.Machine.execImgUnload r s
  | .ctxCreate r => Sys2Proof.Machine.execCtxCreate r s
  | .ctxQuiesce r => Sys2Proof.Machine.execCtxQuiesce r s
  | .ctxResume r => Sys2Proof.Machine.execCtxResume r s
  | .ctxKill r => Sys2Proof.Machine.execCtxKill r s
  | .ctxSend r => Sys2Proof.Machine.execCtxSend r s
  | .ctxQuery r => Sys2Proof.Machine.execCtxQuery r s
  | .scrRead r => Sys2Proof.Machine.execScrRead r s
  | .scrWrite r => Sys2Proof.Machine.execScrWrite r s
  | .capRead r => Sys2Proof.Machine.execCapRead r s
  | .obqAttach r => Sys2Proof.Machine.execObqAttach r s
  | .obqDetach r => Sys2Proof.Machine.execObqDetach r s
  | .flr fn => Sys2Proof.Machine.execFlr fn s
  | .linkDownReset => Sys2Proof.Machine.execLinkDownReset s
  | .linkPowerChange st => Sys2Proof.Machine.execLinkPowerChange st s
  | .courierWrite sess mismatch bad => Sys2Proof.Machine.execCourierWrite sess mismatch bad s
  | .logQattach r => Sys2Proof.Machine.execLogQattach r s
  | .logQdetach r => Sys2Proof.Machine.execLogQdetach r s
  | .logCreate r => Sys2Proof.Machine.execLogCreate r s
  | .logResume r => Sys2Proof.Machine.execLogResume r s
  | .logStart r => Sys2Proof.Machine.execLogStart r s
  | .logStop r => Sys2Proof.Machine.execLogStop r s
  | .logStatus r => Sys2Proof.Machine.execLogStatus r s
  | .logAppend r => Sys2Proof.Machine.execLogAppend r s
  | .logReclaim r => Sys2Proof.Machine.execLogReclaim r s
  | .nvmeCompletion n => Sys2Proof.Machine.execNvmeCompletion n s
  | .nvmeTimeout ns cid => Sys2Proof.Machine.execNvmeTimeout ns cid s
  | .mramOpDone ok => Sys2Proof.Machine.execMramOpDone ok s
  | .fltforce b mask => Sys2Proof.Machine.execFltforce b mask s
  | .flthistpop b => Sys2Proof.Machine.execFlthistpop b s
  | .repRetire init val => Sys2Proof.Machine.execRepRetire init val s
  | .retireStart => Sys2Proof.Machine.execRetireStart s
  | .pePipeDrained => Sys2Proof.Machine.execPePipeDrained s
  | .peStateCopied spareBad => Sys2Proof.Machine.execPeStateCopied spareBad s
  | .repRetcommit init => Sys2Proof.Machine.execRepRetcommit init s
  | .retireTimeout => Sys2Proof.Machine.execRetireTimeout s
  | .rowRetireDone => Sys2Proof.Machine.execRowRetireDone s
  | .censusUpdate => Sys2Proof.Machine.execCensusUpdate s
  | .patrolRead p => Sys2Proof.Machine.execPatrolRead p s
  | .wakeRequest dom => Sys2Proof.Machine.execWakeRequest dom s
  | .ledgerAdmit => Sys2Proof.Machine.execLedgerAdmit s
  | .domainWakeDone dom => Sys2Proof.Machine.execDomainWakeDone dom s
  | .filterReloadDone cl => Sys2Proof.Machine.execFilterReloadDone cl s
  | .idleWindow dom => Sys2Proof.Machine.execIdleWindow dom s
  | .pwrDepthWrite init n val => Sys2Proof.Machine.execPwrDepthWrite init n val s
  | .voltageReached cl => Sys2Proof.Machine.execVoltageReached cl s
  | .oppointRelockDone cl => Sys2Proof.Machine.execOppointRelockDone cl s
  | .statSnap => Sys2Proof.Machine.execStatSnap s
  | .snapshotSwap => Sys2Proof.Machine.execSnapshotSwap s
  | .powerOn => Sys2Proof.Machine.execPowerOn s
  | .dawnPllLocked => Sys2Proof.Machine.execDawnPllLocked s
  | .dawnMramReady => Sys2Proof.Machine.execDawnMramReady s
  | .dawnCoreCleared => Sys2Proof.Machine.execDawnCoreCleared s
  | .dawnDomainsRun => Sys2Proof.Machine.execDawnDomainsRun s
  | .firmwareBoot => Sys2Proof.Machine.execFirmwareBoot s
  | .resetNAssert => Sys2Proof.Machine.execResetNAssert s
  | .resetNRelease => Sys2Proof.Machine.execResetNRelease s
  | .genDevreset init key => Sys2Proof.Machine.execGenDevreset init key s
  | .pgoodFall => Sys2Proof.Machine.execPgoodFall s
  | .refLoss => Sys2Proof.Machine.execRefLoss s
  | .clkPllunlock dom => Sys2Proof.Machine.execClkPllunlock dom s
  | .secRecovctlGo init slot => Sys2Proof.Machine.execSecRecovctlGo init slot s
  | .cfgSetBoot init => Sys2Proof.Machine.execCfgSetBoot init s
  | .cfgSetProfdef init => Sys2Proof.Machine.execCfgSetProfdef init s
  | .cfgSetKeyslot init slot => Sys2Proof.Machine.execCfgSetKeyslot init slot s
  | .cfgBadOp init op => Sys2Proof.Machine.execCfgBadOp init op s
  | .cfgReadbackDone ok => Sys2Proof.Machine.execCfgReadbackDone ok s
  | .secQuote r resBad => Sys2Proof.Machine.execSecQuote r resBad s
  | .quoteDone => Sys2Proof.Machine.execQuoteDone s
  | .secMlogread r => Sys2Proof.Machine.execSecMlogread r s
  | .secIdkey r => Sys2Proof.Machine.execSecIdkey r s
  | .secFwwrite r => Sys2Proof.Machine.execSecFwwrite r s
  | .secFwconfirm r => Sys2Proof.Machine.execSecFwconfirm r s
  | .secSvnraise r => Sys2Proof.Machine.execSecSvnraise r s
  | .secSvckey r => Sys2Proof.Machine.execSecSvckey r s
  | .secSvcload r => Sys2Proof.Machine.execSecSvcload r s
  | .secProfdef r ok => Sys2Proof.Machine.execSecProfdef r ok s
  | .secHashctlGo init => Sys2Proof.Machine.execSecHashctlGo init s
  | .hashDone => Sys2Proof.Machine.execHashDone s
  | .sdpIdcode fr => Sys2Proof.Machine.execSdpIdcode fr s
  | .sdpStatus fr => Sys2Proof.Machine.execSdpStatus fr s
  | .sdpRead fr addr => Sys2Proof.Machine.execSdpRead fr addr s
  | .sdpWrite fr addr data => Sys2Proof.Machine.execSdpWrite fr addr data s
  | .sdpRdbuf fr => Sys2Proof.Machine.execSdpRdbuf fr s
  | .sdpAbort fr => Sys2Proof.Machine.execSdpAbort fr s
  | .sessreset fr => Sys2Proof.Machine.execSessreset fr s
  | .sdpLineReset => Sys2Proof.Machine.execSdpLineReset s
  | .dbgAuthgo => Sys2Proof.Machine.execDbgAuthgo s
  | .authVerifyDone => Sys2Proof.Machine.execAuthVerifyDone s
  | .dbgProvision => Sys2Proof.Machine.execDbgProvision s
  | .dbgDisable => Sys2Proof.Machine.execDbgDisable s
  | .dbgProvreset => Sys2Proof.Machine.execDbgProvreset s
  | .dbgDevreset => Sys2Proof.Machine.execDbgDevreset s
  | .dbgCoreHalt c => Sys2Proof.Machine.execDbgCoreHalt c s
  | .dbgCoreStep c => Sys2Proof.Machine.execDbgCoreStep c s
  | .dbgCoreResume c => Sys2Proof.Machine.execDbgCoreResume c s
  | .dbgClHalt cl => Sys2Proof.Machine.execDbgClHalt cl s
  | .dbgClResume cl => Sys2Proof.Machine.execDbgClResume cl s
  | .dbgClFire f => Sys2Proof.Machine.execDbgClFire f s
  | .tapBypass => Sys2Proof.Machine.execTapBypass s
  | .tapIdcode => Sys2Proof.Machine.execTapIdcode s
  | .tapSamplePreload => Sys2Proof.Machine.execTapSamplePreload s
  | .tapExtest => Sys2Proof.Machine.execTapExtest s
  | .tapClamp => Sys2Proof.Machine.execTapClamp s
  | .tapHighz => Sys2Proof.Machine.execTapHighz s
  | .swRead init cl => Sys2Proof.Machine.execSwRead init cl s
  | .swWrite init cl => Sys2Proof.Machine.execSwWrite init cl s
  | .swOpDone cl => Sys2Proof.Machine.execSwOpDone cl s
  | .linkIdent port f => Sys2Proof.Machine.execLinkIdent port f s
  | .regReadClear init off => Sys2Proof.Machine.execRegReadClear init off s
  | .completionTimeout a => Sys2Proof.Machine.execCompletionTimeout a s
  | .domainCloseDone dom => Sys2Proof.Machine.execDomainCloseDone dom s
  | .flrComplete fn => Sys2Proof.Machine.execFlrComplete fn s
  | .vddaoLoss => Sys2Proof.Machine.execVddaoLoss s
  | .cmclkRestored => Sys2Proof.Machine.execCmclkRestored s
  | .clkPllRelock dom => Sys2Proof.Machine.execClkPllRelock dom s
  | .aerUncorrectableError => Sys2Proof.Machine.execAerUncorrectableError s

end Sys2Proof.Machine
end

