-- ==== Sys2Proof/Machine/Pins.lean ====
section
/-! DEFINITION. What the output pins do and which inputs are terminated, as the state of the device gives it: high impedance without
power, in reset and until Dawn has enabled the block that owns them (R15, R421, R468). The pins of the TAP are not shown (log
entry 50). -/

namespace Sys2Proof.Machine

open Sys2Proof

/-- The converter complex runs: its domain is in RUN after Dawn (R405, R421). -/
def cnvRuns (s : State) : Bool := s.up 3 && domState s 20 == 0

/-- An open-drain pin: driven low, or released. -/
def openDrain (low : Bool) : PinState := if low then .low else .highZ

/-- CNVn_OCLK, OSTB, OD0 and OD1 of a port: from the commit that enables it (R212, R421). -/
def cnvOutPins (s : State) (n : Nat) : PinState := if cnvRuns s && portOn s n then .driven else .highZ

/-- DRIVE_EN_N of an enable group (R210). -/
def driveEnPin (s : State) (g : Nat) : PinState := openDrain (cnvRuns s && driveEnLow s g)

/-- ABORT_OUT_N and ALERT_N (R211). -/
def abortOutPin (s : State) : PinState := openDrain (cnvRuns s && abortOutLow s)

def alertPin (s : State) : PinState := openDrain (cnvRuns s && alertLow s)

/-- The PCI Express transmitters: electrical idle from step 4 while PERST_N is high, until the link trains. -/
def pciePins (s : State) : PinState :=
  if s.up 4 && perstHigh s then (if s.linkState = 0 then .idle else .driven) else .highZ

/-- WAKE_N, from step 7. -/
def wakePin (s : State) : PinState := openDrain (wakeLow s)

/-- The transmitters of a span port. -/
def spanPins (s : State) (p : Nat) : PinState := if s.up 3 && rdB s (F.spnPortcfgEn p) then .driven else .highZ

/-- GPIO0 to GPIO15: inputs during Dawn. The manual gives no register that configures them. -/
def gpioPins (s : State) : PinState := if s.up 1 then .input else .highZ

/-- SDP_DIO between the read phases, in which a frame's answer is sent (R439). -/
def sdpDioPin (_s : State) : PinState := .highZ

/-- The input termination of the phase triplets: from the end of step 3 of Dawn (R468). -/
def tripletTerm (s : State) : Bool := s.up 3

/-- The input termination of the converter inputs and CMCLK: while the CNV domain is in RUN (R468). -/
def cnvTerm (s : State) : Bool := cnvRuns s

end Sys2Proof.Machine
end

