-- ==== Sys2Proof/Safety.lean ====
section
/-! DEFINITION. A safe run: a run of the block that neither faults nor is refused. -/

namespace Sys2Proof

open Sys2Proof.Machine

/-- `k` steps from `s` all answer a next state. -/
def Safe : Nat → State → Prop
  | 0, _ => True
  | k + 1, s => ∃ s', step s = .next s' ∧ Safe k s'

end Sys2Proof
end

