-- ==== Sys2Proof/WellFormed.lean ====
section
/-! DEFINITION. Well-formed commands: every operand names an object that the device has, or fits the width of what it is
written to. A command that is not well formed is no command of the table; its meaning is not used. -/

namespace Sys2Proof

/-- A physical PE of a cluster (R114). -/
def Fire.wf (f : Fire) : Bool := f.cl < 16 && f.pe < 17

def ReadOp.wf (r : ReadOp) : Bool := r.cl < 16 && r.pe < 17

/-- A logical PE of a cluster, a chain, and the status of an answer: OK, UNCORR or LOST (R134, R225). -/
def SpillOp.wf (x : SpillOp) : Bool := x.cl < 16 && x.lpe < 16 && x.which < 3 && [0, 2, 5].contains x.status

/-- A requester: a physical PE, or a station. -/
def ReqName.wf (q : ReqName) : Bool :=
  q.station < 26 && match q.pe with | some k => k < 272 | none => true

/-- The columns of a row test lie in the row (R271). -/
def SweepRow.wf (r : SweepRow) : Bool := match r.badUnit with | some u => u < 32 | none => true

/-- The message of a codeword (R244). -/
def Codeword.wf (c : Codeword) : Bool := c.msg < 2 ^ 5140

/-- A thread: core × 2 + thread (R283). -/
def Sup.wf (x : Sup) : Bool := x.t < 8

/-- A bit field of a register of 64 bits (R309). -/
def AluOp.wf (op : AluOp) : Bool :=
  match op with
  | .extract lo w | .extractS lo w | .insert lo w => 1 ≤ w && lo + w ≤ 64
  | _ => true

/-- The widths of a submission entry's fields (R326). -/
def SqEntry.wf (e : SqEntry) : Bool :=
  e.opc < 256 && e.flags < 256 && e.cid < 65536 && e.rsvd < 2 ^ 64 && e.dptr < 2 ^ 64 && e.dlen < 2 ^ 32
    && e.p.length == 5 && e.p.all (· < 2 ^ 64)

/-- A session (R316), and bytes. -/
def Run.wf (r : Run) : Bool := r.sess < 4096 && r.data.all (· < 256)

def NvDone.wf (n : NvDone) : Bool := n.ns < 8 && n.cid < 65536 && n.data.all (· < 256)

def Patrol.wf (p : Patrol) : Bool := p.cl < 16 && p.pe < 17 && p.ia < 4096 && p.entry < 4096

def HostAcc.wf (a : HostAcc) : Bool :=
  match a with
  | .ring n | .buffer n => n < 4096
  | .spill cl lpe => cl < 16 && lpe < 16
  | .nvme i => i < 8

/-- A command is well formed: its operands are in range. A command without a check is well formed whatever it carries. -/
def Instr.wf (i : Instr) : Bool :=
  match i with
  | .tokenRead r | .nettime r | .sweepRowStart r | .sessCreate r | .sessDestroy r | .spillGrant r | .spillRevoke r
  | .imgStore r | .nop r | .imgLoad r | .imgUnload r | .ctxCreate r | .ctxQuiesce r | .ctxResume r | .ctxKill r
  | .ctxSend r | .ctxQuery r | .scrRead r | .scrWrite r | .capRead r | .obqAttach r | .obqDetach r | .logQattach r
  | .logQdetach r | .logCreate r | .logResume r | .logStart r | .logStop r | .logStatus r | .logAppend r
  | .logReclaim r | .secMlogread r | .secIdkey r | .secFwwrite r | .secFwconfirm r | .secSvnraise r | .secSvckey r
  | .secSvcload r => r.wf
  | .add f | .sub f | .mul f | .mulhs f | .mulhu f | .madd f | .opAnd f | .opOr f | .opXor f | .opNot f | .shl f
  | .shr f | .sar f | .opNeg f | .opAbs f | .opMin f | .opMax f | .minu f | .maxu f | .clz f | .popc f | .fadd f
  | .fsub f | .fmul f | .fdiv f | .fsqrt f | .fma f | .fmin f | .fmax f | .fabs f | .fneg f | .padd f | .psub f
  | .pmul f | .pfma f | .pdiv f | .psqrt f | .pmin f | .pmax f | .pabs f | .pneg f | .psum f | .pswap f | .cadd f
  | .csub f | .cmul f | .cmulj f | .cmac f | .cmacj f | .cconj f | .cneg f | .cabs2 f | .cscale f | .cmpeq f
  | .cmpne f | .cmplt f | .cmple f | .cmpltu f | .cmpleu f | .fcmpeq f | .fcmplt f | .fcmple f | .fcmpun f
  | .phcmplt f | .ident f | .fork f | .switch f | .merge f | .ndmerge f | .select f | .sync f | .sink f | .cvtif f
  | .cvtfi f | .cvtds f | .cvtsd f | .cvtis f | .smpf f | .smpstat f | .smpch f | .smpseq f | .pack f | .lane1 f
  | .retype f | .typeof f | .iscap f | .mkcont f | .ctxnew f | .gatecall f | .sendctx f | .opReturn f | .chgpe f
  | .senddev f | .iterenter f | .iterret f | .sendtag f | .iterget f | .load f | .store f | .bset f | .bclr f
  | .iread f | .iwrite f | .iclear f | .mtake f | .mput f | .capnarrow f | .phstamp f | .phrel f | .phadd f | .phsub f
  | .phturns f | .phfrac f | .phtime f | .drvput f | .dbgClFire f => f.wf
  | .rspTimeout q => q.wf
  | .spwrite sp | .splookup sp | .spread sp => sp.wf
  | .fence x | .wait x | .supBreak x | .gret x | .rete x => x.wf
  | .nvmeCompletion n => n.wf
  | .patrolRead p => p.wf
  | .completionTimeout a => a.wf
  | .regWrite init off val => init < 256 && off < 2 ^ 24 && val < 2 ^ 32
  | .phSrcPhloRead n => n < 16
  | .clCommit c => c < 16
  | .overflowRetry cl x => cl < 16 && x.pe < 17
  | .outputQueueSend cl x => cl < 16 && x.pe < 17 && x.flip < 128
  | .ctxLive ctx => ctx < 16384
  | .iterretApply ctx loop => ctx < 16384 && loop < 8
  | .returnApply ctx => ctx < 16384
  | .deltaFlush cl pe ctx => cl < 16 && pe < 17 && ctx < 16384
  | .ctxQuiesceEffect ctx => ctx < 16384
  | .stallWin1Expire cl => cl < 16
  | .stallWin2Expire cl => cl < 16
  | .censusStart ctx cl => ctx < 16384 && cl < 16
  | .censusScanDone ctx cl pe => ctx < 16384 && cl < 16 && pe < 16
  | .censusSpillDone ctx cl => ctx < 16384 && cl < 16
  | .censusBankPurge ctx bank => ctx < 16384 && bank < 32
  | .censusGatePurge ctx cl => ctx < 16384 && cl < 16
  | .censusEnd ctx => ctx < 16384
  | .censusto ctx => ctx < 16384
  | .spillDrainDone cl win => cl < 16 && win < 8
  | .phaseTick bad corr badGate => bad.all (· < 21) && corr.all (· < 21) && badGate.all (fun e => e.1 < 16)
  | .countEvent tri _ _ _ => tri < 16
  | .noonMark tri _ => tri < 16
  | .mainsEdge tri _ => tri < 16
  | .edgeTimeout n => n < 16
  | .horizonExpire n => n < 16
  | .phframe port f data => port < 4 && f < 2 ^ 80 && data < 2 ^ 128
  | .ostb port _ => port < 32
  | .inputFrame port l0 l1 => port < 32 && l0.all (· < 2 ^ 32) && l1.all (· < 2 ^ 32)
  | .frameMissing port => port < 32
  | .capArm ring => ring < 64
  | .capTrig ring => ring < 64
  | .capStop ring => ring < 64
  | .outputFrameClose port _ => port < 32
  | .drvOn mask => mask < 256
  | .drvOff mask => mask < 256
  | .abortCauseClear val => val < 2 ^ 32
  | .drvRecover ch => ch < 256
  | .spfree cl => cl < 16
  | .spdata cl x => cl < 16 && x.pe < 17
  | .spack cl pe => cl < 16 && pe < 17
  | .domainCloseBegin dom => dom < 24
  | .domainReopen dom => dom < 24
  | .spanPortEnable port en => port < 4 && en < 2
  | .pmdTrained port => port < 4
  | .spanAligned port => port < 4
  | .codeword port c => port < 4 && c.wf
  | .linkIdle port => port < 4
  | .credit port f => port < 4 && f < 2 ^ 80
  | .probe port f hold => port < 4 && f < 2 ^ 80 && hold < 65536
  | .echo port f => port < 4 && f < 2 ^ 80
  | .spanIdentTimer port => port < 4
  | .spanProbeTimer port => port < 4
  | .codewordLockLoss port => port < 4
  | .spanLos port => port < 4
  | .spanRetrainTimeout port => port < 4
  | .ownershipRequest bank owner _ => bank < 32 && owner < 256
  | .bankFence bank => bank < 32
  | .abortdef bank => bank < 32
  | .bar4Read addr len _ => addr < 2 ^ 27 && 1 ≤ len
  | .bar4Write addr bytes => addr < 2 ^ 27 && bytes.all (· < 256) && bytes != []
  | .lockAcquire master cell => master < 65536 && cell < 256
  | .lockRelease master cell => master < 65536 && cell < 256
  | .lockAck master cell => master < 65536 && cell < 256
  | .supAlu x op rd ra rb imm =>
    x.wf && op.wf && rd < 32 && ra < 32 && rb < 32 && (match imm with | some v => v < 2 ^ 64 | none => true)
  | .supMul x _ rd ra rb => x.wf && rd < 32 && ra < 32 && rb < 32
  | .supDiv x _ rd ra rb => x.wf && rd < 32 && ra < 32 && rb < 32
  | .supLoad x rd ra _ size _ _ => x.wf && rd < 32 && ra < 32 && [1, 2, 4, 8].contains size
  | .supStore x rs ra _ size => x.wf && rs < 32 && ra < 32 && [1, 2, 4, 8].contains size
  | .storeBuserr t addr => t < 8 && addr < 2 ^ 64
  | .supAtomic x _ rd ra rb => x.wf && rd < 32 && ra < 32 && rb < 32
  | .supPresence x _ rd ra rs box => x.wf && rd < 32 && ra < 32 && rs < 32 && box < 2 ^ 64
  | .supBranch x _ ra rb target => x.wf && ra < 32 && rb < 32 && target < 2 ^ 64
  | .supLoop x lend rc => x.wf && lend < 2 ^ 64 && rc < 32
  | .loopi x lend count => x.wf && lend < 2 ^ 64 && count < 2 ^ 64
  | .crd x rd _ => x.wf && rd < 32
  | .cwr x _ rs => x.wf && rs < 32
  | .trap x imm => x.wf && imm < 65536
  | .gate x n => x.wf && n < 4096
  | .irqDeliver src => src < 64
  | .interruptTake t _ => t < 8
  | .watchdogExpire t => t < 8
  | .supIpi init mask => init < 256 && mask < 16
  | .coreReset init c => init < 256 && c < 4
  | .coreRunWrite init c _ _ => init < 256 && c < 4
  | .configRequest fn off wr => fn < 64 && off < 4096 && (match wr with | some v => v < 2 ^ 32 | none => true)
  | .sqtailWrite sess val => sess < 4096 && val < 2 ^ 32
  | .cqheadWrite sess val => sess < 4096 && val < 2 ^ 32
  | .evheadWrite sess val => sess < 4096 && val < 2 ^ 32
  | .sqEntryFetch sess es _ => sess < 4096 && es.all SqEntry.wf
  | .coalTimeout sess _ => sess < 4096
  | .sessClosed sess => sess < 4096
  | .flr fn => fn < 64
  | .linkPowerChange st => st < 5
  | .courierWrite sess _ _ => sess < 4096
  | .nvmeTimeout ns cid => ns < 8 && cid < 65536
  | .fltforce b mask => b < 34 && mask < 2 ^ 32
  | .flthistpop b => b < 34
  | .repRetire init val => init < 256 && val < 2 ^ 32
  | .repRetcommit init => init < 256
  | .wakeRequest dom => dom < 24
  | .domainWakeDone dom => dom < 24
  | .filterReloadDone cl => cl < 16
  | .idleWindow dom => dom < 24
  | .pwrDepthWrite init n val => init < 256 && n < 20 && val < 2 ^ 32
  | .voltageReached cl => cl < 16
  | .oppointRelockDone cl => cl < 16
  | .genDevreset init key => init < 256 && key < 65536
  | .clkPllunlock dom => dom < 25
  | .secRecovctlGo init slot => init < 256 && slot < 2
  | .cfgSetBoot init => init < 256
  | .cfgSetProfdef init => init < 256
  | .cfgSetKeyslot init slot => init < 256 && slot < 4
  | .cfgBadOp init op => init < 256 && op < 16
  | .secQuote r _ => r.wf
  | .secProfdef r _ => r.wf
  | .secHashctlGo init => init < 256
  | .sdpRead _ addr => addr < 2 ^ 64
  | .sdpWrite _ addr data => addr < 2 ^ 64 && data < 2 ^ 64
  | .dbgCoreHalt c => c < 4
  | .dbgCoreStep c => c < 4
  | .dbgCoreResume c => c < 4
  | .dbgClHalt cl => cl < 16
  | .dbgClResume cl => cl < 16
  | .swRead init cl => init < 256 && cl < 16
  | .swWrite init cl => init < 256 && cl < 16
  | .swOpDone cl => cl < 16
  | .linkIdent port f => port < 4 && f < 2 ^ 80
  | .regReadClear init off => init < 256 && off < 2 ^ 24
  | .domainCloseDone dom => dom < 24
  | .flrComplete fn => fn < 64
  | .clkPllRelock dom => dom < 25
  | _ => true

end Sys2Proof
end

