-- ==== Sys2Proof/Certificates/Slice0/Obligations.lean ====
section
/-! DEFINITION. The statements about the device: what each command does, what each leaves alone, and what no step changes. -/

namespace Sys2Proof.Claims

open Sys2Proof Sys2Proof.Machine

/-! ### Firings of PE instructions -/

/-- The state from which a firing sends its results: its operand set has issued. -/
def afterIssue (s : State) (f : Fire) (g : Firing) (st : Option Nat) : State := issued f.cl f.pe g st s

/-- What a firing works with: its word, the descriptor of its context and its operands by position (R84, R87). -/
def firingOf (s : State) (f : Fire) (g : Firing) (st : Option Nat) : Fc :=
  let w := Insn.decode (word s (f.cl * 17 + f.pe) g.ia)
  let vs : List Val := match opInfo w.opcode with | some o => (operands w o g).map (fun o => o.getD Val.zero) | none => []
  ⟨f.cl * 17 + f.pe, g, w, ((afterIssue s f g st).ctx g.ctx).d, vs.getD 0 .zero, vs.getD 1 .zero, vs.getD 2 .zero⟩

/-- The operand set `g` is the next to issue at the PE, whose word for it has the opcode; the cluster runs, the PE is not being
drained, and the output side has room, and a set that is read from the matching store reads without an error (R115, R118, R119, R124). -/
def atIssue (s : State) (f : Fire) (op : Nat) (g : Firing) (st : Option Nat) : Bool :=
  let k := f.cl * 17 + f.pe
  let w := Insn.decode (word s k g.ia)
  s.up 5 && decide (f.pe < 17) && mayFire s false f.cl && (!(s.pe k).stopped || (s.pe k).pipe.isSome)
    && decide (nextSet s k = some (g, st)) && w.opcode == op && canIssue (s.pe k) w
    && decide (readSet k g st f.half0 f.half1 s = (some g, s)) && decide (word (afterIssue s f g st) k g.ia = word s k g.ia)

/-- It issues, and the word and the extension words of a FORK, read without an error, keep the rules of R88. -/
def issues (s : State) (f : Fire) (op : Nat) (g : Firing) (st : Option Nat) : Bool :=
  let k := f.cl * 17 + f.pe
  let w := Insn.decode (word s k g.ia)
  atIssue s f op g st && decide (f.word = .ok) && w.ok && (extWords g w f.ext).all (·.2 == .ok)
    && (badExt (afterIssue s f g st) k g w f.ext).isNone

/-- It issues, and the checks of R91 find nothing. -/
def fires (s : State) (f : Fire) (op : Nat) (g : Firing) (st : Option Nat) : Bool :=
  let c := firingOf s f g st
  issues s f op g st &&
    (match opInfo op with | some o => (checks c.d c.w o g).isNone | none => false)

/-- A row of the PE whose firing sends the results `es` to the output side after the further effect `also`, on operands that
meet `pre`. -/
def Row (row : Fire → Instr) (op : Nat) (pre : State → Fc → Bool) (es : State → Fc → List Emit) (also : Fc → State → State) :
    Prop :=
  ∀ s f g st, fires s f op g st = true → pre (afterIssue s f g st) (firingOf s f g st) = true →
    exec (row f) s = .next (forAll (es (afterIssue s f g st) (firingOf s f g st)) (emit (f.cl * 17 + f.pe) g)
      (also (firingOf s f g st) (afterIssue s f g st)))

/-- A row that sends one value, computed from the operands alone, to every present destination (R80, R92). -/
def Result (row : Fire → Instr) (op : Nat) (v : Fc → Val) : Prop :=
  Row row op (fun _ _ => true) (fun _ c => c.w.dests.map (toDst · (v c))) (fun _ s => s)

/-- A row that sends nothing at once and has a further effect, on operands that meet `pre`. -/
def Request (row : Fire → Instr) (op : Nat) (pre : State → Fc → Bool) (also : Fc → State → State) : Prop :=
  Row row op pre (fun _ _ => []) also

/-- A request of a firing to a scratch bank (R108): remembered as outstanding, and sent. -/
def bankReq (c : Fc) (cmd a : Nat) (unit : List Nat) (s : State) : State :=
  let q := outReq s c cmd a (bgStation (a / 2 ^ 20))
  peSend c.k { src := clStation c.cl, dstn := bgStation (a / 2 ^ 20), dstp := a / 2 ^ 20 % 8, ring := 0, cmd := cmd, vn := vnReq,
               epoch := 0, init := c.cl, f := reqF a q.txn (c.k % 17), body := .units unit,
               who := some (c.f.ctx, c.f.iter, c.cl * 16 + (logPe s c.cl (c.k % 17)).getD 0, c.f.ia), asker := .pe c.k }
    (addReq c.k q s)

/-- The address of a scratch operation; 0 where the check refuses it. -/
def okAddr (d : Desc) (op : Nat) (b off : Val) : Nat := match scratchAddr d op b off with | .ok a => a | .error _ => 0

/-- A read-like scratch operation (base in L, offset in R) and a write-like one (value in L, base in R, offset in T), whose
address passes the window or capability check (R69, R72, R107). -/
def ReadRow (row : Fire → Instr) (op cmd : Nat) : Prop :=
  Request row op (fun _ c => (scratchAddr c.d op c.l c.r).isOk)
    (fun c => bankReq c cmd (okAddr c.d op c.l c.r) [])

def WriteRow (row : Fire → Instr) (op cmd : Nat) : Prop :=
  Request row op (fun _ c => (scratchAddr c.d op c.r c.t).isOk)
    (fun c => bankReq c cmd (okAddr c.d op c.r c.t) [c.l.n])

/-- Two binary32 lanes as an F32X2 value, lane 0 in bits 31:0 (R42). -/
def vC2 (lo hi : Nat) : Val := .of tyF32X2 (lo % 2 ^ 32 + hi % 2 ^ 32 * 2 ^ 32)

/-! ### Packets that arrive -/

/-- The packet at the index has left its buffer. -/
def taken (s : State) (d : Deliver) : State := { s with net := s.net.eraseIdx d.idx }

/-- With the rings at rest the packet `p` with command `cmd` has reached its destination, at the index, as the head of its buffer and
the next of its flow; its header is good wherever it is read, and its station is open and runs (R224, R226, R228, R230, R237,
R239). -/
def arrives (s : State) (d : Deliver) (p : Packet) (cmd : Nat) : Bool :=
  decide (s.net[d.idx]? = some p) && arrived s d.idx p && decide (d.hdr ≠ .uncorrectable) && p.cmd == cmd
    && decide (cmdVn cmd = some p.vn) && !rdB s (F.rngParkClosed p.dstn) && stationRuns s p.dstn

/-- The request `p`, taken from its buffer, is the next of the requests of bank `b`, which it passes: it was accepted before the
fence was raised, or the owner check and the fence let it pass now; the debug port passes both (R262, R264, R267). -/
def serves (s : State) (b : Nat) (write : Bool) (p : Packet) : Bool :=
  (p.acc || p.init == 0x5D || (ownerAccepts (rd s (F.sbOwnerOwner b)) p.init write && !rdB s (F.sbOwnerFence b)))
    && !bankBehind s b p

/-- The read stage of a PE of a running cluster may take a token (R117, R394, R405). -/
def readReady (s : State) (r : ReadOp) : Bool :=
  let p := s.pe (r.cl * 17 + r.pe)
  clRuns s r.cl && decide (r.pe < 17) && !p.stopped && decide (p.refill.length < 16) && decide (p.evict.length < 8)
    && p.hold.isNone && p.holdTok.isNone && mget .steady s.doms r.cl != .refilling

/-! ### Commands of sessions -/

/-- The command with the row's opcode is the next of its ACTIVE session to start (R316, R320); `c` is it, started. -/
def turn (s : State) (r : Run) (opc : Nat) (c : Cmd) : Bool :=
  s.up 6 && (s.sess r.sess).st == .active
    && decide ((nextCmd (s.sess r.sess)).map (fun x => { x with started := true }) = some c) && c.e.opc == opc

/-- The session lies outside the command's column: `cls` 1 is session 0 only, 2 the sessions of the PF (R329). -/
def outside (s : State) (r : Run) (cls : Nat) : Bool :=
  (cls == 1 && r.sess != 0) || (cls == 2 && (s.sess r.sess).fn != 0)

/-- The command starts, its session may issue it, and it holds no nonzero bit where zero is required (R326, R329). -/
def starts (s : State) (r : Run) (opc cls : Nat) (buf : Bool) (m : List Nat) (c : Cmd) : Bool :=
  turn s r opc c && !outside s r cls && (badField c.e buf m).isNone

/-- The state in which the command `c` has started. -/
def begun (c : Cmd) (s : State) : State := updCmd c (fun _ => c) s

/-- A context command whose reference passes R49 and whose session may act on the context (R329). -/
def ctxOpen (s : State) (c : Cmd) : Bool :=
  !stale s (c.par 0) && (c.sess == 0 || (s.ctx (bits (c.par 0) 0 14)).d.session == c.sess)

/-- The rows of the session commands, with the opcode, the column, whether they use a buffer, and the bits of P0 to P4 that
they use (R326, R329, R371, R436): `P` holds of each. -/
def EachSessionRow (P : (Run → Instr) → Nat → Nat → Bool → List Nat → Prop) : Prop :=
  ∀ x ∈ ([(.sessCreate, 0x01, 1, false, [full64, full64, full64, full64, 0x7FF]), (.sessDestroy, 0x02, 1, false, [0x10FFF]),
   (.spillGrant, 0x03, 1, false, [full64, full64, 0xF]), (.spillRevoke, 0x04, 1, false, [0, 0, 0xF]),
   (.imgStore, 0x05, 1, false, [0xFFFF, 0xFF]), (.nettime, 0x06, 2, false, [0xF, full64, full64]), (.nop, 0x10, 0, false, []),
   (.imgLoad, 0x11, 0, true, [0, 0x1FF]), (.imgUnload, 0x12, 0, false, [0xFFFF]), (.ctxCreate, 0x14, 0, true, []),
   (.ctxQuiesce, 0x15, 0, false, [full64]), (.ctxResume, 0x16, 0, false, [full64]), (.ctxKill, 0x17, 0, false, [full64]),
   (.ctxSend, 0x18, 0, false, [full64, full64, 0x7F0F]), (.ctxQuery, 0x19, 0, false, [full64]),
   (.scrRead, 0x1A, 0, true, [0x1FFFFFF, 3]), (.scrWrite, 0x1B, 0, true, [0x1FFFFFF, 3]),
   (.capRead, 0x1C, 0, true, [0x3F, 0xFFFFFFFF, 0xFFFFFFFF]), (.obqAttach, 0x1D, 0, false, [0xF]),
   (.obqDetach, 0x1E, 0, false, [0xF]), (.logQattach, 0x40, 2, true, [7]), (.logQdetach, 0x41, 2, false, [7]),
   (.logCreate, 0x42, 2, false, [full64]), (.logResume, 0x43, 2, false, []), (.logStart, 0x44, 2, false, []),
   (.logStop, 0x45, 2, false, []), (.logStatus, 0x46, 2, true, []), (.logAppend, 0x47, 2, true, []),
   (.logReclaim, 0x48, 2, false, [full64]), (.secMlogread, 0x51, 0, true, [0xFFF, 0x1FFF]), (.secIdkey, 0x52, 0, true, []),
   (.secFwwrite, 0x53, 1, true, [1]), (.secFwconfirm, 0x54, 1, false, []), (.secSvnraise, 0x55, 1, false, [0xFFFFFFFF]),
   (.secSvckey, 0x56, 1, true, [3]), (.secSvcload, 0x57, 1, false, [1, 0x7FFFFF])] :
    List ((Run → Instr) × Nat × Nat × Bool × List Nat)), P x.1 x.2.1 x.2.2.1 x.2.2.2.1 x.2.2.2.2

/-! ### Supervisor instructions -/

/-- The thread is at an instruction that it may execute: it runs and waits for nothing, no breakpoint stops it, its word can be
read, may be executed and is no reserved encoding, and neither LEND nor a delay slot forbids it (R284, R289, R291, R301, R302, R445, R446). -/
def supReady (s : State) (x : Sup) (br ser : Bool) : Bool :=
  let th := s.thr x.t
  s.up 6 && threadRuns s x.t && !th.waiting && !th.loading
    && !(th.slot.isNone && !th.skipBreak && (breakAt s x.t th.pc || (br && breakAt s x.t (th.pc + 4))))
    && th.pc % 4 == 0 && (insnWord s x.t).isSome && allowed s x.t .fetch th.pc && decide (x.fetch = .ok) && !x.reserved
    && !(th.lcount != 0 && th.pc == th.lend && (br || th.slot.isSome)) && !(th.slot.isSome && (br || ser))

/-- The instruction completes with nothing but `v` in register `rd` (R286), the pc and the loop as R301 and R302 say. -/
def wrote (s : State) (t rd : Nat) (v : Word) : State := retire t nextPc (s.updThr t fun th => gWrite th rd v)

/-- The value of an integer instruction on the numbers of its operands, as a number of 64 bits: `d` is what the destination holds,
`k` the low six bits of the second operand. -/
def aluValue (op : AluOp) (d a b : Word) : Nat :=
  let k := b.toNat % 64
  let flag (p : Bool) : Nat := if p then 1 else 0
  match op with
  | .add => (a.toNat + b.toNat) % 2 ^ 64
  | .sub => (a.toNat + (2 ^ 64 - b.toNat)) % 2 ^ 64
  | .opAnd => a.toNat &&& b.toNat
  | .opOr => a.toNat ||| b.toNat
  | .opXor => a.toNat ^^^ b.toNat
  | .shl => a.toNat * 2 ^ k % 2 ^ 64
  | .shr => a.toNat / 2 ^ k
  | .sar => ((a.toInt / 2 ^ k) % 2 ^ 64).toNat
  | .cmpEq => flag (a.toNat = b.toNat)
  | .cmpNe => flag (a.toNat ≠ b.toNat)
  | .cmpLt => flag (a.toInt < b.toInt)
  | .cmpLtu => flag (a.toNat < b.toNat)
  | .cmpLe => flag (a.toInt ≤ b.toInt)
  | .cmpLeu => flag (a.toNat ≤ b.toNat)
  | .opMin => (min a.toInt b.toInt % 2 ^ 64).toNat
  | .opMax => (max a.toInt b.toInt % 2 ^ 64).toNat
  | .minu => min a.toNat b.toNat
  | .maxu => max a.toNat b.toNat
  | .clz => 64 - (if a.toNat = 0 then 0 else Nat.log2 a.toNat + 1)
  | .popc => ((List.range 64).map fun i => a.toNat / 2 ^ i % 2).sum
  | .extract lo w => a.toNat / 2 ^ lo % 2 ^ w % 2 ^ 64
  | .extractS lo w => (signed w (a.toNat / 2 ^ lo % 2 ^ w) % 2 ^ 64).toNat
  | .insert lo w => setBits d.toNat lo w a.toNat % 2 ^ 64

/-- The rows of the PE instructions with their opcodes (R93 to R106): `P` holds of each. -/
def EachPeRow (P : (Fire → Instr) → Nat → Prop) : Prop :=
  ∀ x ∈ ([(.add, 0x000), (.sub, 0x001), (.mul, 0x002), (.mulhs, 0x003), (.mulhu, 0x004), (.madd, 0x005), (.opAnd, 0x006),
   (.opOr, 0x007), (.opXor, 0x008), (.opNot, 0x009), (.shl, 0x00a), (.shr, 0x00b), (.sar, 0x00c), (.opNeg, 0x00d),
   (.opAbs, 0x00e), (.opMin, 0x00f), (.opMax, 0x010), (.minu, 0x011), (.maxu, 0x012), (.clz, 0x013), (.popc, 0x014),
   (.fadd, 0x040), (.fsub, 0x041), (.fmul, 0x042), (.fdiv, 0x043), (.fsqrt, 0x044), (.fma, 0x045), (.fmin, 0x046),
   (.fmax, 0x047), (.fabs, 0x048), (.fneg, 0x049), (.padd, 0x080), (.psub, 0x081), (.pmul, 0x082), (.pfma, 0x083),
   (.pdiv, 0x084), (.psqrt, 0x085), (.pmin, 0x086), (.pmax, 0x087), (.pabs, 0x088), (.pneg, 0x089), (.psum, 0x08a),
   (.pswap, 0x08b), (.cadd, 0x0c0), (.csub, 0x0c1), (.cmul, 0x0c2), (.cmulj, 0x0c3), (.cmac, 0x0c4), (.cmacj, 0x0c5),
   (.cconj, 0x0c6), (.cneg, 0x0c7), (.cabs2, 0x0c8), (.cscale, 0x0c9), (.cmpeq, 0x100), (.cmpne, 0x101), (.cmplt,
   0x102), (.cmple, 0x103), (.cmpltu, 0x104), (.cmpleu, 0x105), (.fcmpeq, 0x106), (.fcmplt, 0x107), (.fcmple, 0x108),
   (.fcmpun, 0x109), (.phcmplt, 0x10a), (.ident, 0x110), (.fork, 0x111), (.switch, 0x112), (.merge, 0x113), (.ndmerge,
   0x114), (.select, 0x115), (.sync, 0x116), (.sink, 0x117), (.cvtif, 0x140), (.cvtfi, 0x141), (.cvtds, 0x142),
   (.cvtsd, 0x143), (.cvtis, 0x144), (.smpf, 0x145), (.smpstat, 0x146), (.smpch, 0x147), (.smpseq, 0x148), (.pack,
   0x149), (.lane1, 0x14a), (.retype, 0x14b), (.typeof, 0x14c), (.iscap, 0x14d), (.mkcont, 0x180), (.ctxnew, 0x181),
   (.gatecall, 0x182), (.sendctx, 0x183), (.opReturn, 0x184), (.chgpe, 0x185), (.senddev, 0x186), (.iterenter, 0x187),
   (.iterret, 0x188), (.sendtag, 0x189), (.iterget, 0x18a), (.load, 0x1c0), (.store, 0x1c1), (.bset, 0x1c2), (.bclr,
   0x1c3), (.iread, 0x1c4), (.iwrite, 0x1c5), (.iclear, 0x1c6), (.mtake, 0x1c7), (.mput, 0x1c8), (.capnarrow, 0x1c9),
   (.phstamp, 0x200), (.phrel, 0x201), (.phadd, 0x202), (.phsub, 0x203), (.phturns, 0x204), (.phfrac, 0x205),
   (.phtime, 0x206), (.drvput, 0x207)] :
    List ((Fire → Instr) × Nat)), P x.1 x.2

/-! ### What a command may change -/

/-- The commands that may change a byte of memory: stores, what completes them, resets, and what empties or moves banks. -/
def stores : Instr → Bool
  | .regWrite _ _ _ | .clCommit _ | .censusSpillDone _ _ | .phaseTick _ _ _ | .reqStore _ | .reqBset _ | .reqBclr _
  | .reqIwrite _ | .reqMput _ | .reqWrite _ | .rspData _ | .rspAck _ | .defdata _ | .rspTimeout _ | .spwrite _
  | .splookup _ | .spread _ | .regwr _ | .regdata _ | .regack _ | .bar4Write _ _ | .supAlu _ _ _ _ _ _
  | .supMul _ _ _ _ _ | .supDiv _ _ _ _ _ | .supLoad _ _ _ _ _ _ _ | .supStore _ _ _ _ _ | .supAtomic _ _ _ _ _
  | .supPresence _ _ _ _ _ _ | .supBranch _ _ _ _ _ | .supLoop _ _ _ | .loopi _ _ _ | .crd _ _ _ | .cwr _ _ _
  | .fence _ | .wait _ | .trap _ _ | .supBreak _ | .gate _ _ | .gret _ | .rete _ | .interruptTake _ _ | .perstAssert
  | .spillGrant _ | .spillRevoke _ | .flr _ | .linkDownReset | .mramOpDone _ | .retireStart | .peStateCopied _
  | .repRetcommit _ | .censusUpdate | .firmwareBoot | .resetNAssert | .genDevreset _ _ | .pgoodFall
  | .secRecovctlGo _ _ | .secQuote _ _ | .secFwwrite _ | .secSvcload _ | .dbgProvreset | .dbgDevreset
  | .completionTimeout _ | .domainCloseDone _ | .vddaoLoss => true
  | _ => false

/-- The commands that may change what the frame statement `OtherCommandsLeaveAlone` lists. -/
def unquiet : Instr → Bool
  | .regWrite _ _ _ | .genCommit | .phCommit | .cnvCommit | .drvCommit | .clCommit _ | .hifCommit | .logCommit
  | .spnCommit | .quiesceDrained | .quiesceResume | .censusBankPurge _ _ | .phaseTick _ _ _ | .countEvent _ _ _ _
  | .noonMark _ _ | .mainsEdge _ _ | .edgeTimeout _ | .horizonExpire _ | .phframe _ _ _ | .nettime _ | .ostb _ _
  | .inputFrame _ _ _ | .frameMissing _ | .ringrd _ | .capArm _ | .capTrig _ | .outputFrameClose _ _ | .heartbeatWrite
  | .heartbeatExpire | .reqLoad _ | .reqStore _ | .reqBset _ | .reqBclr _ | .reqIread _ | .reqIwrite _ | .reqIclear _
  | .reqMtake _ | .reqMput _ | .reqRead _ | .reqWrite _ | .rspData _ | .rspAck _ | .rspTimeout _ | .regrd _ | .regwr _
  | .regdata _ | .regack _ | .epochDrained | .epochto | .domainCloseBegin _ | .codeword _ _ | .ownershipRequest _ _ _
  | .bankFence _ | .abortdef _ | .bar4Read _ _ _ | .bar4Write _ _ | .sweepRowStart _ | .spareSwitch | .cwr _ _ _
  | .coreReset _ _ | .perstAssert | .perstRelease | .configRequest _ _ _ | .spillGrant _ | .spillRevoke _
  | .imgStore _ | .imgLoad _ | .imgUnload _ | .flr _ | .linkDownReset | .linkPowerChange _ | .repRetire _ _
  | .retireStart | .pePipeDrained | .peStateCopied _ | .repRetcommit _ | .retireTimeout | .rowRetireDone
  | .censusUpdate | .ledgerAdmit | .domainWakeDone _ | .filterReloadDone _ | .idleWindow _ | .pwrDepthWrite _ _ _
  | .voltageReached _ | .oppointRelockDone _ | .snapshotSwap | .powerOn | .dawnPllLocked | .dawnMramReady
  | .dawnCoreCleared | .dawnDomainsRun | .firmwareBoot | .resetNAssert | .resetNRelease | .genDevreset _ _
  | .pgoodFall | .secRecovctlGo _ _ | .cfgReadbackDone _ | .secFwwrite _ | .secFwconfirm _ | .secSvckey _
  | .secSvcload _ | .secProfdef _ _ | .hashDone | .dbgProvreset | .dbgDevreset | .swRead _ _ | .swWrite _ _
  | .domainCloseDone _ | .vddaoLoss => true
  | _ => false

/-- The commands that may change a supervisor thread: its instructions, their answers, its interrupts and its debugging. -/
def threading : Instr → Bool
  | .regWrite _ _ _ | .rspData _ | .rspAck _ | .rspTimeout _ | .regwr _ | .regdata _ | .regack _ | .supAlu _ _ _ _ _ _
  | .supMul _ _ _ _ _ | .supDiv _ _ _ _ _ | .supLoad _ _ _ _ _ _ _ | .supStore _ _ _ _ _ | .storeBuserr _ _
  | .supAtomic _ _ _ _ _ | .supPresence _ _ _ _ _ _ | .supBranch _ _ _ _ _ | .supLoop _ _ _ | .loopi _ _ _
  | .crd _ _ _ | .cwr _ _ _ | .fence _ | .wait _ | .trap _ _ | .supBreak _ | .gate _ _ | .gret _ | .rete _
  | .irqDeliver _ | .interruptTake _ _ | .watchdogExpire _ | .supIpi _ _ | .coreReset _ _ | .sqtailWrite _ _
  | .mramOpDone _ | .retireStart | .pePipeDrained | .dawnDomainsRun | .firmwareBoot | .resetNAssert | .genDevreset _ _
  | .pgoodFall | .secRecovctlGo _ _ | .hashDone | .sessreset _ | .dbgProvreset | .dbgDevreset | .dbgCoreHalt _
  | .dbgCoreStep _ | .dbgCoreResume _ | .vddaoLoss => true
  | _ => false

/-- The commands that may change a session. -/
def sessional : Instr → Bool
  | .regWrite _ _ _ | .cnvCommit | .hifCommit | .ctxLive _ | .nettime _ | .ostb _ _ | .inputFrame _ _ _
  | .frameMissing _ | .rspData _ | .rspAck _ | .rspTimeout _ | .regwr _ | .regdata _ | .regack _ | .perstAssert
  | .sqtailWrite _ _ | .cqheadWrite _ _ | .evheadWrite _ _ | .sqEntryFetch _ _ _ | .coalTimeout _ _ | .sessCreate _
  | .sessDestroy _ | .sessClosed _ | .spillGrant _ | .spillRevoke _ | .imgStore _ | .nop _ | .imgLoad _ | .imgUnload _
  | .ctxCreate _ | .ctxQuiesce _ | .ctxResume _ | .ctxKill _ | .ctxSend _ | .ctxQuery _ | .scrRead _ | .scrWrite _
  | .capRead _ | .obqAttach _ | .obqDetach _ | .flr _ | .linkDownReset | .linkPowerChange _ | .courierWrite _ _ _
  | .logQattach _ | .logQdetach _ | .logCreate _ | .logResume _ | .logStart _ | .logStop _ | .logStatus _
  | .logAppend _ | .logReclaim _ | .nvmeCompletion _ | .nvmeTimeout _ _ | .mramOpDone _ | .retireStart | .resetNAssert
  | .genDevreset _ _ | .pgoodFall | .secRecovctlGo _ _ | .secQuote _ _ | .quoteDone | .secMlogread _ | .secIdkey _
  | .secFwwrite _ | .secFwconfirm _ | .secSvnraise _ | .secSvckey _ | .secSvcload _ | .secProfdef _ _ | .dbgProvreset
  | .dbgDevreset | .completionTimeout _ | .flrComplete _ | .vddaoLoss => true
  | _ => false


end Sys2Proof.Claims

open Sys2Proof Sys2Proof.Machine Sys2Proof.Claims

/-- The computing instructions of a PE send their results (R42, R80, R92, R93, R94, R95, R96, R97, R98, R99, R100,
R102). -/
def Obligations.PeResults : Prop :=
  (Result .add 0x000 (fun c => ⟨c.l.v + c.r.v, tyI64, false⟩)
  ∧ Result .sub 0x001 (fun c => ⟨c.l.v - c.r.v, tyI64, false⟩)
  ∧ Result .mul 0x002 (fun c => ⟨c.l.v * c.r.v, tyI64, false⟩)
  ∧ Result .mulhs 0x003 (fun c => ⟨BitVec.ofInt 64 (c.l.v.toInt * c.r.v.toInt / 2 ^ 64), tyI64, false⟩)
  ∧ Result .mulhu 0x004 (fun c => ⟨BitVec.ofNat 64 (c.l.v.toNat * c.r.v.toNat / 2 ^ 64), tyI64, false⟩)
  ∧ Result .madd 0x005 (fun c => ⟨c.l.v * c.r.v + c.t.v, tyI64, false⟩)
  ∧ Result .opAnd 0x006 (fun c => ⟨c.l.v &&& c.r.v, c.l.ty, false⟩)
  ∧ Result .opOr 0x007 (fun c => ⟨c.l.v ||| c.r.v, c.l.ty, false⟩)
  ∧ Result .opXor 0x008 (fun c => ⟨c.l.v ^^^ c.r.v, c.l.ty, false⟩)
  ∧ Result .opNot 0x009 (fun c => ⟨if c.l.ty = tyBool then c.l.v ^^^ 1#64 else ~~~c.l.v, c.l.ty, false⟩)
  ∧ Result .shl 0x00a (fun c => ⟨c.l.v <<< (c.r.v.toNat % 64), tyI64, false⟩)
  ∧ Result .shr 0x00b (fun c => ⟨c.l.v >>> (c.r.v.toNat % 64), tyI64, false⟩)
  ∧ Result .sar 0x00c (fun c => ⟨c.l.v.sshiftRight (c.r.v.toNat % 64), tyI64, false⟩)
  ∧ Result .opNeg 0x00d (fun c => ⟨-c.l.v, tyI64, false⟩)
  ∧ Result .opAbs 0x00e (fun c => ⟨if c.l.v.toInt < 0 then -c.l.v else c.l.v, tyI64, false⟩)
  ∧ Result .opMin 0x00f (fun c => ⟨if c.r.v.toInt < c.l.v.toInt then c.r.v else c.l.v, tyI64, false⟩)
  ∧ Result .opMax 0x010 (fun c => ⟨if c.l.v.toInt < c.r.v.toInt then c.r.v else c.l.v, tyI64, false⟩)
  ∧ Result .minu 0x011 (fun c => ⟨if c.r.v.toNat < c.l.v.toNat then c.r.v else c.l.v, tyI64, false⟩)
  ∧ Result .maxu 0x012 (fun c => ⟨if c.l.v.toNat < c.r.v.toNat then c.r.v else c.l.v, tyI64, false⟩)
  ∧ Result .clz 0x013 (fun c => .of tyI64 (if c.l.n = 0 then 64 else 63 - Nat.log2 c.l.n))
  ∧ Result .popc 0x014 (fun c => .of tyI64 ((List.range 64).countP c.l.n.testBit)))
  ∧ (Result .fadd 0x040 (fun c => .of tyF64 (Fp.add Fp.b64 c.l.n c.r.n))
  ∧ Result .fsub 0x041 (fun c => .of tyF64 (Fp.sub Fp.b64 c.l.n c.r.n))
  ∧ Result .fmul 0x042 (fun c => .of tyF64 (Fp.mul Fp.b64 c.l.n c.r.n))
  ∧ Result .fdiv 0x043 (fun c => .of tyF64 (Fp.div Fp.b64 c.l.n c.r.n))
  ∧ Result .fsqrt 0x044 (fun c => .of tyF64 (Fp.sqrt Fp.b64 c.l.n))
  ∧ Result .fma 0x045 (fun c => .of tyF64 (Fp.fma Fp.b64 c.l.n c.r.n c.t.n))
  ∧ Result .fmin 0x046 (fun c => .of tyF64 (Fp.fmin Fp.b64 c.l.n c.r.n))
  ∧ Result .fmax 0x047 (fun c => .of tyF64 (Fp.fmax Fp.b64 c.l.n c.r.n))
  ∧ Result .fabs 0x048 (fun c => ⟨c.l.v &&& 0x7FFFFFFFFFFFFFFF#64, tyF64, false⟩)
  ∧ Result .fneg 0x049 (fun c => ⟨c.l.v ^^^ 0x8000000000000000#64, tyF64, false⟩))
  ∧ (Result .padd 0x080 (fun c => vC2 (Fp.add Fp.b32 c.l.lo c.r.lo) (Fp.add Fp.b32 c.l.hi c.r.hi))
  ∧ Result .psub 0x081 (fun c => vC2 (Fp.sub Fp.b32 c.l.lo c.r.lo) (Fp.sub Fp.b32 c.l.hi c.r.hi))
  ∧ Result .pmul 0x082 (fun c => vC2 (Fp.mul Fp.b32 c.l.lo c.r.lo) (Fp.mul Fp.b32 c.l.hi c.r.hi))
  ∧ Result .pfma 0x083 (fun c => vC2 (Fp.fma Fp.b32 c.l.lo c.r.lo c.t.lo) (Fp.fma Fp.b32 c.l.hi c.r.hi c.t.hi))
  ∧ Result .pdiv 0x084 (fun c => vC2 (Fp.div Fp.b32 c.l.lo c.r.lo) (Fp.div Fp.b32 c.l.hi c.r.hi))
  ∧ Result .psqrt 0x085 (fun c => vC2 (Fp.sqrt Fp.b32 c.l.lo) (Fp.sqrt Fp.b32 c.l.hi))
  ∧ Result .pmin 0x086 (fun c => vC2 (Fp.fmin Fp.b32 c.l.lo c.r.lo) (Fp.fmin Fp.b32 c.l.hi c.r.hi))
  ∧ Result .pmax 0x087 (fun c => vC2 (Fp.fmax Fp.b32 c.l.lo c.r.lo) (Fp.fmax Fp.b32 c.l.hi c.r.hi))
  ∧ Result .pabs 0x088 (fun c => ⟨c.l.v &&& 0x7FFFFFFF7FFFFFFF#64, tyF32X2, false⟩)
  ∧ Result .pneg 0x089 (fun c => ⟨c.l.v ^^^ 0x8000000080000000#64, tyF32X2, false⟩)
  ∧ Result .psum 0x08a (fun c => vC2 (Fp.add Fp.b32 c.l.lo c.l.hi) 0)
  ∧ Result .pswap 0x08b (fun c => vC2 c.l.hi c.l.lo)
  ∧ Result .cadd 0x0c0 (fun c => vC (Fp.add Fp.b32 c.l.lo c.r.lo) (Fp.add Fp.b32 c.l.hi c.r.hi))
  ∧ Result .csub 0x0c1 (fun c => vC (Fp.sub Fp.b32 c.l.lo c.r.lo) (Fp.sub Fp.b32 c.l.hi c.r.hi))
  ∧ Result .cmul 0x0c2 (fun c => cmac c.l.lo c.l.hi c.r.lo c.r.hi (2 ^ 31) (2 ^ 31))
  ∧ Result .cmulj 0x0c3 (fun c => cmac c.l.lo c.l.hi c.r.lo (Fp.neg Fp.b32 c.r.hi) (2 ^ 31) (2 ^ 31))
  ∧ Result .cmac 0x0c4 (fun c => cmac c.l.lo c.l.hi c.r.lo c.r.hi c.t.lo c.t.hi)
  ∧ Result .cmacj 0x0c5 (fun c => cmac c.l.lo c.l.hi c.r.lo (Fp.neg Fp.b32 c.r.hi) c.t.lo c.t.hi)
  ∧ Result .cconj 0x0c6 (fun c => vC c.l.lo (Fp.neg Fp.b32 c.l.hi))
  ∧ Result .cneg 0x0c7 (fun c => vC (Fp.neg Fp.b32 c.l.lo) (Fp.neg Fp.b32 c.l.hi))
  ∧ Result .cabs2 0x0c8 (fun c => vC2 (Fp.fma Fp.b32 c.l.lo c.l.lo (Fp.mul Fp.b32 c.l.hi c.l.hi)) 0)
  ∧ Result .cscale 0x0c9 (fun c => vC (Fp.mul Fp.b32 c.l.lo c.r.lo) (Fp.mul Fp.b32 c.l.hi c.r.lo)))
  ∧ (Result .cmpeq 0x100 (fun c => vB (decide (c.l.v = c.r.v)))
  ∧ Result .cmpne 0x101 (fun c => vB (decide (c.l.v ≠ c.r.v)))
  ∧ Result .cmplt 0x102 (fun c => vB (decide (c.l.v.toInt < c.r.v.toInt)))
  ∧ Result .cmple 0x103 (fun c => vB (decide (c.l.v.toInt ≤ c.r.v.toInt)))
  ∧ Result .cmpltu 0x104 (fun c => vB (decide (c.l.v.toNat < c.r.v.toNat)))
  ∧ Result .cmpleu 0x105 (fun c => vB (decide (c.l.v.toNat ≤ c.r.v.toNat)))
  ∧ Result .fcmpeq 0x106 (fun c => vB (Fp.eq Fp.b64 c.l.n c.r.n))
  ∧ Result .fcmplt 0x107 (fun c => vB (Fp.lt Fp.b64 c.l.n c.r.n))
  ∧ Result .fcmple 0x108 (fun c => vB (Fp.lt Fp.b64 c.l.n c.r.n || Fp.eq Fp.b64 c.l.n c.r.n))
  ∧ Result .fcmpun 0x109 (fun c => vB (Fp.isNan Fp.b64 c.l.n || Fp.isNan Fp.b64 c.r.n))
  ∧ Result .phcmplt 0x10a (fun c => vB (decide ((c.l.v - c.r.v).toInt < 0)))
  ∧ Result .ident 0x110 (fun c => c.l)
  ∧ Result .merge 0x113 (fun c => c.l)
  ∧ Result .select 0x115 (fun c => { (if c.t.n % 2 = 1 then c.l else c.r) with cap := false })
  ∧ Result .sync 0x116 (fun c => { c.l with cap := false })
  ∧ Row .fork 0x111 (fun _ _ => true) (fun s c => (c.w.dests ++ ((List.range c.w.w3).flatMap fun i =>
      extDests (word s c.k (c.f.ia + 1 + i))).filter (·.en)).map (toDst · c.l)) (fun _ s => s)
  ∧ Row .switch 0x112 (fun _ _ => true)
      (fun _ c => ([if c.r.n % 2 = 1 then c.w.d1 else c.w.d2].filter (·.en)).map (toDst · c.l)) (fun _ s => s)
  ∧ Row .ndmerge 0x114 (fun _ _ => true)
      (fun _ c => c.w.dests.map fun d => { toDst d c.l with iter := c.f.t.map (·.n) }) (fun _ s => s)
  ∧ Row .sink 0x117 (fun _ _ => true) (fun _ _ => []) (fun _ s => s))
  ∧ (Result .cvtif 0x140 (fun c => .of tyF64 (Fp.ofInt Fp.b64 c.l.v.toInt 0))
  ∧ Result .cvtfi 0x141 (fun c => .of tyI64 (wrap 64 (Fp.toI64 c.l.n)))
  ∧ Result .cvtds 0x142 (fun c => vC2 (Fp.narrow c.l.n) 0)
  ∧ Result .cvtsd 0x143 (fun c => .of tyF64 (Fp.widen true c.l.lo))
  ∧ Result .cvtis 0x144 (fun c => vC2 (Fp.ofInt Fp.b32 c.l.v.toInt 0) 0)
  ∧ Result .smpf 0x145 (fun c => vC2 (Fp.ofInt Fp.b32 (sampleCode c.l.n) (-23)) 0)
  ∧ Result .smpstat 0x146 (fun c => .of tyI64 (bits c.l.n 0 8))
  ∧ Result .smpch 0x147 (fun c => .of tyI64 (bits c.l.n 32 10))
  ∧ Result .smpseq 0x148 (fun c => .of tyI64 (bits c.l.n 42 22))
  ∧ Result .pack 0x149 (fun c => vC2 c.l.lo c.r.lo)
  ∧ Result .lane1 0x14a (fun c => vC2 c.l.hi 0)
  ∧ Result .typeof 0x14c (fun c => .of tyI64 c.l.ty)
  ∧ Result .iscap 0x14d (fun c => .of tyBool (bit c.l.cap))
  ∧ Row .retype 0x14b (fun _ c => c.d.ring == 0 || (c.w.typex != tyTag && c.w.typex != tyCtxref))
      (fun _ c => c.w.dests.map (toDst · (.of c.w.typex
        (if c.w.typex = tyBool then c.l.n % 2 else if c.w.typex = tyTag then c.l.n - c.l.n % 2 else c.l.n))))
      (fun _ s => s))

/-- The tag operations of a PE send their results and requests (R49, R50, R58, R61, R62, R70, R104, R105, R106). -/
def Obligations.PeTagResults : Prop :=
  Row .mkcont 0x180 (fun _ _ => true)
      (fun s c => if c.w.d1.en then c.w.d3.toList.map fun d =>
        toDst c.w.d1 (.of tyTag (Tag.pack ⟨devnum s, c.f.ctx, c.f.iter, d.ia, d.pe, d.port, 0, false⟩)) else [])
      (fun _ s => s)
  ∧ Request .ctxnew 0x181
      (fun s c => match template s (c.l.n % 2 ^ 16) with | some t => decide (c.d.ring ≤ t.d.ring) | none => false)
      (fun c s => match template s (c.l.n % 2 ^ 16) with
        | some t => toSlice c c.cl 0 (.create t.handle t.d.ring c.r.n 0 false) true s
        | none => s)
  ∧ Request .gatecall 0x182
      (fun s c =>
        let e := gateWord s c.cl (c.l.n % 256)
        (c.d.mode != 1 || (c.l.ty == tySaddr && c.l.cap && bits c.l.n 53 1 == 1 && bits e 20 1 == 1))
          && bits e 21 1 == 1 && decide (1 ≤ bits e 32 5) && decide (bits e 32 5 ≤ 16) && decide (c.d.ring ≤ bits e 18 2)
          && (template s (bits e 0 16)).isSome)
      (fun c s =>
        let g := c.l.n % 256
        let e := gateWord s c.cl g
        toSlice c c.cl g (.create (bits e 0 16) (bits e 16 2) c.r.n g true) true s)
  ∧ Request .sendctx 0x183
      (fun s c => !stale s c.r.n && decide (c.w.w3 < if bits c.r.n 22 1 = 1 then
          bits (gateWord s c.cl (bits c.r.n 23 8)) 32 5 else 16)
        && ((template s (s.ctx (bits c.r.n 0 14)).d.tmpl).bind (·.args[c.w.w3]?)).isSome)
      (fun c s => match (template s (s.ctx (bits c.r.n 0 14)).d.tmpl).bind (·.args[c.w.w3]?) with
        | some a => sendTok c.k c.f ⟨⟨devnum s, bits c.r.n 0 14, 0, a.ia, a.pe, a.port, c.f.pri, false⟩, c.l⟩ s
        | none => s)
  ∧ Request .opReturn 0x184 (fun s c => c.d.rettag % 2 == 1 || routed s (bits c.d.rettag 52 12))
      (fun c s =>
        let s1 := if c.d.rettag % 2 = 1 then s else sendTok c.k c.f (toTag c.d.rettag c.f.pri c.l) s
        if c.w.w3 % 2 = 1 then toSlice c (homeCl c.f.ctx) c.f.ctx (.ret c.f.ctx) false s1 else s1)
  ∧ Row .chgpe 0x185 (fun _ _ => true)
      (fun _ c => c.w.dests.map fun d => { toDst d c.l with pe := some (c.r.n % 256) }) (fun _ s => s)
  ∧ Row .senddev 0x186 (fun s c => routed s (c.r.n % 4096))
      (fun _ c => c.w.dests.map fun d => { toDst d c.l with dev := some (c.r.n % 4096) }) (fun _ s => s)
  ∧ Request .iterenter 0x187 (fun _ _ => true)
      (fun c s => toSlice c (homeCl c.f.ctx) c.f.ctx (.iterEnter c.f.ctx c.w.w3) true s)
  ∧ Request .iterret 0x188 (fun _ _ => true)
      (fun c s => toSlice c (homeCl c.f.ctx) c.f.ctx
        (.iterRet c.f.ctx ⟨c.f.iter, c.w.w3, c.cl * 16 + (logPe s c.cl (c.k % 17)).getD 0, c.f.ia⟩) false s)
  ∧ Request .sendtag 0x189 (fun s c => routed s (bits c.r.n 52 12))
      (fun c s => sendTok c.k c.f (toTag c.r.n c.f.pri { c.l with cap := false }) s)
  ∧ Result .iterget 0x18a (fun c => .of tyI64 c.f.iter)

/-- The scratch, phase and drive instructions of a PE (R69, R72, R107, R108, R110, R111, R112, R165, R166, R175). -/
def Obligations.PeRequests : Prop :=
  (ReadRow .load 0x1c0 0x10 ∧ WriteRow .store 0x1c1 0x11 ∧ WriteRow .bset 0x1c2 0x12 ∧ WriteRow .bclr 0x1c3 0x13
  ∧ ReadRow .iread 0x1c4 0x14 ∧ WriteRow .iwrite 0x1c5 0x15 ∧ ReadRow .iclear 0x1c6 0x16 ∧ ReadRow .mtake 0x1c7 0x17
  ∧ WriteRow .mput 0x1c8 0x18
  ∧ Row .capnarrow 0x1c9
      (fun _ c => c.l.cap && (if bits c.l.n 53 1 = 1 then decide (c.r.n = 0) && decide (c.t.n = 0) && decide (c.w.w3 = 0)
        else c.r.n % 8 == 0 && decide (c.r.n + c.t.n ≤ bits c.l.n 25 25) && decide (bits c.l.n 50 3 &&& c.w.w3 = c.w.w3)))
      (fun _ c => c.w.dests.map (toDst · (if bits c.l.n 53 1 = 1 then c.l else ⟨BitVec.ofNat 64 ((bits c.l.n 0 25 + c.r.n) % 2 ^ 25 + c.t.n % 2 ^ 25 * 2 ^ 25
        + c.w.w3 * 2 ^ 50), tySaddr, true⟩))) (fun _ s => s))
  ∧ (Row .phstamp 0x200 (fun s c => bits (s.bs (c.cl * 16 + c.d.phsrc)).status 0 3 != 0)
      (fun s c => (if c.w.d1.en then [toDst c.w.d1 { c.l with cap := false }] else [])
        ++ (if c.w.d2.en then [toDst c.w.d2 (.of tyPhase (s.bs (c.cl * 16 + c.d.phsrc)).pb)] else [])) (fun _ s => s)
  ∧ Row .phrel 0x201
      (fun s c => bits (s.bs (c.cl * 16 + c.d.phsrc)).status 0 3 != 0 && (!c.w.d1.en || decide (gateUsed s c.cl < 512)))
      (fun s c => if !c.w.d1.en then [] else [{ toDst c.w.d1 c.l with rel := some (if c.r.ty = tyPhase then c.r.n
        else ((s.bs (c.cl * 16 + c.d.phsrc)).pb + c.r.n) % 2 ^ 64) }])
      (fun c s => if !c.w.d1.en then s else
        gateHwm c.cl (s.updCl c.cl fun g => { g with reserved := g.reserved + 1 }))
  ∧ Result .phadd 0x202 (fun c => ⟨c.l.v + c.r.v, tyPhase, false⟩)
  ∧ Result .phsub 0x203 (fun c => ⟨c.l.v - c.r.v, tyI64, false⟩)
  ∧ Result .phturns 0x204 (fun c => .of tyI64 (wrap 64 (signed 32 (bits c.l.n 32 32))))
  ∧ Result .phfrac 0x205 (fun c => .of tyI64 (c.l.n % 2 ^ 32))
  ∧ Result .phtime 0x206 (fun c => .of tyF64
      (Fp.div Fp.b64 (Fp.ofInt Fp.b64 c.l.v.toInt (-32)) (Fp.ofInt Fp.b64 c.r.v.toInt (-32))))
  ∧ Request .drvput 0x207 (fun _ _ => true) (fun c s => peSend c.k {
      src := clStation c.cl, dstn := 12, dstp := 0, ring := 0, cmd := 0x03, vn := vnTok, epoch := 0, init := c.cl,
      f := (c.d.drvfirst + c.w.w3) % 256 + c.f.ctx * 2 ^ 8 + c.l.ty * 2 ^ 64, body := .units [c.l.n], who := none,
      asker := .nobody } s))

/-- A firing that fails a check sends nothing and raises one fault (R45, R54, R57, R83, R88, R90, R91, R101, R115). -/
def Obligations.FiringFaults : Prop :=
  EachPeRow fun row op => ∀ s f g st, atIssue s f op g st = true →
    let k := f.cl * 17 + f.pe; let n := word s k g.ia; let w := Insn.decode n; let t := afterIssue s f g st
    (f.word = .uncorrectable → exec (row f) s = .next (firingFault k g 0x05 (n % 1024) g.port 0
      (fault { FEv.plain (17 + k / 17) 1 (k % 17) with tgt := some ⟨3, 0, k / 17 * 32 + k % 17, 0⟩ } t)))
    ∧ (f.word ≠ .uncorrectable → w.ok = false → exec (row f) s = .next (firingFault k g 0x05 (n % 1024) g.port 0
      (if f.word = .corrected then
        fault { FEv.plain (17 + k / 17) 0 (k % 17) with tgt := some ⟨1, 0, k / 17 * 32 + k % 17, g.ia / 16⟩ } t else t)))
    ∧ (f.word = .ok → w.ok = true → ∀ o, opInfo op = some o →
      let u := forAll (extWords g w f.ext) (fun x s => storeErr k x.1 x.2 s) t; let vs := operands w o g
      (∀ x, badExt t k g w f.ext = some x → exec (row f) s = .next (firingFault k g 0x05 (word t k x.1 % 1024) g.port 0 u))
      ∧ (badExt t k g w f.ext = none →
        (none ∈ vs → exec (row f) s = .next (firingFault k g 0x06 0 g.port 0 u))
        ∧ (none ∉ vs → ∀ i v, vs[i]? = some (some v) → v.ty = tyPoison → passesPoison op i = false →
          (∀ j x, j < i → vs[j]? = some (some x) → x.ty = tyPoison → passesPoison op j = true) →
          exec (row f) s = .next (firingFault k g 0x11 i g.port tyPoison u))
        ∧ ∀ cause dt port ty, checks (t.ctx g.ctx).d w o g = some (cause, dt, port, ty) →
          exec (row f) s = .next (firingFault k g cause dt port ty u)))

/-- Word and presence requests at a bank (R65, R66, R67, R225, R258, R269). -/
def Obligations.BankRequests : Prop :=
  (∀ (s0 : State) (d : Deliver) (p : Packet), s0.up 5 = true →
    let s := rest s0; let t := taken s d; let a := wordAddr p
    (serves t (a / 2 ^ 20) false p = true → arrives s d p 0x10 = true → exec (.reqLoad d) s0 = .next (match readWord a d.mem t with
      | (true, u) => reply p 0x21 stUNCORR [] u
      | (false, u) => reply p 0x20 stOK [scrGet u a] u))
    ∧ (serves t (a / 2 ^ 20) true p = true →
      (arrives s d p 0x11 = true → exec (.reqStore d) s0 = .next (if d.data = .uncorrectable then reply p 0x21 stUNCORR [] t
        else reply p 0x21 stOK [] (setBad (scrPut t a (p.units.headD 0)) a false)))
      ∧ (arrives s d p 0x12 = true → d.data ≠ .uncorrectable → exec (.reqBset d) s0 = .next (match readWord a d.mem t with
        | (true, u) => reply p 0x21 stUNCORR [] u
        | (false, u) => reply p 0x21 stOK [] (scrPut u a (scrGet u a ||| p.units.headD 0 % 2 ^ 64))))
      ∧ (arrives s d p 0x13 = true → d.data ≠ .uncorrectable → exec (.reqBclr d) s0 = .next (match readWord a d.mem t with
        | (true, u) => reply p 0x21 stUNCORR [] u
        | (false, u) =>
          reply p 0x21 stOK [] (scrPut u a (scrGet u a - (scrGet u a &&& p.units.headD 0 % 2 ^ 64)))))
      ∧ (d.data = .uncorrectable →
        (arrives s d p 0x12 = true → exec (.reqBset d) s0 = .next (reply p 0x21 stUNCORR [] t))
        ∧ (arrives s d p 0x13 = true → exec (.reqBclr d) s0 = .next (reply p 0x21 stUNCORR [] t)))))
  ∧ (∀ (s0 : State) (d : Deliver) (p : Packet), s0.up 5 = true → let s := rest s0; let a := wordAddr p; let b := a / 2 ^ 20
    let t := if d.pres = .uncorrectable then
        fault { FEv.plain 8 1 b with detail := a, tgt := some (bankTarget b) } (failWord a stUNCORR (taken s d))
      else taken s d
    let l := mget [] t.defers b
    (∀ take, serves (taken s d) b take p = true → arrives s d p (if take then 0x17 else 0x14) = true →
      exec (if take then .reqMtake d else .reqIread d) s0 = .next (
        if presOf t a = 1 then
          (match readWord a d.mem t with
          | (bad, u) =>
            let v := if take then setPres u a 0 else u
            if bad then reply p 0x21 stUNCORR [] v else reply p 0x20 stOK [scrGet v a] v)
        else if 2048 ≤ l.length then reply p 0x21 stDEFFULL [] (event 8 3 b t)
        else reply p 0x21 stDEFERRED []
          (setPres (setDefers b (l ++ [⟨a, take, p.init, p.src, p.rstop, p.txn, p.who, askerDests t p, p.asker⟩]) t) a 2)))
    ∧ (serves (taken s d) b true p = true →
      (∀ row, row = Instr.reqIwrite d ∧ arrives s d p 0x15 = true ∨ row = .reqMput d ∧ arrives s d p 0x18 = true →
        exec row s0 = .next (if d.data = .uncorrectable then reply p 0x21 stUNCORR [] t
          else if presOf t a = 1 then reply p 0x21 stISFULL [] t
          else reply p 0x21 stOK [] (storePresence a (p.units.headD 0) t)))
      ∧ (arrives s d p 0x16 = true → exec (.reqIclear d) s0 = .next (reply p 0x21 stOK [] (failWord a stREFUSED t)))))

/-- A value stored in a word serves its deferred list in order (R66). "A write served against a deferred list answers
the requests in their order on the list. Each IREAD receives the value and leaves the list. The first MTAKE reached
receives the value, sets the word EMPTY and stops the serving. If requests remain after that, the state stays DEFERRED
with them. If the list empties with no MTAKE reached, the state is FULL." -/
def Obligations.DeferredListServed : Prop :=
  ∀ (s : State) (a v : Nat), a < 2 ^ 25 → let b := a / 2 ^ 20; let es := entriesAt s a
    let u := setBad (scrPut s a v) a false
    let served := es.takeWhile (!·.take) ++ (es.dropWhile (!·.take)).take 1
    let rest := (es.dropWhile (!·.take)).drop 1
    let w := forAll served (fun e => sendDef b e stOK [v]) u
    storePresence a v s = setPres (if es = [] then w else setDefers b (dropServed a served.length (mget [] w.defers b)) w) a
        (if es.any (·.take) then (if rest = [] then 0 else 2) else 1)
    ∧ presOf (storePresence a v s) a = (if es.any (·.take) then (if rest = [] then 0 else 2) else 1)
    ∧ entriesAt (storePresence a v s) a = rest
    ∧ scrGet (storePresence a v s) a = v % 2 ^ 64

/-- Requests that a bank refuses, and the views of scratch (R257, R258, R259, R261, R262, R264, R269). -/
def Obligations.BankRefusalsAndViews : Prop :=
  (∀ (s0 : State) (d : Deliver) (p : Packet) (row : Instr) (cmd : Nat) (write : Bool), s0.up 5 = true → let s := rest s0
    (row, cmd, write) ∈ [(Instr.reqLoad d, 0x10, false), (.reqStore d, 0x11, true), (.reqBset d, 0x12, true),
      (.reqBclr d, 0x13, true), (.reqIread d, 0x14, false), (.reqIwrite d, 0x15, true), (.reqIclear d, 0x16, true),
      (.reqMtake d, 0x17, true), (.reqMput d, 0x18, true), (.reqRead d, 0x19, false), (.reqWrite d, 0x1A, true)] →
    arrives s d p cmd = true → p.init ≠ 0x5D → p.acc = false →
    ∀ a, (if 0x19 ≤ cmd then (viewOf (p.addr / 16 * 16)).map (·.2) else some (wordAddr p)) = some a →
      let b := a / 2 ^ 20
      (ownerAccepts (rd s (F.sbOwnerOwner b)) p.init write = false →
        exec row s0 = .next (reply p 0x21 stREFUSED [] (event 8 2 b (taken s d))))
      ∧ (ownerAccepts (rd s (F.sbOwnerOwner b)) p.init write = true → rdB s (F.sbOwnerFence b) = true →
        exec row s0 = .next (reply p 0x21 stREFUSED [] (taken s d))))
  ∧ (∀ (s0 : State) (d : Deliver) (p : Packet), s0.up 5 = true →
    let s := rest s0; let t := taken s d; let v := viewOf (p.addr / 16 * 16)
    let n := min (max (p.units.headD 1) 1) 8
    (v = none → (arrives s d p 0x19 = true → exec (.reqRead d) s0 = .next (reply p 0x21 stNOTARGET [] t))
      ∧ (arrives s d p 0x1A = true → exec (.reqWrite d) s0 = .next (reply p 0x21 stNOTARGET [] t)))
    ∧ ∀ view a, v = some (view, a) →
      (arrives s d p 0x19 = true → serves t (a / 2 ^ 20) false p = true → exec (.reqRead d) s0 = .next (
        if view = 3 then
          let u := if d.word < 64 * n ∧ d.pres = .uncorrectable then
              let w := a + 8 * d.word
              fault { FEv.plain 8 1 (w / 2 ^ 20) with detail := w, tgt := some (bankTarget (w / 2 ^ 20)) } (failWord w stUNCORR t)
            else t
          reply p 0x20 stOK (pairUnits ((List.range (2 * n)).map fun i => presWord u (a + 256 * i))) u
        else match readWords a d.word (2 * n) d.mem t with
          | (_, true, u) => reply p 0x21 stUNCORR [] u
          | (ws, false, u) => reply p 0x20 stOK (pairUnits ws) u))
      ∧ (arrives s d p 0x1A = true → serves t (a / 2 ^ 20) true p = true → exec (.reqWrite d) s0 = .next (
        if view = 3 then reply p 0x21 stREFUSED [] t
        else if d.data = .uncorrectable then reply p 0x21 stUNCORR [] t
        else match writeWords view a d.word (p.units.flatMap fun u => [(bits u 0 64, bits u 128 8), (bits u 64 64, bits u 136 8)])
            d.mem t with
          | (bad, u) => reply p 0x21 (if bad then stUNCORR else stOK) [] u)))

/-- The state of word k of a block lies in bits 2k+1:2k of its presence view word (R259). "In a presence view word,
the state of word k of the block (k = 0 to 31, in ascending address order) lies in bits 2k + 1 : 2k." -/
def Obligations.PresenceViewCodes : Prop :=
  ∀ (s : State) (a k : Nat), k < 32 → (∀ j, j < 32 → presOf s (a / 256 * 256 + 8 * j) ≤ 2) →
    bits (presWord s a) (2 * k) 2 = presOf s (a / 256 * 256 + 8 * k) ∧ bits (presWord s a) (2 * k) 2 ≠ 3

/-- Lock cells, and the ownership of banks (R261, R263, R264, R275, R277). -/
def Obligations.LocksAndOwnership : Prop :=
  (∀ (s : State) (m c : Nat), s.up 3 = true → c < 256 → masterOk s m = true → let x := s.lock c
    let mine := x.held = true ∧ x.holder = m % 2 ^ 16
    (x.held = false → exec (.lockAcquire m c) s = .next (s.setLock c ⟨true, m % 2 ^ 16, x.abandoned⟩))
    ∧ (x.held = true → exec (.lockAcquire m c) s = .next s)
    ∧ (mine → exec (.lockRelease m c) s = .next (s.setLock c ⟨false, 0, false⟩)
      ∧ exec (.lockAck m c) s = .next (s.setLock c ⟨true, m % 2 ^ 16, false⟩))
    ∧ (¬ mine → exec (.lockRelease m c) s = .next (event 9 1 0 s) ∧ exec (.lockAck m c) s = .next (event 9 1 0 s)))
  ∧ (∀ (s : State) (b : Nat), s.up 5 = true → b < 32 → let own := rd s (F.sbOwnerOwner b)
    own < 256 → rd s (F.sbOwnerFence b) < 2 →
    let k := keepAccepted b s
    exec (.bankFence b) s = .next (put k (F.sbOwnerFence b) 1)
    ∧ exec (.abortdef b) s = .next (abortDefers b (put k (F.sbOwnerFence b) (rd s (F.sbOwnerFence b))))
    ∧ ∀ (o : Nat) (fence : Bool), o < 256 → let t := put k (F.sbOwnerFence b) (bit fence)
      (o = own → exec (.ownershipRequest b o fence) s = .next t)
      ∧ (o ≠ own → let r := if defersOf t b ≠ [] ∨ openAt t b ≠ 0 then 1 else if winInBank s b then 2 else if ringInBank s b then 3
            else if bankRetiring s b then 4 else if ownerCode o then 0 else 5
          let u := put t (F.sbOwnerResult b) r
          exec (.ownershipRequest b o fence) s = .next (
            if r = 0 then put (put u (F.sbOwnerOwner b) o) (F.sbOwnerFence b) 0 else if ownerCode o then u else cfgErr 8 u)))

/-- Host accesses through BAR4, and the rows of the background sweep (R260, R262, R264, R271, R272, R313). -/
def Obligations.Bar4AndSweep : Prop :=
  ∀ (s : State), s.up 5 = true →
    (∀ (addr len : Nat) (e : Ecc), let b := addr % 2 ^ 25 / 2 ^ 20
      let ok := ownerAccepts (rd s (F.sbOwnerOwner b)) 0x10 false
      (ok = false → exec (.bar4Read addr len e) s = .next (emitOut (.barData 1 0) (event 8 2 b s)))
      ∧ (ok = true → rdB s (F.sbOwnerFence b) = true → exec (.bar4Read addr len e) s = .next (emitOut (.barData 1 0) s))
      ∧ (ok = true → rdB s (F.sbOwnerFence b) = false →
        exec (.bar4Read addr len e) s = .next (match readWords (addr % 2 ^ 25 / 8 * 8) 0 ((addr % 8 + len + 7) / 8) e s with
          | (_, true, u) => emitOut (.barData 1 0) u
          | (ws, false, u) => emitOut (.barData 0 (bits (ws.foldr (fun w m => w + m * 2 ^ 64) 0) (8 * (addr % 8)) (8 * len))) u)))
    ∧ (∀ (addr : Nat) (bytes : List Nat), let b := addr % 2 ^ 25 / 2 ^ 20
      let ok := ownerAccepts (rd s (F.sbOwnerOwner b)) 0x10 true && !rdB s (F.sbOwnerFence b)
      (ok = false → exec (.bar4Write addr bytes) s = .next (event 8 2 b s))
      ∧ (ok = true → exec (.bar4Write addr bytes) s = .next (writeWords (rd s F.sbBar4cfgView) (addr % 2 ^ 25 / 8 * 8) 0
          ((List.range ((addr % 8 + bytes.length + 7) / 8)).map (runWord bytes (addr % 8))) .ok s).2))
    ∧ (∀ (r : SweepRow), rdB s F.sbSweepcfgEn = false → exec (.sweepRowStart r) s = .next s)
    ∧ (∀ (r : SweepRow) (row : Nat) (retry : Bool), rdB s F.sbSweepcfgEn = true → sweepSkips s s.sweep.bank = false →
      s.sweep.target = some (row, retry) → exec (.sweepRowStart r) s = .next
        (sweepStep row retry r.interrupted (sweepWeak s.sweep.bank row r.failing (sweepUnit s.sweep.bank row r.badUnit s))))

/-- Requests at a context slice, and notices (R50, R61, R62, R119, R136, R137, R226). -/
def Obligations.SliceRequestsAndNotices : Prop :=
  (∀ (s0 : State) (d : Deliver) (p : Packet) (cl : Nat), s0.up 5 = true → let s := rest s0; arrives s d p 0x1C = true →
    stationCl p.dstn = some cl → let t := taken s d
    (d.data = .uncorrectable → exec (.slice d) s0 = .next (reply p 0x21 stUNCORR [] t))
    ∧ (d.data ≠ .uncorrectable →
      (∀ h ring rettag gate gated, p.body = .create h ring rettag gate gated → exec (.slice d) s0 = .next (
        match findSlot t cl d.pick, template t h with
        | some slot, some tm => createCtx slot tm (newDesc tm (askerDesc t p) ring rettag)
            (.firing (match p.asker with | .pe k => k | _ => 0) p.txn
              (ctxref slot (((t.ctx slot).gen + 1) % 256) (devnum t) (if gated then some gate else none))) t
        | _, _ => reply p 0x20 stOK [] t))
      ∧ (∀ ctx loop, p.body = .iterEnter ctx loop →
        exec (.slice d) s0 = .next (reply p 0x20 stOK [(s.ctx ctx).head.getD loop 0] t))
      ∧ (∀ ctx loop, p.body = .query ctx loop → let from_ := (stationCl p.src).getD 0
        let u := t.updCtx ctx fun x => { x with queried := if x.queried.contains (loop, from_) then x.queried
          else x.queried ++ [(loop, from_)] }
        exec (.slice d) s0 = .next (inject (answerTo u p 0x20 stOK (.window ctx loop ((s.ctx ctx).head.getD loop 0)
          ((s.ctx ctx).d.kbound.getD loop 0 + 1) ((s.ctx ctx).thrM || (s.ctx ctx).thrS))) u))
      ∧ (∀ ctx r, p.body = .iterRet ctx r →
        exec (.slice d) s0 = .next (t.updCtx ctx fun x => { x with iterReqs := x.iterReqs ++ [r] }))
      ∧ (∀ ctx, p.body = .ret ctx →
        exec (.slice d) s0 = .next (t.updCtx ctx fun x => { x with retPending := true }))))
  ∧ (∀ (s0 : State) (d : Deliver) (p : Packet) (cl ctx loop head k : Nat) (thr : Bool), s0.up 5 = true → let s := rest s0
    arrives s d p 0x23 = true → stationCl p.dstn = some cl → p.body = .window ctx loop head k thr →
    let w : Lwc := ⟨ctx, loop, head, k, thr⟩
    let t := if p.vn = vnRsp ∧ p.status ≠ stDEFERRED then bumpStat p.dstn p.init 3 1 (taken s d) else taken s d
    exec (.notice d) s0 = .next ((List.range 17).foldl (fun u i =>
      let q := u.pe (cl * 17 + i)
      let go := admitted w q.throttle
      let chain := match logPe u cl i with | some l => mget [] (u.cl cl).heldChain l | none => []
      pumpLoops (cl * 17 + i) (go.foldl (fun v h => sendOut (cl * 17 + i) h v) (u.setPe (cl * 17 + i) { q with
        lwc := q.lwc.map fun v => if v.ctx = ctx ∧ v.loop = loop then w else v,
        throttle := q.throttle.filter fun h => !go.contains h,
        asks := if chain = [] then q.asks
          else q.asks.filter (fun v => decide (v.ctx ≠ ctx ∨ v.loop ≠ loop)) ++ [w] }))) t))

/-- Loops and slots of contexts (R29, R46, R50, R62, R64, R76, R77, R134, R136, R142, R144). -/
def Obligations.ContextSlots : Prop :=
  (∀ (s : State) (ctx loop : Nat) (r : IterReq), s.up 5 = true → let x := s.ctx ctx
    x.iterReqs.find? (·.loop == loop) = some r → let head := x.head.getD loop 0; let dn := x.done.getD loop 0
    let e := (r.iter + 4096 - head) % 4096; let x1 := { x with iterReqs := eraseFirst r x.iterReqs }
    (x.d.kbound.getD loop 0 + 1 ≤ e ∨ dn.testBit e = true → exec (.iterretApply ctx loop) s = .next
      (firingEvent (r.pe / 16) ctx (faultValue 0x07 0 r.ia r.pe 0 r.iter loop) (s.setCtx ctx x1)))
    ∧ (e ≤ x.d.kbound.getD loop 0 → dn.testBit e = false → ∀ n, n ≤ 64 →
      (∀ i, i < n → (dn ||| 2 ^ e).testBit i = true) → (n < 64 → (dn ||| 2 ^ e).testBit n = false) →
      let u := s.setCtx ctx { x1 with done := x.done.set loop ((dn ||| 2 ^ e) / 2 ^ n),
                                      head := x.head.set loop ((head + n) % 4096) }
      exec (.iterretApply ctx loop) s = .next (if n = 0 then u else notify ctx loop u)))
  ∧ (∀ (s : State) (ctx : Nat), s.up 5 = true → let x := s.ctx ctx
    (x.state = .creating → x.loads = [] → let u := s.setCtx ctx { x with state := .live, onLive := .nothing }
      exec (.ctxLive ctx) s = .next (match x.onLive with
        | .nothing => u
        | .firing k txn ref => inject {
            src := clStation (homeCl ctx), dstn := clStation (k / 17), dstp := k % 17, ring := 0,
            cmd := 0x20, vn := vnRsp, epoch := 0, init := k / 17, f := rspF txn stOK (k % 17), body := .units [ref],
            who := none, asker := .pe k } u
        | .command id => finish id scSUCCESS (ctxref ctx x.gen (devnum s) none) 0 u))
    ∧ (x.retPending = true → x.state = .live → exec (.returnApply ctx) s = .next (s.setCtx ctx { x with
        state := .returning, retPending := false, thrM := false, thrS := false,
        census := some ⟨none, 0, 0, 0, 0, 0, 0, 0, [], [], [], [], [], [], false⟩ }))
    ∧ (x.quiescing = true → let u := s.setCtx ctx { x with
        quiescing := false, ctxq := true, state := if x.state = .live then .quiesced else x.state }
      exec (.ctxQuiesceEffect ctx) s = .next (if x.d.drvcount = 0 then u else
        abortBy 5 (fun c => x.d.channels.contains c) u))
    ∧ ∀ (cl pe : Nat) (d : Delta), (s.pe (cl * 17 + pe)).delta.find? (·.ctx == ctx) = some d →
      exec (.deltaFlush cl pe ctx) s = .next (applyDelta d (s.updPe (cl * 17 + pe) fun p =>
        { p with delta := p.delta.filter (·.ctx != ctx) })))

/-- The windows of the stall census (R141). -/
def Obligations.StallCensusWindows : Prop :=
  ∀ (s : State) (cl : Nat), s.up 5 = true → stalled s cl = true →
    (rd s (F.clStallstatState cl) = 0 → let n := 8 * rd s (F.clStallcfgForce cl)
      let u := forAll (List.range 17) (fun i v => forceSpill (cl * 17 + i)
        (v.updPe (cl * 17 + i) fun p => { p with forced := n })) s
      exec (.stallWin1Expire cl) s = .next
        (stallWatch cl (put (putSat u (F.clStallstatEpisodes cl) 1) (F.clStallstatState cl) 1)))
    ∧ (rd s (F.clStallstatState cl) = 1 → ∃ firsts mask,
      exec (.stallWin2Expire cl) s = .next (forAll firsts (fun (e : Nat × Tok) => clFault cl (some e.2.tag.ctx)
        (faultValue 0x26 e.2.tag.port e.2.tag.ia (cl * 16 + e.1) 0 e.2.tag.iter mask))
        (put (putSat s (F.clStallstatFaults cl) 1) (F.clStallstatState cl) 2))
      ∧ (firsts.map (·.2.tag.ctx)).Nodup
      ∧ ∀ (i : Nat) (t : Tok) (l : Nat), i < 17 → readWaits (s.pe (cl * 17 + i)) = true →
          headTok s (cl * 17 + i) = some t → logPe s cl i = some l →
          (∃ e ∈ firsts, e.2.tag.ctx = t.tag.ctx) ∧ mask.testBit l = true)

/-- The orphan census (R67, R142, R143, R144, R170, R266, R331). -/
def Obligations.OrphanCensus : Prop :=
  (∀ (s : State) (ctx : Nat) (c : Census), s.up 5 = true → (s.ctx ctx).census = some c →
    (∀ cl, cl < 16 → c.reached.contains cl = false → exec (.censusStart ctx cl) s = .next (s.setCtx ctx
      { s.ctx ctx with census := some { c with
        reached := c.reached ++ [cl], start := if c.reached.length = 15 then some s.now else c.start } }))
    ∧ (∀ cl pe, cl < 16 → pe < 16 → c.reached.contains cl = true → c.scanned.contains (cl * 16 + pe) = false →
      (s.pe (peKey s (cl * 16 + pe))).stopped = false →
      let u := countCensus ctx (fun c => { c with scanned := c.scanned ++ [cl * 16 + pe] })
        (scanPe (peKey s (cl * 16 + pe)) ctx s)
      let all := ((u.ctx ctx).census.map fun c => decide ((c.scanned.filter (· / 16 == cl)).length = 16)) = some true
      exec (.censusScanDone ctx cl pe) s = .next
        (stallWatch cl (pumpLoops (peKey s (cl * 16 + pe)) (if all then inject (flushMarker ctx cl) u else u))))
    ∧ (∀ d p cl, let v := rest s; let t := taken v d
      (v.ctx ctx).census = some c → arrives v d p 0x02 = true → bits p.f 38 14 = ctx → stationCl p.dstn = some cl → c.scansDone = true →
      outstanding t ctx = false → tokensMove t ctx = false →
      exec (.flush d) s = .next (countCensus ctx (fun c => { c with flushed := c.flushed ++ [cl] }) t))
    ∧ (c.flushed.length = 16 →
      (∀ cl, cl < 16 → c.gates.contains cl = false → exec (.censusGatePurge ctx cl) s = .next (countCensus ctx
        (fun c => { c with held := c.held + ((s.cl cl).gate.filter (·.tok.tag.ctx == ctx)).length, gates := c.gates ++ [cl] })
        (s.updCl cl fun g => { g with gate := g.gate.filter (·.tok.tag.ctx != ctx) })))
      ∧ (∀ cl, cl < 16 → c.spillDone.contains cl = false → exec (.censusSpillDone ctx cl) s = .next (countCensus ctx
        (fun c => { c with spillDone := c.spillDone ++ [cl] })
        (forAll (usedNear s cl ++ ((s.cl cl).far.map (farTag + ·.1))) (censusRec ctx cl) s)))
      ∧ (∀ b, b < 32 → c.banks.contains b = false → ∃ t, exec (.censusBankPurge ctx b) s = .next t
        ∧ defersOf t b = (defersOf s b).filter (fun e => (e.who.map (·.1)) != some ctx)
        ∧ ∃ c', (t.ctx ctx).census = some c' ∧ c'.banks = c.banks ++ [b]
          ∧ c'.defer = c.defer + ((defersOf s b).filter (fun e => (e.who.map (·.1)) == some ctx)).length)))
  ∧ (∀ (s : State) (ctx : Nat) (c : Census), s.up 5 = true → let x := s.ctx ctx; let h := homeCl ctx
    x.census = some c →
    (censusStep s ctx x c = 8 → let sum := c.oper + c.ready + c.held + c.arrived + c.defer + c.answ
      let u := if sum = 0 then s else
        clFault h (some ctx) (faultValue 0x27 0 0 0 0 0 (min sum 0xFFFF)) (writeOrph ctx x.gen c s)
      exec (.censusEnd ctx) s = .next ((push x.d.fltch 0x03 (ctxendPayload ctx x.gen c) u).setCtx ctx
        { Ctx.init with gen := x.gen }))
    ∧ (∀ t0, c.overTime = false → c.start = some t0 →
      2 ^ rd s (F.clCensuscfgToexp h) * 64 ≤ (s.now - t0) * rd s (F.clClkstatFreq h) → exec (.censusto ctx) s = .next (clFault h (some ctx)
        (faultValue 0x28 0 0 0 0 0 (censusStep s ctx x c))
        (s.setCtx ctx { x with census := some { c with overTime := true } }))))

/-- Tokens on their way into operand sets (R39, R40, R42, R46, R50, R51, R52, R55, R88, R116, R117, R224). -/
def Obligations.TokensReachOperandSets : Prop :=
  (∀ (s0 : State) (d : Deliver) (p : Packet), s0.up 3 = true → let s := rest s0; arrives s d p 0x01 = true →
    let tag := Tag.unpack (bits p.f 0 64); let cl := (stationCl p.dstn).getD 0
    let stop (v : State) := peKey v tag.pe % 17
    let send (t : Tok) (v : State) := clPut cl 17 (stop v) (.short (shortUnit t)) v
    (p.dstn ≠ 25 → ∀ (t : Tok) (v : State),
      (d.data ≠ .uncorrectable → t = ⟨tag, ⟨BitVec.ofNat 64 (p.units.headD 0), bits p.f 64 4, bits p.f 68 1 == 1⟩⟩ ∧ v = taken s d) →
      (d.data = .uncorrectable → ∃ w, (taken s d).takeFree = (w, v) ∧ t = ⟨tag, ⟨w, tyPoison, false⟩⟩) →
      exec (.token d) s0 = .next (if mayEnter v cl 17 (stop v) vnTok 1 then send t v else s))
    ∧ (p.dstn = 25 → exec (.token d) s0 = .next (egress p.via
        (if d.data = .uncorrectable then { p with f := setBits p.f 64 4 tyPoison } else p) (taken s d)))
    ∧ ∀ (v : State) (cl n : Nat) (u : CUnit), u.body = .short n →
      let k := cl * 17 + u.dstop; let t := ofShort (devnum v) cl n
      ejectUnit cl u v = if (v.pe k).inq.length < 128 ∧ (v.pe k).stopped = false then
        some (tagBreak (k / 17) 0 t.tag (v.updPe k fun q => { q with inq := q.inq ++ [t] })) else none)
  ∧ (∀ (s : State) (r : ReadOp) (t : Tok) (n : Nat), let k := r.cl * 17 + r.pe; let x := s.ctx t.tag.ctx
    readReady s r = true → pickTok s k = some (t, n) →
    let u := s.setPe k { s.pe k with inq := eraseFirst t (s.pe k).inq, passed := n }
    let live := if executable u t.tag.ctx t.tag.pe t.tag.ia then matchTok k t ⟨r.reads, false, false⟩ u
      else tokFault k t 0x01 0 u
    let ends (v : State) := stallWatch r.cl (clFlow r.cl v)
    (r.tok = .uncorrectable → exec (.tokenRead r) s = .next
      (ends (fault { FEv.plain (17 + r.cl) 4 r.pe with tgt := some ⟨3, 0, r.cl * 32 + r.pe, 0⟩ } u)))
    ∧ (r.tok ≠ .uncorrectable →
      (x.state = .free → exec (.tokenRead r) s = .next (ends (stray r.cl t.tag u)))
      ∧ (x.state = .creating → t.tag.port ≠ 3 → t.tag.phg = false →
        exec (.tokenRead r) s = .next (ends (stray r.cl t.tag u)))
      ∧ (x.state = .creating → t.tag.port = 3 → t.tag.phg = false → exec (.tokenRead r) s = .next (ends (
        if (∃ h, (live.pe k).holdTok = some h ∧ h.tok = t) ∨ (live.pe k).refill.any (·.tok == t) then live
        else live.updCtx t.tag.ctx fun y => match y.loads.find? (acksLoad t) with
          | some l => { y with loads := y.loads.erase l }
          | none => y)))
      ∧ (x.state = .returning → censusAt x r.cl = true → exec (.tokenRead r) s = .next
        (ends (countCensus t.tag.ctx (fun c => { c with arrived := c.arrived + 1 }) u)))
      ∧ (x.state = .live ∨ x.state = .quiesced ∨ x.state = .creating ∧ t.tag.phg = true
          ∨ (x.state = .returning ∧ censusAt x r.cl = false) →
        exec (.tokenRead r) s = .next (ends (if t.tag.phg then tokFault k t 0x13 0 u else live)))))
  ∧ (∀ (s : State) (k : Nat) (t : Tok) (o : Look), let w := Insn.decode (word s k t.tag.ia); let p := s.pe k
    o.r.word = .ok → o.r.half0 = .ok → o.r.half1 = .ok → w.ok = true →
    (t.tag.port = 3 → w.src ≠ 2 → matchTok k t o s = tokFault k t 0x02 3 s)
    ∧ (t.tag.port ≠ 3 → w.tokens ≤ t.tag.port → matchTok k t o s = tokFault k t 0x02 t.tag.port s)
    ∧ (t.tag.port < 3 → t.tag.port < w.tokens → w.mergeForm = false →
        (keyPending p t.tag = false ∨ o.entryDone = true ∨ o.constDone = true) →
      (∀ e, p.store.find? (·.hasKey .operand t.tag.ctx t.tag.iter t.tag.ia) = some e →
        let slot := if t.tag.port = 0 then e.l else if t.tag.port = 1 then e.r else e.t
        let f : Firing := ⟨e.ctx, e.iter, e.ia, max e.pri t.tag.pri, t.tag.port,
          if t.tag.port = 0 then some t.val else e.l, if t.tag.port = 1 then some t.val else e.r,
          if t.tag.port = 2 then some t.val else e.t⟩
        (slot.isSome = true → matchTok k t o s = tokFault k t 0x03 0 s)
        ∧ (slot = none → f.full w.tokens = true → matchTok k t o s = completeSet k t w f (some e.stamp) { o with entryDone := false } s s)
        ∧ (slot = none → f.full w.tokens = false → matchTok k t o s = s.updPe k fun q => { q with
            store := q.store.map fun y => if y.stamp = e.stamp then { e with pri := f.pri, l := f.l, r := f.r, t := f.t }
              else y }))
      ∧ (p.store.find? (·.hasKey .operand t.tag.ctx t.tag.iter t.tag.ia) = none →
        evictFind p .operand t.tag.ctx t.tag.iter t.tag.ia = none →
        let set := setIndex .operand t.tag.ctx t.tag.iter t.tag.ia
        (filterOf p set ≠ 0 → o.entryDone = false → w.tokens ≠ 1 → p.refill.length < 16 → matchTok k t o s =
          s.updPe k fun q => { q with refill := q.refill ++ [⟨t, .entry set, false⟩] })
        ∧ (filterOf p set = 0 → (soloFiring t).full w.tokens = false →
          matchTok k t o s = match insertEntry k ⟨.operand, t.tag.pri, t.tag.ctx, t.tag.iter, t.tag.ia, (soloFiring t).l,
              (soloFiring t).r, (soloFiring t).t, 0, 0⟩ [] true o.r (bumpCtr k 3 s) with
            | .ok u => u
            | .error c => overflow k t { o with entryDone := true } set c (bumpCtr k 3 s)))))

/-- The set index of the matching store (R121). "The set index is computed from the key as follows. For constant and
counter entries, ITER is taken as 0xFFF in this computation only." -/
def Obligations.SetIndexFormula : Prop :=
  ∀ (kind : EKind) (ctx : BitVec 14) (iter ia : BitVec 12),
    let it : BitVec 12 := if kind = .const ∨ kind = .counter then 0xFFF#12 else iter
    let b := (it <<< 5) ||| (it >>> 7)
    let c := ctx.extractLsb' 0 12 ^^^ ((ctx.extractLsb' 12 2).setWidth 12 <<< 6)
    let x := ia ^^^ b ^^^ c
    setIndex kind ctx.toNat iter.toNat ia.toNat
      = (x.extractLsb' 0 10 ^^^ ((x.extractLsb' 10 2).setWidth 10 <<< 3)).toNat

/-- OVERFLOW_RETRY and OUTPUT_QUEUE_SEND of a PE (R116, R119, R129, R137, R221, R227, R247). -/
def Obligations.OverflowAndOutput : Prop :=
  ∀ (s : State) (cl pe : Nat), s.up 5 = true → clRuns s cl = true → pe < 17 → let k := cl * 17 + pe; let p := s.pe k
    (∀ h reads, p.stopped = false → p.holdTok = some h → answerHeld p h.tok.tag = false →
      let u := takeTok k h.tok ⟨reads, h.entryDone, h.constDone⟩ (s.setPe k { p with holdTok := none })
      exec (.overflowRetry cl ⟨pe, reads⟩) s = .next
        (if (u.pe k).holdTok.isSome then s else stallWatch cl (pumpLoops k u)))
    ∧ (∀ h reads, p.stopped = false → p.holdTok = none → p.hold = some (.held h) → let v := s.setPe k { p with hold := none }
      exec (.overflowRetry cl ⟨pe, reads⟩) s = .next (
        if p.throttle.length < 128 then
          stallWatch cl (pumpLoops k (v.updPe k fun q => { q with throttle := q.throttle ++ [h] }))
        else if p.evict.length < 8 ∧ spillRefusal v (k / 17) h.tok.tag.ctx = none then
          stallWatch cl (pumpLoops k (count k h.tok.tag.ctx 0 1 (toEvict k (.held h) v)))
        else s))
    ∧ (∀ flip, let sent := match p.outq with
        | [] => s
        | t :: _ => if canLeave s k t then
            let u := leave k flip t s
            match (u.pe k).outq with
            | v :: _ => if pathOf s k v ≠ pathOf s k t ∧ canLeave u k v = true then leave k 0 v u else u
            | [] => u
          else s
      exec (.outputQueueSend cl ⟨pe, flip⟩) s = .next (clFlow cl (sent.updPe k fun q => { q with
        outq := q.outq ++ q.outWait.take (32 - q.outq.length), outWait := q.outWait.drop (32 - q.outq.length) })))
    ∧ (∀ flip t, flip < 128 → let u := s.updPe k fun q => { q with outq := q.outq.drop 1 }
      leave k flip t s = if pathOf s k t = 0 then enterInq k t u
        else if flip = 0 then clPut cl pe (stopOf s k t) (ringBody s k t) u
        else fault { FEv.plain 6 0 (clStation cl) with tgt := some ⟨5, 0, clStation cl, 0⟩ } u)

/-- Answers reach what asked (R67, R76, R108, R109, R142, R225, R226, R231). -/
def Obligations.AnswersToRequests : Prop :=
  (∀ (s0 : State) (d : Deliver) (p : Packet), s0.up 3 = true → let s := rest s0
    let st := if d.data = .uncorrectable ∧ p.len ≠ 0 then stUNCORR else p.status
    let t := taken s d
    let rsp := if p.vn = vnRsp ∧ p.status ≠ stDEFERRED then bumpStat p.dstn p.init 3 1 t else t
    let mgt := bumpStat p.dstn p.init 3 1 t
    let other (q : Pending) (v u : State) : State :=
      let z := latency p.dstn p.init q.sent u
      let lost := d.mem == .uncorrectable
      if q.deferred then v
      else if q.dstn = 12 ∧ p.cmd = 0x20 ∧ st = stOK then
        (if bits (p.units.headD 0) 64 64 = 0 then
          answered p.asker st (bits (p.units.headD 0) 0 64 :: (q.got ++ p.units.tail)) lost z
        else u.updStn p.dstn fun x => { x with pend := x.pend ++ [{ q with got := q.got ++ p.units.tail }] })
      else answered p.asker st p.units lost (if st = stDEFERRED then keepDeferred p.dstn q z else z)
    (∀ k, p.asker = .pe k →
      (arrives s d p 0x20 = true → exec (.rspData d) s0 = .next (peAnswer k p st rsp))
      ∧ (arrives s d p 0x21 = true → exec (.rspAck d) s0 = .next (peAnswer k p st rsp))
      ∧ (arrives s d p 0x22 = true → exec (.defdata d) s0 = .next (peAnswer k p st rsp)))
    ∧ ((∀ k, p.asker ≠ .pe k) → ∀ u, (∀ q, takePend p.dstn p.txn p.asker rsp = (some q, u) →
        (arrives s d p 0x20 = true → exec (.rspData d) s0 = .next (other q rsp u))
        ∧ (arrives s d p 0x21 = true → exec (.rspAck d) s0 = .next (other q rsp u)))
      ∧ (takePend p.dstn p.txn p.asker rsp = (none, u) →
        (arrives s d p 0x20 = true → exec (.rspData d) s0 = .next rsp)
        ∧ (arrives s d p 0x21 = true → exec (.rspAck d) s0 = .next rsp)))
    ∧ (∀ c a reg box q u, p.asker = .corePres c a reg box → arrives s d p 0x22 = true →
      takePend p.dstn p.txn p.asker rsp = (some q, u) →
      exec (.defdata d) s0 = .next (mailbox c box (if st = stOK then p.units.head? else none) u))
    ∧ (p.dstn = 25 → (arrives s d p 0x42 = true → exec (.regdata d) s0 = .next (spanAnswer p mgt))
      ∧ (arrives s d p 0x43 = true → exec (.regack d) s0 = .next (spanAnswer p mgt)))
    ∧ (p.dstn ≠ 25 → (∀ k, p.asker ≠ .pe k) → ∀ q u, takePend p.dstn p.txn p.asker mgt = (some q, u) →
      (arrives s d p 0x42 = true → exec (.regdata d) s0 = .next (other q mgt u))
      ∧ (arrives s d p 0x43 = true → exec (.regack d) s0 = .next (other q mgt u))))
  ∧ (∀ (s : State) (k : Nat) (q : OutReq),
    let ended := s.updPe k fun p => { p with reqs := eraseFirst q p.reqs }
    let x := s.ctx q.ctx
    (∀ status us, let a : Kept := ⟨q, status, answerVal q us⟩
      answerPe k q status us s = if censusAt x (k / 17) then
          countCensus q.ctx (fun c => { c with answ := c.answ + 1 }) ended
        else if x.ctxq then ended.updPe k fun p => { p with kept := p.kept ++ [a] }
        else if status ≠ stOK then
          firingFault k q.firing (if status = stISFULL then 0x0E else if status = stDEFFULL then 0x0F else 0x10)
            (if status = stDEFFULL then q.addr / 2 ^ 20 else bits q.addr 9 16) q.port 0 ended
        else formAnswer k a ended)
    ∧ (∀ (p : Packet) status, (∀ a b c d e, p.body ≠ .window a b c d e) → p.cmd ≠ 0x22 →
      findReq s k p.txn false = some q → status ≠ stDEFERRED →
      peAnswer k p status s = answerPe k q status p.units (latency p.dstn p.init q.sent s))
    ∧ (∀ (n : ReqName), n.pe = some k → s.up 3 = true → findReq s k n.txn false = some q →
      4 * 2 ^ rd s F.rngRsptoExp ≤ 5 * (s.now - q.sent) →
      exec (.rspTimeout n) s = .next (answerPe k q stLOST [] s))
    ∧ (∀ (n : ReqName) (r : Pending), n.pe = none → s.up 3 = true →
      (s.stn n.station).pend.find? (fun y => y.txn == n.txn && !y.deferred && overdue s y.sent) = some r →
      exec (.rspTimeout n) s = .next (answered r.asker stLOST [] false
        (endSpanTxn n.station r (s.updStn n.station fun y => { y with pend := y.pend.filter (· != r) }))))
    ∧ (∀ (n : ReqName) (r : Query), n.pe = some k → s.up 3 = true → findReq s k n.txn false = none →
      (s.pe k).queries.find? (fun y => y.txn == n.txn && overdue s y.sent) = some r →
      exec (.rspTimeout n) s = .next (sendQuery k r.ctx r.loop (s.updPe k fun p => { p with queries := p.queries.erase r }))))

/-- Spill and refill (R118, R122, R125, R126, R127, R128, R129, R131, R133, R136, R141, R146). -/
def Obligations.SpillAndRefill : Prop :=
  (∀ (s : State) (x : SpillOp) (r : Evicted) (rest : List Evicted) (ptr st : Nat) (u : State), s.up 5 = true →
    clRuns s x.cl = true → x.lpe < 16 → let k := peKey s (x.cl * 16 + x.lpe)
    ((s.pe k).evict = r :: rest →
      (allocNear s x.cl = some ptr ∨ (allocNear s x.cl = none ∧ farAllowed s x.cl r.r.ctx = true ∧ allocFar s x.cl = some ptr)) →
      (isFar ptr = true → s.linkState = 1 ∨ s.linkState = 2) →
      splAccess x.cl 0x30 ptr x.status (recUnits (recBytes r x.lpe (endOf (isFar ptr)))) s = some (st, u) →
      (st = stOK → exec (.spwrite x) s = .next (stallWatch x.cl (pumpLoops k (forceSpill k
        (storeRec x.cl x.lpe ptr r (u.updPe k fun p => { p with evict := rest }))))))
      ∧ (st ≠ stOK → exec (.spwrite x) s = .next (spillErr k r.r.ctx 0 0 (x.cl * 16 + x.lpe) 0 (recBank s x.cl ptr) u)))
    ∧ (∀ cl l, (s.cl cl).toFree = ptr :: l → splAccess cl 0x32 ptr stOK [] s = some (st, u) →
      exec (.spfree cl) s = .next (stallWatch cl (freeRec cl ptr (u.updCl cl fun c => { c with toFree := l })))))
  ∧ (∀ (s : State) (x : SpillOp) (q : Parked) (set st : Nat) (isConst : Bool) (v : State), s.up 5 = true → clRuns s x.cl = true →
    x.lpe < 16 → let k := peKey s (x.cl * 16 + x.lpe); let t := q.tok.tag
    (s.pe k).refill.find? (!·.asked) = some q →
    (q.why = .entry set ∧ isConst = false ∨ (∃ e, q.why = .const set e) ∧ isConst = true) →
    let near := chainOf s x.cl x.lpe set false; let far := chainOf s x.cl x.lpe set true
    splAccess x.cl 0x31 (near.headD (far.headD 0)) x.status [] s = some (st, v) →
    let u := v.updPe k fun p => { p with
      refill := p.refill.takeWhile (· != q) ++ [{ q with asked := true }] ++ (p.refill.dropWhile (· != q)).drop 1 }
    let y := answeredOp x st
    let ans (less : Nat) (found : Option Rec) (isF : Bool) (fail : Option (Nat × Nat)) (v : State) : State :=
      queueSpAns k ⟨set, less, true, t.ctx, t.iter, t.ia, isConst, found, isF, fail⟩ v
    (∀ i r, walk s y (Rec.isFor isConst t) 0 0 near = .found i r → exec (.splookup x) s = .next (ans 1 (some r) false none
      ((unlinkAt x.cl x.lpe set false i u).updCl x.cl fun c => { c with toFree := c.toFree ++ [near.getD i 0] })))
    ∧ (∀ i crc, walk s y (Rec.isFor isConst t) 0 0 near = .failed i crc → exec (.splookup x) s = .next
      (ans (near.length - i) none false (if crc then none else some (0x22, recBank u x.cl (near.getD i 0)))
        (cutAt x.cl x.lpe set false i u)))
    ∧ (walk s y (Rec.isFor isConst t) 0 0 near = .absent → far = [] →
      exec (.splookup x) s = .next (ans 0 none false none u))
    ∧ (walk s y (Rec.isFor isConst t) 0 0 near = .absent → far ≠ [] → linkUp s = true →
      ∀ i crc, walk s y (Rec.isFor isConst t) near.length 0 far = .failed i crc → exec (.splookup x) s = .next
        (ans (far.length - i) none true (some (if crc then (0x23, spillDetail x.lpe set) else
            (0x22, recBank u x.cl (far.getD i 0))))
          (cutAt x.cl x.lpe set true i u))))
  ∧ (∀ (s : State) (cl : Nat), s.up 5 = true → clRuns s cl = true →
    (∀ (x : SpillOp) (ptr st : Nat) (l : List Nat) (r : Rec) (v : State), x.cl = cl → x.lpe < 16 → x.which = 0 →
      let k := peKey s (cl * 16 + x.lpe)
      mget [] (s.cl cl).readyChain x.lpe = ptr :: l → isFar ptr = false → (readyList (s.pe k)).length < 64 →
      splAccess cl 0x33 ptr x.status [] s = some (st, v) →
      walk s (answeredOp x st) (fun _ => true) 0 0 (ptr :: l) = .found 0 r → recKind (getRec s cl ptr) = 0 →
      exec (.spread x) s = .next (queueSpAns k ⟨r.set, 1, true, r.ctx, 0, 0, false, some r, false, none⟩
        ((chainErase cl x.lpe false 0 v).updCl cl fun c => { c with toFree := c.toFree ++ [ptr] })))
    ∧ (∀ (x : SpillOp) (ptr dst i : Nat) (v : State), x.cl = cl → x.lpe < 16 → x.which = 2 →
      (usedNear s cl).find? (fun p => drainingRec s cl p && !(s.cl cl).toFree.contains p) = some ptr →
      allocNear s cl = some dst → splAccess cl 0x33 ptr x.status [] s = some (stOK, v) → recBad s cl ptr = false →
      let lpe := recLpe (getRec s cl ptr); let chain := mget [] (s.cl cl).readyChain lpe
      (mget [] (s.cl cl).heldChain lpe).contains ptr = false → chain.findIdx? (· == ptr) = some i →
      exec (.spread x) s = .next (setChain cl lpe false (chain.set i dst) (relinkBefore cl chain i (some dst)
        (freeRec cl ptr (putRec cl dst (getRec s cl ptr) (takeRec cl dst v))))))
    ∧ (∀ (pe : Nat) (a : SpAns) (rest : List SpAns), let k := cl * 17 + pe
      let less := s.updPe k fun p => { p with spAns := rest }
      (nextAns (s.pe k) false = some (a, rest) → exec (.spack cl pe) s = .next (settleAns k a less))
      ∧ (nextAns (s.pe k) true = some (a, rest) → ∀ (reads : Reads),
        (a.found = none → exec (.spdata cl ⟨pe, reads⟩) s = .next
          (stallWatch cl (resume k a reads (ansFault k a (settleAns k a less)))))
        ∧ (∀ x, a.found = some x → (s.ctx x.ctx).state ≠ .free → (s.ctx x.ctx).census = none →
          let u := bumpCtr k (if a.far then 2 else 1) (settleAns k a (count k x.ctx 0 (-1) less))
          (∀ h, x = .held h → exec (.spdata cl ⟨pe, reads⟩) s = .next (sendOut k h u))
          ∧ (∀ e, x = .entry e → exec (.spdata cl ⟨pe, reads⟩) s = .next (
            match insertEntry k { e with order := (u.pe k).stamp } [] true reads u with
            | .ok v => stallWatch cl (resume k a reads (resumeHeld k a reads v))
            | .error c => holdAnswer k a e.set c s)))))
    ∧ (∀ win, (rd s (F.clNsstatDraining cl)).testBit win = true →
      ((usedNear s cl).any fun p => p / 2 ^ 14 == win && drainingRec s cl p) = false →
      exec (.spillDrainDone cl win) s = .next (put (s.updCl cl fun c => { c with oldWin := mdel c.oldWin win })
        (F.clNsstatDraining cl) (rd s (F.clNsstatDraining cl) - 2 ^ win))))

/-- EPOCH_START, EPOCH_DRAINED and EPOCHTO (R234, R235). -/
def Obligations.RouteChangeovers : Prop :=
  ∀ (s : State), s.up 3 = true →
    (epochAgrees s = true → exec .epochStart s = .next (put s F.rngEpochState 1))
    ∧ (epochAgrees s = false → exec .epochStart s = .next (cfgErr 6 s))
    ∧ (rd s F.rngEpochState = 1 → changeoverTick s = { put s F.rngEpochState 2 with epochAt := some s.now })
    ∧ (rd s F.rngEpochState = 3 → changeoverTick s = put s F.rngEpochState 0)
    ∧ (rd s F.rngEpochState = 1 ∨ rd s F.rngEpochState = 2 →
      (∀ p ∈ s.net, p.onRing = true → p.at_ < 26 → p.epoch ≠ rd s F.rngEpochCur) →
      exec .epochDrained s = .next (reinject { put (put (put s F.rngEpochCur (1 - rd s F.rngEpochCur)) F.rngBypassByp
        (rd s F.rngBypnextByp)) F.rngEpochState 3 with epochAt := none }))
    ∧ (rd s F.rngEpochState = 2 → ∀ t, s.epochAt = some t → t + 1600000 ≤ s.now →
      exec .epochto s = .next (event 6 4 0 { s with epochAt := none }))
    ∧ (rd s F.rngEpochState = 2 → ∀ t, s.epochAt = some t → s.now < t + 1600000 → exec .epochto s = .next s)

/-- Training and loss of a span link (R246, R248, R249, R251). -/
def Obligations.SpanLinks : Prop :=
  (∀ (s : State) (p : Nat), s.up 3 = true → p < 4 → let st := rd s (F.spnPortstatState p)
    (rd s (F.spnPortcfgEn p) = 0 → s.locked.contains 0 = true →
      exec (.spanPortEnable p 1) s = .next (put (put s (F.spnPortcfgEn p) 1) (F.spnPortstatState p) 1))
    ∧ (rd s (F.spnPortcfgEn p) = 1 → exec (.spanPortEnable p 0) s = .next (spanDown p (put s (F.spnPortcfgEn p) 0)))
    ∧ (st = 1 → exec (.pmdTrained p) s = .next (put s (F.spnPortstatState p) 2))
    ∧ (st = 2 → exec (.spanAligned p) s = .next (spanSend p (linkUnit 0x74 (identF s p)) (put s (F.spnPortstatState p) 3)))
    ∧ (st = 3 → ∀ f, bits f 0 12 = devnum s →
      exec (.linkIdent p f) s = .next (event 13 1 p (setLive 13 1 true (put s (F.spnPortstatState p) 6))))
    ∧ (st = 3 → ∀ f, bits f 0 12 ≠ devnum s → (s.span p).oldPeer = none →
      exec (.linkIdent p f) s = .next (sendProbe p (put (put (put s (F.spnPortstatPeerdev p) (bits f 0 12))
        (F.spnPortstatPeerport p) (bits f 12 2)) (F.spnPortstatState p) 4)))
    ∧ (st = 3 ∨ st = 5 → exec (.spanIdentTimer p) s = .next (spanSend p (linkUnit 0x74 (identF s p)) s))
    ∧ (st = 5 → exec (.spanProbeTimer p) s = .next (spanSend p (linkUnit 0x72 (s.now % 2 ^ 64)) s))
    ∧ exec (.linkIdle p) s = .next s)
  ∧ (∀ (s : State) (p : Nat), s.up 3 = true → p < 4 → let st := rd s (F.spnPortstatState p)
    let next := if rd s (F.spnPortcfgEn p) = 1 then 1 else 0
    let low := s.updSpan p fun x => { x with samples := [], granted := false, credits := [0, 0, 0, 0] }
    let peer := (rd s (F.spnPortstatPeerdev p), rd s (F.spnPortstatPeerport p), s.now)
    (∀ row, row = Instr.codewordLockLoss p ∨ row = .spanLos p →
      (1 ≤ st → st < 5 → exec row s = .next (put low (F.spnPortstatState p) next))
      ∧ (st = 5 → exec row s = .next (event 13 0 p (linkLive
        ((put low (F.spnPortstatState p) next).updSpan p fun x => { x with oldPeer := some peer })))))
    ∧ (st ≠ 5 → ∀ d q t, (s.span p).oldPeer = some (d, q, t) → t + 160000000 ≤ s.now →
      exec (.spanRetrainTimeout p) s = .next (event 13 2 p (putSat (linkLive (s.setSpan p { s.span p with
        replay := [], txPart := [], rxPart := [], txSeq := 0, rxSeq := 0, nakOwed := false, oldPeer := none }))
        (F.spnPorterrLost p) (s.span p).replay.length))))

/-- Units and codewords of a span link (R244, R245, R246, R247, R249, R253). -/
def Obligations.SpanUnits : Prop :=
  (∀ (s : State) (p : Nat), s.up 3 = true → p < 4 → let st := rd s (F.spnPortstatState p)
    (st = 5 → ∀ f, exec (.credit p f) s = .next (drainRemotes (spanFlush p (s.updSpan p fun x => { x with
      credits := (List.range 4).map (fun i => x.credits.getD i 0 + bits f (16 * i) 16), granted := true }))))
    ∧ (3 ≤ st → ∀ f hold, exec (.probe p f hold) s = .next (spanSend p (linkUnit 0x73 (f % 2 ^ 64 + hold % 2 ^ 16 * 2 ^ 64)) s))
    ∧ (st = 5 → ∀ f, let all := (s.span p).samples ++ [s.now - f % 2 ^ 64 - bits f 64 16]
      let last := all.drop (all.length - 16)
      exec (.echo p f) s = .next (put (s.setSpan p { s.span p with samples := last }) (F.spnPortlatPs p)
        (last.sum * 625 / (2 * last.length)))))
  ∧ (∀ (s : State) (p : Nat) (c : Codeword), s.up 3 = true → p < 4 → 3 ≤ rd s (F.spnPortstatState p) →
    let bad := c.good = false ∨ (40 ≤ c.fho ∧ c.fho ≤ 62)
    let null (nak : Bool) (v : State) := emitOut (.span p (message 0 (((v.span p).rxSeq + 63) % 64) 63 nak true [])) v
    (bad → exec (.codeword p c) s = .next (null true (s.updSpan p fun x => { x with nakOwed := true })))
    ∧ (¬ bad → let s1 := if c.corrected then putSat s (F.spnPorterrCorr p) 1 else s
      let acked := s1.updSpan p fun x => { x with
        replay := x.replay.filter fun e => (x.txSeq + 64 - e.1 % 64) % 64 < (x.txSeq + 64 - c.ack % 64) % 64 }
      let u := if c.nak then nakEff p acked else acked
      let x := u.span p
      (c.isNull = true → exec (.codeword p c) s = .next (drainRemotes (spanFlush p u)))
      ∧ (c.isNull = false → c.seq = x.rxSeq →
        let got := gatherUnits x.rxPart (if x.rxPart = [] then c.units.drop c.fho else c.units)
        let v := forAll got.1 (cwPacket p)
          (u.setSpan p { x with rxSeq := (x.rxSeq + 1) % 64, nakOwed := false, rxPart := got.2 })
        exec (.codeword p c) s = .next (drainRemotes (spanFlush p (null (v.span p).nakOwed v))))
      ∧ (c.isNull = false → c.seq ≠ x.rxSeq → (x.rxSeq + 64 - c.seq % 64) % 64 ≤ 32 →
        exec (.codeword p c) s = .next (drainRemotes (spanFlush p u)))
      ∧ (c.isNull = false → c.seq ≠ x.rxSeq → 32 < (x.rxSeq + 64 - c.seq % 64) % 64 →
        exec (.codeword p c) s = .next (drainRemotes (spanFlush p (null true
          (u.setSpan p { x with nakOwed := true })))))))

/-- Phase counters and their holding copies (R150, R151, R154, R163). -/
def Obligations.PhaseCounters : Prop :=
  (∀ (s : State) (tri te n : Nat) (a b : Bool), s.up 3 = true →
    let a0 := mget 0 s.inputs (tri * 4) == 1; let b0 := mget 0 s.inputs (tri * 4 + 1) == 1
    let inv := rdB s (F.phSrccfgDirinv n)
    let held (u : State) : State := { u with inputs := mset 0 (mset 0 u.inputs (tri * 4) (bit a)) (tri * 4 + 1) (bit b) }
    (sourcesOn s tri [5] = [n] → exec (.mainsEdge tri te) s = .next (countStep n false te s))
    ∧ (sourcesOn s tri [1, 2, 3] = [n] →
      (srcType s n = 2 → exec (.countEvent tri a b te) s = .next (held (if a && !a0 then countStep n inv te s else s)))
      ∧ (srcType s n = 3 →
        exec (.countEvent tri a b te) s = .next (held (if a && !a0 then countStep n (b == inv) te s else s)))
      ∧ (srcType s n = 1 → exec (.countEvent tri a b te) s = .next (held (
          if a ≠ a0 ∧ b ≠ b0 then event 3 4 n (put s (F.phSrcstatGlitched n) 1)
          else if a = a0 ∧ b = b0 then s
          else countStep n (((a == a0) == (a0 == b0)) != inv) te s)))))
  ∧ (∀ (turns : Int) (k cpt : Nat) (rev : Bool), k < cpt →
    (nextCount turns k cpt rev).1 * cpt + (nextCount turns k cpt rev).2 = turns * cpt + k + (if rev then -1 else 1)
    ∧ (nextCount turns k cpt rev).2 < cpt
    ∧ turns * 2 ^ 32 ≤ posOf turns k cpt ∧ posOf turns k cpt < (turns + 1) * 2 ^ 32
    ∧ (posOf turns k cpt - turns * 2 ^ 32) * cpt ≤ k * 2 ^ 32
    ∧ k * 2 ^ 32 < (posOf turns k cpt - turns * 2 ^ 32 + 1) * cpt)
  ∧ (∀ (s : State) (n : Nat), s.up 3 = true → let b := s.phNow.getD n .init; let x := s.ph n
    exec (.phSrcPhloRead n) s = .next { s with
      held := mset 0 (mset 0 (mset 0 (mset 0 s.held (n * 4) (b.pb / 2 ^ 32)) (n * 4 + 1) (b.v % 2 ^ 32)) (n * 4 + 2)
        (b.v / 2 ^ 32)) (n * 4 + 3)
        (pubState s 17 n + 16 * bit (pubRev s 17 n) + 32 * bit x.switched + 64 * bit x.homed) })

/-- NOON marks, phase frames and what happens without them (R157, R158, R160, R161, R174, R177, R178, R250, R253). -/
def Obligations.NoonMarksAndFrames : Prop :=
  (∀ (s : State) (tri te n : Nat), s.up 3 = true → sourcesOn s tri [1, 2, 3] = [n] →
    let x := s.ph n; let cpt := rd s (F.phSrccptCptm1 n) + 1; let mode := rd s (F.phSrccfgNoonmode n)
    let d : Int := if 2 * x.k ≤ cpt then x.k else (x.k : Int) - cpt
    let u := put s (F.phSrcnoonerrErr n) (wrap 32 d)
    let v := if rd s (F.phSrcnoonNoontol n) < d.natAbs then event 3 3 n u else u
    (mode = 0 → exec (.noonMark tri te) s = .next s)
    ∧ (mode ≠ 0 → x.homed = false →
      exec (.noonMark tri te) s = .next (put (s.setPh n (home te x cpt)) (F.phSrcstatHomed n) 1))
    ∧ (x.homed = true → (mode = 1 → exec (.noonMark tri te) s = .next s)
      ∧ (mode = 2 → exec (.noonMark tri te) s = .next v)
      ∧ (mode = 3 → exec (.noonMark tri te) s = .next (v.setPh n (noonCorrect x cpt)))))
  ∧ (∀ (s : State) (n : Nat), s.up 3 = true → n < 16 → hasEvents (srcType s n) = true → let x := s.ph n
    (x.state = 2 → x.lastEvent + edgeTimeout s n ≤ s.now → let u := s.setPh n { x with sinceTimeout := 0 }
      let coast (v : State) : State := v.updPh n fun y => { y with state := 3, coastAt := v.now }
      (x.switched = true → exec (.edgeTimeout n) s = .next (withStates coast u))
      ∧ (x.switched = false → altLocked u n = true →
        exec (.edgeTimeout n) s = .next (withStates (fun v => switchAlt n (coast v)) u))
      ∧ (x.switched = false → altLocked u n = false → exec (.edgeTimeout n) s = .next (withStates
        (if rd s (F.phSrctimeHorizon n) = 0 then fun v => v.updPh n stallSrc else coast) u)))
    ∧ (x.state = 3 → x.switched = false → x.coastAt + usEtu (rd s (F.phSrctimeHorizon n)) ≤ s.now →
      exec (.horizonExpire n) s = .next (withStates
        (if altLocked s n then switchAlt n else fun v => v.updPh n stallSrc) s)))
  ∧ (∀ (s : State), s.up 3 = true →
    (s.now - s.exportAt < 8 * rd s F.phExportInt → exec .phaseExport s = .next s)
    ∧ (8 * rd s F.phExportInt ≤ s.now - s.exportAt → exec .phaseExport s = .next (forAll
      ((List.range 16).filter fun n => (rd s F.phExportEn).testBit n)
      (fun n u => forAll ((List.range 4).filter fun p => rd u (F.spnPortstatState p) == 5)
        (fun p => spanSend p (phframePacket (phframeF (devnum u) n (u.bs (18 * 16 + n)).status 0 0)
          ((u.bs (18 * 16 + n)).pb + (u.bs (18 * 16 + n)).v * 2 ^ 64))) u) { s with exportAt := s.now }))
    ∧ ∀ (port f data : Nat), port < 4 → rd s (F.spnPortstatState port) = 5 →
      let mine := (List.range 16).filter fun n => srcType s n == 7 && rd s (F.phSrcauxAux n) % 2 ^ 16 == bits f 0 16
      let u := withStates (forAll mine (frameAt port f data)) s
      exec (.phframe port f data) s = .next (if mine.any (fun n => (rd s F.phExportEn).testBit n) ∧ bits f 20 4 < 8 then
          sendFrame port (phframeF (bits f 0 12) (bits f 12 4) (bits f 16 4) (bits f 20 4 + 1)
            (bits f 24 32 + rd s (F.spnPortlatPs port))) data u
        else u))

/-- Converter ports and capture rings (R182, R185, R186, R188, R189, R190, R196, R197, R198, R199, R218, R423). -/
def Obligations.ConverterPorts : Prop :=
  (∀ (s : State), s.up 3 = true → let here := (rd s F.clkRefstatPresent).testBit 2
    (here = true → rd s F.cnvPllcfgPllmul ≠ 0 → exec .cnvPllLock s = .next
      (setLive 4 0 false (clockBit 6 true (put s F.cnvPllcfgLock 1))))
    ∧ (rd s F.cnvPllcfgLock = 1 → exec .cnvPllunlock s = .next
      (condition 4 0 0 (clockBit 6 false (put s F.cnvPllcfgLock 0))))
    ∧ (here = true → exec .cmclkloss s = .next
      (condition 4 1 0 (put s F.clkRefstatPresent (rd s F.clkRefstatPresent - 4))))
    ∧ exec .cmclkRestored s = .next (setLive 4 1 false (put s F.clkRefstatPresent (rd s F.clkRefstatPresent ||| 4))))
  ∧ (∀ (s : State) (n : Nat), s.up 3 = true → n < 32 → rd s (F.cnvPortcfgEn n) = 1 →
    (∀ te : Nat, rd s F.cnvPllcfgLock = 1 → let u := applyFrame n (closeOldest n s); let src := rd u (F.cnvPortcfgSrc n)
      let at_ : Int := (te : Int) + signed 16 (rd u (F.cnvPorttimeStampofs n)); let seq := (u.port n).ostbs % 2 ^ 22
      exec (.ostb n te) s = .next (put (u.setPort n { u.port n with
        ostbs := (u.port n).ostbs + 1,
        strobes := (u.port n).strobes ++ [⟨seq, src, (stampAt u src at_).1, (stampAt u src at_).2, at_, none, false⟩] })
        (F.cnvPortstatSeq n) seq))
    ∧ (exec (.frameMissing n) s = .next (closeOldest n s))
    ∧ (∀ l0 l1 a, inHeader l0 = some a → inHeader l1 = some a → let u := closeOldest n s; let p := u.port n
      let cpl := rd u (F.cnvPortcfgCpl n); let good := laneCrcOk cpl l0 = true ∧ laneCrcOk cpl l1 = true
      (p.strobes.find? (fun q => q.seq % 256 == a) = none → exec (.inputFrame n l0 l1) s = .next u)
      ∧ ∀ q, p.strobes.find? (fun q => q.seq % 256 == a) = some q →
        (q.got ≠ none → exec (.inputFrame n l0 l1) s = .next (putSat u (F.cnvPortcntDupl n) 1))
        ∧ (q.got = none → ¬ good → exec (.inputFrame n l0 l1) s = .next (event 4 3 n (putSat u (F.cnvPortcntCrcerr n) 1)))
        ∧ (q.got = none → good →
          let mf := (l0.headD 0).testBit 0 || (l1.headD 0).testBit 0
          let ss := p.strobes.map fun y => if y.seq = q.seq then { q with got := some (laneWords cpl l0 l1, mf) } else y
          exec (.inputFrame n l0 l1) s = .next (settlePort n ss (u.setPort n { p with strobes := ss })))))
  ∧ (∀ (s : State), s.up 3 = true →
    (∀ r, r < 64 → let st := rd s (F.cnvCapstatState r); let x := s.ring r
      let now := s.bs (256 + rd s (F.cnvPortcfgSrc (rd s (F.cnvCapchFirst r) / 32)))
      (2 ≤ st → st ≤ 5 → exec (.capArm r) s = .next (put (put (put (s.setRing r { x with
          since := if rd s (F.cnvCapcfgMarksel r) = 1 then min (rd s (F.cnvCapprePre r)) x.avail else 0,
          trigPh := rd s (F.cnvCaptphloTrigph r) + rd s (F.cnvCaptphhiTrigph r) * 2 ^ 32, armRev := now.status.testBit 3 })
        (F.cnvCapstatState r) 3) (F.cnvCapstatMarkvalid r) 1) (F.cnvCapstatHistshort r) 0))
      ∧ exec (.capTrig r) s = .next (s.setRing r { x with swTrig := true })
      ∧ (3 ≤ st → st ≤ 5 → exec (.capStop r) s = .next (put s (F.cnvCapstatState r) 2)))
    ∧ ∀ (d : Deliver) (p : Packet), arrives (rest s) d p 0x1B = true → let t := taken (rest s) d
      let r := bits p.addr 0 8; let first := bits p.addr 8 32; let n := bits p.addr 40 24; let size := rd t (F.cnvCapsizeSize r)
      let bank := rd t (F.cnvCapcfgBank r); let len := capLen (ringNch t r) / 8
      let at_ (i : Nat) := capAddr t r ((first + i) % size)
      ((t.stn 12).pend.any (·.asker == .ring r)) = false →
      ((64 ≤ r ∨ rd t (F.cnvCapcfgEn r) ≠ 1 ∨ size = 0) → exec (.ringrd d) s = .next (reply p 0x21 stNOTARGET [] t))
      ∧ (r < 64 → rd t (F.cnvCapcfgEn r) = 1 → size ≠ 0 →
        (n ≠ 0 → ownerAccepts (rd t (F.sbOwnerOwner bank)) 0x59 false = false →
          capAddr t r (first % size) / 2 ^ 20 = bank →
          exec (.ringrd d) s = .next (reply p 0x21 stREFUSED [] (event 8 2 bank t)))
        ∧ ((∀ i < n, at_ i / 2 ^ 20 = bank) → ownerAccepts (rd t (F.sbOwnerOwner bank)) 0x59 false = true →
          (n ≠ 0 → rdB t (F.sbOwnerFence bank) = true → exec (.ringrd d) s = .next (reply p 0x21 stREFUSED [] t))
          ∧ (rdB t (F.sbOwnerFence bank) = false →
            (d.mem = .ok → (∀ i < n, ∀ j < len, scrBad t (at_ i + 8 * j) = false) →
              exec (.ringrd d) s = .next (ringAnswer p (rd t (F.cnvCaptotalTotal r)) (pairUnits ((List.range n).flatMap fun i =>
                (List.range len).map fun j => scrGet t (at_ i + 8 * j))) t))
            ∧ (∀ ws u, ringRecords r first d.word d.mem n t = (some (ws, true), u) →
              exec (.ringrd d) s = .next (reply p 0x21 stUNCORR [] u))))))

/-- Drive outputs (R184, R187, R201, R203, R204, R206, R207, R210, R211, R215, R218, R416). -/
def Obligations.DriveOutputs : Prop :=
  (∀ (s : State), s.up 3 = true →
    (∀ (d : Deliver) (p : Packet), arrives (rest s) d p 0x03 = true → let t := taken (rest s) d
      let ctx := bits p.f 8 14; let c := bits p.f 0 8; let e := (t.ctx ctx).d
      let idx := (c + 256 - e.drvfirst % 256) % 256; let st := rd t (F.drvChstatState c)
      let ty := if d.data = .uncorrectable then tyPoison else bits p.f 64 4; let v := drvCode ty (p.units.headD 0) t
      let bound := idx < e.drvcount ∧ rd t (F.drvChcfgEn c) = 1
      (¬ bound → exec (.drvval d) s = .next (cnvFault ctx 0x44 0 idx t))
      ∧ (bound → (rd t (F.drvChcfgQunits c) * 128 ≤ (t.chan c).q.length →
          exec (.drvval d) s = .next (cnvFault ctx 0x46 0 c t))
        ∧ ((t.chan c).q.length < rd t (F.drvChcfgQunits c) * 128 →
          (st = 2 ∨ st = 3 → exec (.drvval d) s = .next (putSat t (F.drvChstatDiscards c) 1))
          ∧ (st ≠ 2 → st ≠ 3 → let u := setChQ c ((t.chan c).q ++ [v.1]) v.2.2
            exec (.drvval d) s = .next (if v.2.1 then cnvFault ctx 0x45 ty c u else u)))))
    ∧ ∀ (n te : Nat), n < 32 → rd s (F.cnvPortcfgEn n) = 1 → rd s F.cnvPllcfgLock = 1 →
      let dues := (List.range 16).map fun sc => schedDue s sc n te
      let u := (chansClose dues ((List.range 8).map (8 * n + ·)) (countUpdates n te dues s)).1
      let words := (chansClose dues ((List.range 8).map (8 * n + ·)) (countUpdates n te dues s)).2
      let quiet := rdB u F.genQuiesceDone; let ws := if quiet then words.map fun _ => 0 else words
      let any (v : Nat) : Bool := (List.range 8).any fun i => rd u (F.drvChstatState (8 * n + i)) == v
      let lane := outLane (rd s (F.cnvPortcfgFlen n)) (u.port n).ostbs (bit (any 1) + 2 * bit (any 2) + 4 * bit quiet)
      let opl := rd s (F.cnvPortcfgOpl n)
      exec (.outputFrameClose n te) s = .next (emitOut (.frame n (lane (ws.take opl)) (lane ((ws.drop 4).take opl))) u))
  ∧ (∀ (s : State), s.up 3 = true →
    (s.activeCauses.contains 2 = false → exec .abortInPin s = .next
      (abortBy 2 (fun _ => true) { s with activeCauses := s.activeCauses ++ [2] }))
    ∧ (s.activeCauses.contains 2 = true → exec .abortInPin s = .next s)
    ∧ (exec .abortInPinHigh s = .next { s with activeCauses := s.activeCauses.filter (· != 2) })
    ∧ (rd s F.drvSafecfgHben = 1 → exec .heartbeatWrite s = .next { s with heartbeatAt := some s.now })
    ∧ (rd s F.drvSafecfgHben ≠ 1 → exec .heartbeatWrite s = .next s)
    ∧ (∀ t, s.heartbeatAt = some t → t + 1600000 * rd s F.drvSafecfgHbto ≤ s.now → exec .heartbeatExpire s = .next
      (event 5 1 0 (abortBy 3 (fun _ => true) { s with heartbeatAt := none })))
    ∧ (s.activeCauses.contains 4 = false → exec .supplyMarginLost s = .next
      (condition 1 1 0 (abortBy 4 (fun _ => true) { s with activeCauses := s.activeCauses ++ [4] })))
    ∧ (exec .supplyMarginRestored s = .next (setLive 1 1 false { s with activeCauses := s.activeCauses.filter (· != 4) }))
    ∧ (∀ v, rd s F.drvAbortstatCause < 2 ^ 7 → rd s F.drvAbortstatStall < 2 ^ 16 →
      ∃ t, exec (.abortCauseClear v) s = .next t
        ∧ (∀ b, b < 7 → (rd t F.drvAbortstatCause).testBit b =
            ((rd s F.drvAbortstatCause).testBit b && !(v.testBit b && !causeActive s b)))
        ∧ (∀ u, u < 16 → (rd t F.drvAbortstatStall).testBit u =
            ((rd s F.drvAbortstatStall).testBit u && !(v.testBit (16 + u) && !stallActive s u))))
    ∧ (∀ c, c < 256 → (rd s (F.drvChstatState c) = 3 → scopeClear s c = true →
        exec (.drvRecover c) s = .next (put s (F.drvChstatState c) 0))
      ∧ (rd s (F.drvChstatState c) ≠ 3 ∨ scopeClear s c = false → exec (.drvRecover c) s = .next s)))
  ∧ (∀ (s : State) (m : Nat), s.up 3 = true → let gs := (List.range 8).filter m.testBit
    let may (g : Nat) : Bool := rd s F.genQuiesceDone != 1 && !wideSet s
      && (grpChans s g).all fun c => rd s (F.drvChstatState c) == 0 || rd s (F.drvChstatState c) == 1
    let ok := gs.filter may
    let on := { put s F.drvEnableAsserted (rd s F.drvEnableAsserted ||| ok.foldl (fun a g => a + 2 ^ g) 0) with
      offPending := s.offPending.filter fun g => !ok.contains g }
    let ramping := runChans s fun c => gs.contains (rd s (F.drvChcfgGrp c))
    let low := forAll ramping enterRamp s
    let off := releaseGroups { low with offPending := low.offPending ++
      (gs.filter fun g => (rd s F.drvEnableAsserted).testBit g && !s.offPending.contains g) }
    (gs.all may = true → exec (.drvOn m) s = .next on)
    ∧ (gs.all may = false → exec (.drvOn m) s = .next (cfgErr 5 on))
    ∧ (ramping = [] → exec (.drvOff m) s = .next off)
    ∧ (ramping ≠ [] → exec (.drvOff m) s = .next (event 5 0 7 off)))

/-- A COMMIT is refused as a whole or applied as a whole, and every COMMIT completes (R10, R12, R32, R125, R130, R131,
R164, R210, R216, R248, R254, R377). -/
def Obligations.CommitsAreWhole : Prop :=
  ∀ (s : State),
    (keysRise s.regs = true → keysRise s.shadow = true → ∀ b < 34, let t := commitOk s b
      (∀ o < 0x10000, ∀ r ix, findReg b o = some (r, ix) → ∀ fd ∈ r.fields, let f := fldAt b o ix fd
        rd t f = rdSh s f ∧ rdSh t f = rdSh s f)
      ∧ t.locked.contains b = true ∧ t.mem = s.mem ∧ t.ctxs = s.ctxs ∧ t.pes = s.pes ∧ t.sessions = s.sessions)
    ∧ (s.up 3 = true →
      exec .genCommit s = .next (forAll ((List.range 4).filter fun p =>
          decide (rd s (F.spnPortcfgEn p) = 1 ∧ rd s (F.spnPortstatState p) = 0))
        (fun p u => put u (F.spnPortstatState p) 1) (commitOk s 0))
      ∧ ((List.range 16).all (phAgrees s) = false → exec .phCommit s = .next (cfgErr 3 (dropShadow s 3)))
      ∧ ((List.range 16).all (phAgrees s) = true → let rs := (List.range 16).filter (restarts s)
        let u := withStates (fun u => forAll rs restartSrc (commitOk u 3)) s
        exec .phCommit s = .next (forAll ((List.range 16).filter fun m => rs.any fun n => follows u n 17 m)
          (fun m v => drvStall m (stallPolicy m v)) u))
      ∧ (cnvAgrees s = false → exec .cnvCommit s = .next (cfgErr 4 (dropShadow s 4)))
      ∧ (cnvAgrees s = true → let on := (List.range 64).filter fun r => decide (rd s (F.cnvCapcfgEn r) = 1)
        let u := commitOk (forAll ((List.range 32).filter (portRetimed s)) endFraming s) 4
        let v := if rdSh s F.cnvPllcfgPllmul = rd s F.cnvPllcfgPllmul then u else put u F.cnvPllcfgLock 0
        let w := forAll ((List.range 32).filter fun n => decide (rdSh s (F.cnvPortcfgEn n) ≠ rd s (F.cnvPortcfgEn n)))
          (fun n u => put ((clearSent n u).setPort n .init) (F.cnvPortstatSync n) 0) v
        exec .cnvCommit s = .next (syncLive (forAll (List.range 64) (ringCommit on) w)))
      ∧ (drvAgrees s = false → exec .drvCommit s = .next (cfgErr 5 (dropShadow s 5)))
      ∧ (drvAgrees s = true → let fresh (n : Nat) : Bool := decide (rdSh s (F.drvSchedcfgEn n) = 1
            ∧ (rd s (F.drvSchedcfgEn n) ≠ 1 ∨ rdSh s (F.drvSchedcfgMode n) ≠ rd s (F.drvSchedcfgMode n)))
        let u := forAll ((List.range 16).filter fresh) (fun n u =>
          { u with schedU := mset 0 u.schedU n 0, schedAt := mset 0 u.schedAt n 0 }) (commitOk s 5)
        let t := releaseGroups (forAll (List.range 256) shrinkQ u)
        exec .drvCommit s = .next t ∧ ∀ c < 256, (t.chan c).q = (s.chan c).q.take (rd t (F.drvChcfgQunits c) * 128))
      ∧ (hifRefused s = true → exec .hifCommit s = .next (cfgErr 10 (dropShadow s 10)))
      ∧ (hifRefused s = false → let u := commitOk s 10; let en := rd u F.hifAdmcfgEn = 1; let was := rd s F.hifAdmcfgEn = 1
        let sq := rd u F.hifAdmsqloAddr + rd u F.hifAdmsqhiAddr * 2 ^ 32
        let cq := rd u F.hifAdmcqloAddr + rd u F.hifAdmcqhiAddr * 2 ^ 32
        let adm := { Sess.init with
          st := .active, sqBase := sq, cqBase := cq, sqLog := rd u F.hifAdmcfgSqlog, cqLog := rd u F.hifAdmcfgCqlog,
          vec := rd u F.hifAdmcfgVec, rot := 15 }
        (en → ¬ was → exec .hifCommit s = .next (put (u.setSess 0 adm) F.hifStatusAdmen 1))
        ∧ (¬ en → was → exec .hifCommit s = .next (put (u.setSess 0 .init) F.hifStatusAdmen 0))
        ∧ ((en ↔ was) → exec .hifCommit s = .next (u.setSess 0 { u.sess 0 with vec := rd u F.hifAdmcfgVec })))
      ∧ (let bad := rd s F.logStateState = 2 ∨ rd s F.logStateState = 3 ∨ eventRingTwice s = true ∨ eventDecimates s = true
        (bad → exec .logCommit s = .next (cfgErr 12 (dropShadow s 12))) ∧ (¬ bad → exec .logCommit s = .next (commitOk s 12)))
      ∧ ((List.range 4096).all (routeAgrees s) = false → exec .spnCommit s = .next (cfgErr 13 (dropShadow s 13)))
      ∧ ((List.range 4096).all (routeAgrees s) = true → exec .spnCommit s = .next (commitOk s 13)))
    ∧ (s.up 5 = true → ∀ cl, cl < 16 →
      (clRefused s cl = true → exec (.clCommit cl) s = .next (cfgErr (17 + cl) (dropShadow s (17 + cl))))
      ∧ (clRefused s cl = false → let u := forAll (List.range 8) (fun w => drainWin cl w (nearWin rd s cl w)) (commitOk s (17 + cl))
        let v := newFarRegion cl (farRegion rd s cl) (clearDirectory cl (nearWin rd s cl 0) u)
        exec (.clCommit cl) s = .next (if oppoint v cl = oppoint s cl then v else startOppoint cl v)))

/-- FLTFORCE and FLTHISTPOP (R379, R383, R385, R389). -/
def Obligations.ForcedFaults : Prop :=
  ∀ (s : State) (b : Nat),
    (s.up 3 = true → ∀ mask, let i := rd s (F.fltforceinstInst b)
      exec (.fltforce b mask) s = .next (forAll ((List.range 32).filter fun k => mask.testBit k && hasSrc b k)
        (fun k u => fault { blk := b, src := k, inst := rd u (F.fltforceinstInst b), ctx := none, detail := 0, forced := true,
                            cause := k == 5 && (b == 4 || (17 ≤ b && b ≤ 32)), firing := false,
                            tgt := forcedTarget b k (rd u (F.fltforceinstInst b)) } u) s)
      ∧ (∀ k, k < 32 → mask = 2 ^ k → hasSrc b k = true → exec (.fltforce b mask) s = .next (fault { FEv.plain b k i with
            forced := true, cause := k == 5 && (b == 4 || (17 ≤ b && b ≤ 32)), tgt := forcedTarget b k i } s))
      ∧ (∀ k, k < 32 → mask = 2 ^ k → hasSrc b k = false → exec (.fltforce b mask) s = .next s))
    ∧ (s.up 3 = true → b < 34 → ∃ t, exec (.flthistpop b) s = .next t
      ∧ mget [] t.flt b = (mget [] s.flt b).drop 1 ∧ (∀ c, c ≠ b → mget [] t.flt c = mget [] s.flt c)
      ∧ rd t (F.flthiststatDepth b) = ((mget [] s.flt b).length - 1) % 16
      ∧ (∀ k, k ≠ (F.flthiststatDepth b).key → ∀ v, mget v t.regs k = mget v s.regs k)
      ∧ t.mem = s.mem ∧ t.ctxs = s.ctxs ∧ t.shadow = s.shadow)
    ∧ (∀ w, (mget [] s.flt b = [] → histWord s b w = 0)
      ∧ ∀ h l, mget [] s.flt b = h :: l → histWord s b 0 % 32 = h.source % 32 ∧ histWord s b 0 / 2 ^ 5 % 64 = h.inst % 64
        ∧ (histWord s b 0).testBit 11 = h.forced ∧ (histWord s b 0).testBit 12 = h.persist
        ∧ histWord s b 0 / 2 ^ 13 % 8 = h.react % 8 ∧ (histWord s b 0).testBit 16 = h.fallback
        ∧ histWord s b 2 = h.detail % 2 ^ 32 ∧ histWord s b 3 = h.detail / 2 ^ 32 % 2 ^ 32
        ∧ histWord s b 4 = h.phase % 2 ^ 32 ∧ histWord s b 6 = h.tick % 2 ^ 32)

/-- The store window of a cluster (R114, R456, R458, R459). -/
def Obligations.StoreWindow : Prop :=
  ∀ (s : State) (init n : Nat), s.up 5 = true → n < 16 →
    let sp := rd s (F.clSwaddrSpace n); let i := rd s (F.clSwaddrIndex n); let k := n * 17 + rd s (F.clSwaddrPpe n)
    let stop (e : Nat) : State := put (put s (F.clSwctlBusy n) 1) (F.clSwctlErr n) e
    exec (.swOpDone n) s = .next (put s (F.clSwctlBusy n) 0)
    ∧ (writeAccepted s init (0x200904 + 0x10000 * n) = false →
      exec (.swRead init n) s = .next s ∧ exec (.swWrite init n) s = .next s)
    ∧ (writeAccepted s init (0x200904 + 0x10000 * n) = true → rd s (F.clSwctlBusy n) = 1 →
      exec (.swRead init n) s = .next (cfgErr (17 + n) s) ∧ exec (.swWrite init n) s = .next (cfgErr (17 + n) s))
    ∧ (writeAccepted s init (0x200904 + 0x10000 * n) = true → rd s (F.clSwctlBusy n) ≠ 1 →
      (sp < 2 → swBarred s n = true → exec (.swRead init n) s = .next (stop 2))
      ∧ (swBarred s n = false → ∃ t, exec (.swRead init n) s = .next t ∧ rd t (F.clSwctlBusy n) = 1 ∧ rd t (F.clSwctlErr n) = 0
        ∧ (∀ j, j < swWords sp → rd t (F.clSwdataData n j) = swItem s n / 2 ^ (32 * j) % 2 ^ 32)
        ∧ (∀ j, swWords sp ≤ j → j < 16 → rd t (F.clSwdataData n j) = rd s (F.clSwdataData n j))
        ∧ t.pes = s.pes ∧ t.ctxs = s.ctxs ∧ t.gateTable = s.gateTable ∧ t.mem = s.mem)
      ∧ (sp = 1 ∨ sp = 2 → exec (.swWrite init n) s = .next (stop 1))
      ∧ (sp = 0 → swBarred s n = true → exec (.swWrite init n) s = .next (stop 2))
      ∧ (sp = 0 → swBarred s n = false → ∃ t, exec (.swWrite init n) s = .next t ∧ rd t (F.clSwctlBusy n) = 1
        ∧ rd t (F.clSwctlErr n) = 0 ∧ mget 0 (t.pe k).imem i = swData s n % 2 ^ 128
        ∧ (∀ a, a ≠ i → mget 0 (t.pe k).imem a = mget 0 (s.pe k).imem a)
        ∧ (t.pe k).store = (s.pe k).store ∧ (∀ j, j ≠ k → t.pe j = s.pe j) ∧ t.gateTable = s.gateTable ∧ t.mem = s.mem)
      ∧ (sp = 3 → gateReserved (swData s n % 2 ^ 64) = true → exec (.swWrite init n) s = .next (stop 4))
      ∧ (sp = 3 → gateReserved (swData s n % 2 ^ 64) = false → ∃ t, exec (.swWrite init n) s = .next t
        ∧ rd t (F.clSwctlErr n) = 0 ∧ mget 0 t.gateTable (n * 256 + i) = swData s n % 2 ^ 64
        ∧ (∀ a, a ≠ n * 256 + i → mget 0 t.gateTable a = mget 0 s.gateTable a) ∧ t.pes = s.pes ∧ t.mem = s.mem))

/-- Every session command: its column, its zero fields, its turn (R316, R320, R326, R327, R329). -/
def Obligations.SessionCommandChecks : Prop :=
  ∀ (s : State) (r : Run) (c : Cmd), s.up 6 = true → EachSessionRow fun row opc cls buf m =>
    (turn s r opc c = true → outside s r cls = true → exec (row r) s = .next (finishCmd c scNOTPERMITTED 0 0 0 (begun c s)))
    ∧ (∀ o, turn s r opc c = true → outside s r cls = false → badField c.e buf m = some o →
      exec (row r) s = .next (finishCmd c scINVFIELD o 0 0 (begun c s)))
    ∧ ((s.sess r.sess).st ≠ .active → exec (row r) s = .next s)
    ∧ (∀ e, nextCmd (s.sess r.sess) = some e → e.e.opc ≠ opc → exec (row r) s = .next s)
    ∧ (nextCmd (s.sess r.sess) = none → exec (row r) s = .next s)

/-- Doorbells, and entries of the completion ring (R318, R319, R320, R321, R322, R324, R327, R329). -/
def Obligations.DoorbellsAndCompletions : Prop :=
  (∀ (s : State), s.up 3 = true →
    (∀ n val : Nat, let x := s.sess n; let v := val % 2 ^ 16
      (x.st ≠ .active → (∀ row ∈ [Instr.sqtailWrite n val, .cqheadWrite n val, .evheadWrite n val],
        exec row s = .next (putSat s F.hifDbdropCount 1)))
      ∧ (x.st = .active →
        (2 ^ x.sqLog ≤ v → exec (.sqtailWrite n val) s = .next (sessError n s))
        ∧ (v < 2 ^ x.sqLog → exec (.sqtailWrite n val) s = .next
          (raiseIrq (if n = 0 then 34 else 35) (s.setSess n { x with sqTail := v })))
        ∧ (2 ^ x.cqLog ≤ v → exec (.cqheadWrite n val) s = .next (sessError n s))
        ∧ (v < 2 ^ x.cqLog → exec (.cqheadWrite n val) s = .next (drainHeld n x.held (s.setSess n { x with cqHead := v })))
        ∧ (x.evLog = 0 ∨ 2 ^ x.evLog ≤ v → exec (.evheadWrite n val) s = .next (sessError n s))
        ∧ (x.evLog ≠ 0 → v < 2 ^ x.evLog → exec (.evheadWrite n val) s = .next (s.setSess n { x with evHead := v }))))
    ∧ (∀ (n : Nat) (es : List SqEntry), let x := s.sess n
      let avail := (x.sqTail + 2 ^ x.sqLog - x.sqHead) % 2 ^ x.sqLog
      let k := min es.length (min (min avail 64) (2 ^ x.sqLog - x.sqHead))
      let u := emitOut (.hostRead x.fn (x.sqBase + 64 * x.sqHead) (64 * k)) s
      (x.st ≠ .active ∨ x.held ≠ [] ∨ cqRoom x = false ∨ k = 0 → ∀ bad, exec (.sqEntryFetch n es bad) s = .next s)
      ∧ (x.st = .active → x.held = [] → cqRoom x = true → k ≠ 0 → exec (.sqEntryFetch n es true) s = .next (ringError n u)
        ∧ exec (.sqEntryFetch n es false) s = .next (passReserved n
          { u.setSess n { x with sqHead := (x.sqHead + k) % 2 ^ x.sqLog,
                                 cmds := x.cmds ++ cmdsOf n s.nextCmd ((x.sqHead + k) % 2 ^ x.sqLog) (es.take k) } with
            nextCmd := s.nextCmd + k })))
    ∧ (∀ n, let x := s.sess n
      (x.cqUns ≠ 0 → x.mute = false → 1600 * x.coalUs ≤ s.now - x.cqSince → exec (.coalTimeout n false) s = .next
        (emitOut (.msix x.fn x.vec) (s.setSess n { x with cqUns := 0 })))
      ∧ (x.evUns ≠ 0 → x.mute = false → 1600 * x.coalUs ≤ s.now - x.evSince → exec (.coalTimeout n true) s = .next
        (emitOut (.msix x.fn x.evVec) (s.setSess n { x with evUns := 0 })))
      ∧ (x.cqUns = 0 ∨ x.mute = true ∨ s.now - x.cqSince < 1600 * x.coalUs → exec (.coalTimeout n false) s = .next s)
      ∧ (x.evUns = 0 ∨ x.mute = true ∨ s.now - x.evSince < 1600 * x.coalUs → exec (.coalTimeout n true) s = .next s)))
  ∧ ((∀ (s : State) (r : Run) (c : Cmd), starts s r 0x10 0 false [] c = true →
    exec (.nop r) s = .next (succeed c 0 0 (begun c s)))
  ∧ ∀ (s : State) (n : Nat) (c : Compl), let x := s.sess n
    x.st = .active → x.mute = false → x.held = [] →
      let entry := [c.cid % 256, c.cid / 256 % 256, c.sqhead % 256, c.sqhead / 256 % 256, c.status % 256, c.detail % 256,
        x.cqPass % 2, 0] ++ leBytes 8 c.r0 ++ leBytes 8 c.r1 ++ leBytes 8 (tick s)
      ((x.cqTail + 1) % 2 ^ x.cqLog = x.cqHead → (complete_ n c s).out = s.out ∧ ((complete_ n c s).sess n).held = [c])
      ∧ ((x.cqTail + 1) % 2 ^ x.cqLog ≠ x.cqHead →
        (∃ l, (complete_ n c s).out = s.out ++ Output.completion n x.cqTail entry :: l
          ∧ (l = [] ∨ l = [Output.msix x.fn x.vec]) ∧ (l = [] ↔ x.cqUns + 1 < x.coalN))
        ∧ ((complete_ n c s).sess n).held = []
        ∧ ((complete_ n c s).sess n).cqTail = (if x.cqTail + 1 = 2 ^ x.cqLog then 0 else x.cqTail + 1)
        ∧ ((complete_ n c s).sess n).cqPass = (if x.cqTail + 1 = 2 ^ x.cqLog then x.cqPass + 1 else x.cqPass)))

/-- Commands on sessions and contexts (R49, R50, R76, R316, R317, R323, R329, R330, R331). -/
def Obligations.SessionsAndContexts : Prop :=
  (∀ (s : State) (r : Run) (c : Cmd), let u := begun c s
    (starts s r 0x01 1 false [full64, full64, full64, full64, 0x7FF] c = true → let p := c.par 2; let fn := bits p 18 6
      let ns := freeSess u; let ks := if fn = 0 then [0] else freeSlot u fn
      (∀ o, sessField u c = some o → exec (.sessCreate r) s = .next (invField c o u))
      ∧ (sessField u c = none → ns = [] ∨ ks = [] → exec (.sessCreate r) s = .next (failCmd c scNORESOURCE u))
      ∧ ∀ n k, sessField u c = none → ns[r.pick % ns.length]? = some n → ks[r.pick / 4096 % ks.length]? = some k →
        1 ≤ n ∧ n ≤ 4095 ∧ (u.sess n).st = .free ∧
        exec (.sessCreate r) s = .next (succeed c (n + k * 2 ^ 16) 0 (u.setSess n { Sess.init with
          st := .active, fn := fn, slot := k, group := bits p 10 8, sqBase := c.par 0, cqBase := c.par 1, evBase := c.par 3,
          sqLog := bits p 0 5, cqLog := bits p 5 5, evLog := bits p 59 5, vec := bits p 24 11, evVec := c.par 4,
          coalN := bits p 35 8, coalUs := bits p 43 16, rot := 15 })))
    ∧ (starts s r 0x02 1 false [0x10FFF] c = true → let n := c.par 0 % 4096; let x := u.sess n
      (n = 0 → exec (.sessDestroy r) s = .next (invField c 24 u))
      ∧ (n ≠ 0 → x.st = .free → exec (.sessDestroy r) s = .next (failCmd c scNOTFOUND u))
      ∧ (n ≠ 0 → x.st = .closing → exec (.sessDestroy r) s = .next (failCmd c scBUSY u))
      ∧ (n ≠ 0 → x.st ≠ .free → x.st ≠ .closing →
        ((c.par 0).testBit 16 = false → sessCtxs u n ≠ [] → exec (.sessDestroy r) s = .next (failCmd c scBUSY u))
        ∧ ((c.par 0).testBit 16 = true ∨ sessCtxs u n = [] → exec (.sessDestroy r) s = .next
          (closeSess n (u.setSess n { x with destroyer := some c.id, killed := (sessLive u n).length })))))
    ∧ (s.up 6 = true → ∀ n, let v := forAll (sessLive s n) killCtx s
      ((s.sess n).st ≠ .closing ∨ (s.sess n).destroyer = none → exec (.sessClosed n) s = .next s)
      ∧ ∀ id, (s.sess n).st = .closing → (s.sess n).destroyer = some id →
        (sessLive v n = [] → (s.sess n).cmds = [] → exec (.sessClosed n) s = .next
          (finish id scSUCCESS (s.sess n).killed 0 (v.setSess n Sess.init)))
        ∧ (sessLive v n ≠ [] ∨ (s.sess n).cmds ≠ [] → exec (.sessClosed n) s = .next v)))
  ∧ (∀ (s : State) (r : Run) (c : Cmd), let u := begun c s; let k := bits (c.par 0) 0 14; let x := u.ctx k
    let live := x.state = .live
    (starts s r 0x14 0 true [] c = true → let ws := (List.range 8).map fun i => fieldLe r.data (8 * i) 8; let d := descOf ws
      (c.e.dlen ≠ 64 → exec (.ctxCreate r) s = .next (invField c 16 u))
      ∧ (c.e.dlen = 64 → r.bad = true → exec (.ctxCreate r) s = .next (bufferError c u))
      ∧ (c.e.dlen = 64 → r.bad = false →
        (devQuiesce u = true → exec (.ctxCreate r) s = .next (failCmd c scQUIESCING u))
        ∧ (devQuiesce u = false → (∀ t ∈ u.templates, t.handle ≠ d.tmpl) → exec (.ctxCreate r) s = .next (failCmd c scNOTFOUND u))
        ∧ ∀ t, devQuiesce u = false → u.templates.find? (·.handle == d.tmpl) = some t →
          let limit := if c.sess = 0 then 2 else 3
          let wrong := descReserved ws || d.ring != t.d.ring || d.mode != t.d.mode || !d.w0.aligned || !d.w1.aligned
            || !d.w2.aligned || 256 < d.drvfirst + d.drvcount
          (t.d.ring < limit → exec (.ctxCreate r) s = .next (failCmd c scRING u))
          ∧ (limit ≤ t.d.ring → (wrong = true → exec (.ctxCreate r) s = .next (invField c 8 u))
            ∧ (wrong = false → rettagOk u c.sess d.rettag = false → exec (.ctxCreate r) s = .next (failCmd c scNOTPERMITTED u))
            ∧ (wrong = false → rettagOk u c.sess d.rettag = true →
              (drvTaken u d = true → exec (.ctxCreate r) s = .next (failCmd c scDRVBUSY u))
              ∧ (drvTaken u d = false →
                (findSlot u (lowestCl u t) r.pick = none → exec (.ctxCreate r) s = .next (failCmd c scNORESOURCE u))
                ∧ ∀ slot, findSlot u (lowestCl u t) r.pick = some slot → exec (.ctxCreate r) s = .next
                  (createCtx slot t { d with session := c.sess } (.command c.id) u))))))
    ∧ (∀ y ∈ [(Instr.ctxQuiesce, 0x15, [full64]), (.ctxResume, 0x16, [full64]), (.ctxSend, 0x18, [full64, full64, 0x7F0F]),
        (.ctxQuery, 0x19, [full64])], starts s r y.2.1 0 false y.2.2 c = true →
      (stale u (c.par 0) = true → exec (y.1 r) s = .next (failCmd c scSTALECTX u))
      ∧ (stale u (c.par 0) = false → c.sess ≠ 0 → x.d.session ≠ c.sess → exec (y.1 r) s = .next (failCmd c scNOTPERMITTED u)))
    ∧ (starts s r 0x15 0 false [full64] c = true → ctxOpen u c = true →
      (live → exec (.ctxQuiesce r) s = .next (succeed c 0 0 (quiesceEffect k u)))
      ∧ (¬ live → exec (.ctxQuiesce r) s = .next (succeed c 0 0 u)))
    ∧ (starts s r 0x16 0 false [full64] c = true → ctxOpen u c = true →
      (live → exec (.ctxResume r) s = .next (succeed c 0 0 u))
      ∧ (¬ live → devQuiesce u = true → exec (.ctxResume r) s = .next (failCmd c scQUIESCING u))
      ∧ (¬ live → devQuiesce u = false → exec (.ctxResume r) s = .next (succeed c 0 0 (resumeCtx k u))))
    ∧ (starts s r 0x17 0 false [full64] c = true → let foreign := c.sess ≠ 0 ∧ x.d.session ≠ c.sess
      let gone := refReturning u (c.par 0)
      (gone = true → foreign → exec (.ctxKill r) s = .next (failCmd c scNOTPERMITTED u))
      ∧ (gone = true → ¬ foreign → exec (.ctxKill r) s = .next (succeed c 0 0 u))
      ∧ (gone = false → stale u (c.par 0) = true → exec (.ctxKill r) s = .next (failCmd c scSTALECTX u))
      ∧ (gone = false → stale u (c.par 0) = false → foreign → exec (.ctxKill r) s = .next (failCmd c scNOTPERMITTED u))
      ∧ (gone = false → ctxOpen u c = true →
        (live → exec (.ctxKill r) s = .next (succeed c 0 0 (startReturning k (quiesceEffect k u))))
        ∧ (x.state = .quiesced → exec (.ctxKill r) s = .next (succeed c 0 0 (startReturning k u)))))
    ∧ (starts s r 0x18 0 false [full64, full64, 0x7F0F] c = true → ctxOpen u c = true → let p := c.par 2
      let arg := (template u x.d.tmpl).bind (·.args[bits p 8 4]?)
      (p % 16 ∉ [0, 1, 2, 3, 4, 5, 6, 9, 0xA] → exec (.ctxSend r) s = .next (failCmd c scBADTYPE u))
      ∧ (p % 16 ∈ [0, 1, 2, 3, 4, 5, 6, 9, 0xA] → (arg = none → exec (.ctxSend r) s = .next (invField c 40 u))
        ∧ ∀ a, arg = some a → exec (.ctxSend r) s = .next (succeed c 0 0 (injectTok 1 (0x10 + (u.sess c.sess).fn)
          ⟨⟨devnum u, k, 0, a.ia, a.pe, a.port, bits p 12 3, false⟩, ⟨BitVec.ofNat 64 (c.par 1), p % 16, false⟩⟩ u))))
    ∧ (starts s r 0x19 0 false [full64] c = true → ctxOpen u c = true → exec (.ctxQuery r) s = .next
      (succeed c (stateCode x.state) (wrap 16 x.mcount + wrap 32 x.scount * 2 ^ 16) u)))

/-- OBQ_ATTACH, OBQ_DETACH and the courier; NETTIME (R153, R329, R334, R341, R342, R344, R345). -/
def Obligations.ObservationQueuesAtHost : Prop :=
  ∀ (s : State) (r : Run) (c : Cmd), let u := begun c s; let q := c.par 0
    (starts s r 0x1D 0 false [0xF] c = true →
      ((u.sess c.sess).evLog = 0 → exec (.obqAttach r) s = .next (invField c 24 u))
      ∧ ((u.sess c.sess).evLog ≠ 0 → ((u.queue q).attached = none → exec (.obqAttach r) s = .next
            (succeed c 0 0 (u.setQueue q { u.queue q with attached := some c.sess })))
        ∧ ((u.queue q).attached = some c.sess → exec (.obqAttach r) s = .next (succeed c 0 0 u))
        ∧ ∀ n, (u.queue q).attached = some n → n ≠ c.sess → exec (.obqAttach r) s = .next (failCmd c scBUSY u)))
    ∧ (starts s r 0x1E 0 false [0xF] c = true →
      (c.sess = 0 ∨ (u.queue q).attached = some c.sess → exec (.obqDetach r) s = .next
        (succeed c 0 0 (u.setQueue q { u.queue q with attached := none })))
      ∧ (c.sess ≠ 0 → (u.queue q).attached ≠ some c.sess → exec (.obqDetach r) s = .next (failCmd c scNOTPERMITTED u)))
    ∧ (starts s r 0x06 2 false [0xF, full64, full64] c = true →
      (srcType u q ≠ 6 → exec (.nettime r) s = .next (invField c 24 u))
      ∧ (srcType u q = 6 → exec (.nettime r) s = .next
        (succeed c 0 0 (nettimeStep q (signed 64 (c.par 1)) (c.par 2 * 64) u))))
    ∧ (s.up 3 = true → ∀ n, let x := s.sess n; let wraps := x.evTail + 1 = 2 ^ x.evLog
      (x.st ≠ .active ∨ evRoom x = false ∨ nextQueue s n = none → ∀ m b, exec (.courierWrite n m b) s = .next s)
      ∧ ∀ k, x.st = .active → evRoom x = true → nextQueue s n = some k →
        (∀ b, exec (.courierWrite n true b) s = .next (queueReset k s))
        ∧ ∀ it rest, (s.queue k).pop = some (it, rest) → let v := (s.setQueue k rest).setSess n { x with rot := k }
          exec (.courierWrite n false true) s = .next (ringError n v)
          ∧ exec (.courierWrite n false false) s = .next (posted n true (emitOut (.event n x.evTail
            (itemBytes it (x.evPass % 2) k)) (v.setSess n { v.sess n with
              evTail := if wraps then 0 else x.evTail + 1, evPass := if wraps then x.evPass + 1 else x.evPass }))))

/-- Commands on images, and data moved for the host (R16, R196, R259, R262, R328, R329, R332, R333, R335, R337, R397,
R434). -/
def Obligations.ImagesAndMoves : Prop :=
  (∀ (s : State) (r : Run) (c : Cmd), let u := begun c s; let p := c.par 1
    (starts s r 0x11 0 true [0, 0x1FF] c = true → let data := r.data.take c.e.dlen; let slot := p % 256
      let stored := mget [] u.stored slot
      (p.testBit 8 = true → (c.e.dptr ≠ 0 → exec (.imgLoad r) s = .next (invField c 8 u))
        ∧ (c.e.dptr = 0 → c.e.dlen ≠ 0 → exec (.imgLoad r) s = .next (invField c 16 u))
        ∧ (c.e.dptr = 0 → c.e.dlen = 0 → (64 ≤ slot → exec (.imgLoad r) s = .next (invField c 32 u))
          ∧ (slot < 64 → stored = [] → exec (.imgLoad r) s = .next (failCmd c scNOTFOUND u))
          ∧ (slot < 64 → stored ≠ [] → exec (.imgLoad r) s = .next (checkedImage c stored u))))
      ∧ (p.testBit 8 = false → (p ≠ 0 → exec (.imgLoad r) s = .next (invField c 32 u))
        ∧ (p = 0 → r.bad = true → exec (.imgLoad r) s = .next (bufferError c u))
        ∧ (p = 0 → r.bad = false →
          (∀ o, imageOffence data = some o → exec (.imgLoad r) s = .next (finishCmd c scIMGINVALID 0 o 0 u))
          ∧ (imageOffence data = none → let bs := data.take (fieldLe data 8 4); let ps := placesOf bs
            let xs := (sections bs).filter (·.typ == 2)
            let shut := xs.any fun x => (x.template bs 0 0).d.ring < (if c.sess = 0 then 2 else 3)
            (shut = true → exec (.imgLoad r) s = .next (failCmd c scRING u))
            ∧ (shut = false → placeConflict u ps = true → exec (.imgLoad r) s = .next (failCmd c scPLACECONFLICT u))
            ∧ (shut = false → placeConflict u ps = false →
              (40 * 2 ^ 20 < storeUsed u + bs.length ∨ ps.any (fun p => lpeFailed u p.pe) = true →
                exec (.imgLoad r) s = .next (failCmd c scNORESOURCE u))
              ∧ ∀ h id, storeUsed u + bs.length ≤ 40 * 2 ^ 20 → ps.any (fun p => lpeFailed u p.pe) = false →
                lowestRun (u.templates.map (·.handle)) 1 xs.length = some h → lowestRun (u.images.map (·.id)) 0 1 = some id →
                exec (.imgLoad r) s = .next (succeed c (h + xs.length * 2 ^ 16) id (measure 4 0 id ((bs.drop 16).take 32)
                  (forAll ps writePlaced { u with
                    images := u.images ++ [⟨id, c.sess, ps, bs⟩],
                    templates := u.templates ++ xs.map fun x => x.template bs id (h + x.aux) }))))))))
    ∧ (starts s r 0x05 1 false [0xFFFF, 0xFF] c = true → let found := u.images.find? (·.id == c.par 0)
      (64 ≤ p → exec (.imgStore r) s = .next (invField c 32 u))
      ∧ (p < 64 → found = none → exec (.imgStore r) s = .next (failCmd c scNOTFOUND u))
      ∧ ∀ im, p < 64 → found = some im → let v := { u with stored := mset [] u.stored p im.bytes }
        (40 * 2 ^ 20 < storeUsed v → exec (.imgStore r) s = .next (failCmd c scNORESOURCE u))
        ∧ (storeUsed v ≤ 40 * 2 ^ 20 → exec (.imgStore r) s = .next (succeed c im.bytes.length 0 v)))
    ∧ (starts s r 0x12 0 false [0xFFFF] c = true → let id := c.par 0; let found := u.images.find? (·.id == id)
      (found = none → exec (.imgUnload r) s = .next (failCmd c scNOTFOUND u))
      ∧ ∀ im, found = some im →
        (c.sess ≠ 0 → c.sess ≠ im.sess → exec (.imgUnload r) s = .next (failCmd c scNOTPERMITTED u))
        ∧ (c.sess = 0 ∨ c.sess = im.sess → (imageBusy u id = true → exec (.imgUnload r) s = .next (failCmd c scBUSY u))
          ∧ (imageBusy u id = false → exec (.imgUnload r) s = .next (succeed c 0 0 { u with
            images := u.images.filter (·.id != id), templates := u.templates.filter (·.image != id) })))))
  ∧ (∀ (s : State) (r : Run) (c : Cmd), let u := begun c s
    (∀ y ∈ [(Instr.scrRead, 0x1A), (.scrWrite, 0x1B)], starts s r y.2 0 true [0x1FFFFFF, 3] c = true →
      let pres := y.2 = 0x1A ∧ c.par 1 = 3; let n := c.e.dlen; let a := c.par 0
      let badLen := n < 16 ∨ 1048576 < n ∨ n % 16 ≠ 0
      let badAddr := a % (if pres then 256 else 16) ≠ 0 ∨ 0x2000000 < a + (if pres then 32 * n else n)
      let badView := if y.2 = 0x1A then c.par 1 ≠ 0 ∧ c.par 1 ≠ 3 else c.par 1 = 3
      (badLen → exec (y.1 r) s = .next (invField c 16 u))
      ∧ (¬ badLen → badAddr → exec (y.1 r) s = .next (invField c 24 u))
      ∧ (¬ badLen → ¬ badAddr → badView → exec (y.1 r) s = .next (invField c 32 u))
      ∧ (¬ badLen → ¬ badAddr → ¬ badView →
        (r.bad = true → exec (y.1 r) s = .next (bufferError c u))
        ∧ (r.bad = false → let e := { c with left := n, acc := if y.2 = 0x1B then r.data.take n else [] }
          exec (y.1 r) s = .next (sendChunk e (updCmd c (fun _ => e) u)))))
    ∧ (∀ (e : Cmd) (v a : Nat), viewOf (nextChunk e).addr = some (v, a) → let k := nextChunk e
      let req (cmd : Nat) (us : List Nat) := request 1 (bgStation (a / 2 ^ 20)) (a / 2 ^ 20 % 8) cmd
        (0x10 + (s.sess e.sess).fn) k.addr us (.host e.id) s
      (e.e.opc = 0x1A → sendChunk e s = req 0x19 [k.units])
      ∧ (e.e.opc ≠ 0x1A → sendChunk e s = req 0x1A ((List.range k.units).map fun i =>
        ofLe ((e.acc.drop (e.e.dlen - e.left + 16 * i)).take 16))))
    ∧ (starts s r 0x1C 0 true [0x3F, 0xFFFFFFFF, 0xFFFFFFFF] c = true → let k := c.par 0
      (ringState u k = 0 → exec (.capRead r) s = .next (failCmd c scNOTFOUND u))
      ∧ (ringState u k ≠ 0 → (c.e.dlen < c.par 2 * capLen (ringNch u k) → exec (.capRead r) s = .next (invField c 16 u))
        ∧ (c.par 2 * capLen (ringNch u k) ≤ c.e.dlen → (r.bad = true → exec (.capRead r) s = .next (bufferError c u))
          ∧ (r.bad = false → let e := { c with left := c.par 2 }
            exec (.capRead r) s = .next (sendRingrd e (updCmd c (fun _ => e) u))))))
    ∧ (starts s r 0x03 1 false [full64, full64, 0xF] c = true → let cl := c.par 2; let size := c.par 1
      let done := commitFar cl (c.par 0) (size / 65536) u
      (c.par 0 % 65536 ≠ 0 → exec (.spillGrant r) s = .next (invField c 24 u))
      ∧ (c.par 0 % 65536 = 0 → (size % 65536 ≠ 0 → exec (.spillGrant r) s = .next (invField c 32 u))
        ∧ (size % 65536 = 0 → (rd u (F.clFsstatUsed cl) ≠ 0 → exec (.spillGrant r) s = .next (failCmd c scBUSY u))
          ∧ (rd u (F.clFsstatUsed cl) = 0 →
            (64 * 2 ^ 30 < grantedElse u cl + size → exec (.spillGrant r) s = .next (invField c 32 u))
            ∧ (grantedElse u cl + size ≤ 64 * 2 ^ 30 →
              (done.1 = true → exec (.spillGrant r) s = .next (failCmd c scDEVERR done.2))
              ∧ (done.1 = false → exec (.spillGrant r) s = .next
                (succeed c 0 0 { done.2 with grants := mset 0 done.2.grants cl size })))))))
    ∧ (starts s r 0x04 1 false [0, 0, 0xF] c = true → let cl := c.par 2
      let done := commitFar cl (rdSh u (F.clFsbaseloAddr cl) + rdSh u (F.clFsbasehiAddr cl) * 2 ^ 32) 0 u
      (rd u (F.clFsstatUsed cl) ≠ 0 → exec (.spillRevoke r) s = .next (failCmd c scFARSPILL u))
      ∧ (rd u (F.clFsstatUsed cl) = 0 → (done.1 = true → exec (.spillRevoke r) s = .next (failCmd c scDEVERR done.2))
        ∧ (done.1 = false → exec (.spillRevoke r) s = .next
          (succeed c 0 0 { done.2 with grants := mset 0 done.2.grants cl 0 })))))

/-- The log engine (R33, R307, R355, R356, R357, R358, R366, R367, R369, R370, R371, R373). -/
def Obligations.LogEngine : Prop :=
  (∀ (s : State) (r : Run) (c : Cmd), let u := begun c s; let st := logState u; let i := c.par 0
    (starts s r 0x40 2 true [7] c = true → let x := nsOf r.data
      (st ≠ 0 → st ≠ 1 → exec (.logQattach r) s = .next (failCmd c 0x40 u))
      ∧ (st = 0 ∨ st = 1 → (c.e.dlen ≠ 64 → exec (.logQattach r) s = .next (invField c 16 u))
        ∧ (c.e.dlen = 64 → (r.bad = true → exec (.logQattach r) s = .next (bufferError c u))
          ∧ (r.bad = false → ((u.ns i).isSome = true ∨ logBusy u = true → exec (.logQattach r) s = .next (failCmd c scBUSY u))
            ∧ ((u.ns i).isSome = false → logBusy u = false →
              (x.fieldsOk (fieldLe r.data 54 2) = false → exec (.logQattach r) s = .next (invField c 8 u))
              ∧ (x.fieldsOk (fieldLe r.data 54 2) = true →
                (x.badFormat u = true → exec (.logQattach r) s = .next (failCmd c 0x41 u))
                ∧ (x.badFormat u = false → exec (.logQattach r) s = .next (succeed c x.slots 0 (setNs i (some x) u)))))))))
    ∧ (starts s r 0x41 2 false [7] c = true → let v := setNs i none u
      (st ≠ 0 → st ≠ 1 → st ≠ 4 → exec (.logQdetach r) s = .next (failCmd c 0x40 u))
      ∧ (st = 0 ∨ st = 1 ∨ st = 4 → (u.ns i = none → exec (.logQdetach r) s = .next (failCmd c scNOTFOUND u))
        ∧ ∀ x, u.ns i = some x → (logBusy u = true → exec (.logQdetach r) s = .next (failCmd c scBUSY u))
          ∧ (logBusy u = false → nsList v = [] → exec (.logQdetach r) s = .next (succeed c 0 0 (enterLog 0 v)))
          ∧ (logBusy u = false → nsList v ≠ [] → exec (.logQdetach r) s = .next (succeed c 0 0 v))))
    ∧ (starts s r 0x46 2 true [] c = true → (c.e.dlen ≠ 64 → exec (.logStatus r) s = .next (invField c 16 u))
      ∧ (c.e.dlen = 64 → (r.bad = true → exec (.logStatus r) s = .next (bufferError c u))
        ∧ (r.bad = false → exec (.logStatus r) s = .next (succeed c st 0 (toHost c 0 (logStatusBytes u) u))))))
  ∧ (∀ (s : State) (r : Run) (c : Cmd), let u := begun c s; let st := logState u
    let may := st = 1 ∨ (st = 0 ∧ nsList u ≠ [])
    (starts s r 0x42 2 false [full64] c = true → let id := c.par 0
      let h0 := ((nsList u).head?.bind fun i => (u.ns i).map fun x => labelHash id i x.slots).getD []
      let v := put (updLog (fun l =>
          { l with
            createCmd := some c.id, logId := id, nextSeq := 1, lastSealed := 0, chain := [], h0 := h0,
            staged := [], cur := none, fill := [], streams := [] }) u) F.logSealedSeq 0
      let prepare (i : Nat) (t : State) : State := match t.ns i with
        | some x => submit i (writes x.mdts .label 0 0 (fitBytes (2 ^ 26) (labelBytes id i x.slots))
            ++ [nvCmd 0x09 .deallocate 1 0 ((x.slots - 1) * 2 ^ 26)])
          (updNs i (fun x => { x with sealedSegs := [], seg := none, failed := false }) t)
        | none => t
      (¬ may → exec (.logCreate r) s = .next (failCmd c 0x40 u))
      ∧ (may → (id = 0 → exec (.logCreate r) s = .next (invField c 24 u))
        ∧ (id ≠ 0 → (logBusy u = true → exec (.logCreate r) s = .next (failCmd c scBUSY u))
          ∧ (logBusy u = false → exec (.logCreate r) s = .next (forAll (nsList u) prepare v)))))
    ∧ (starts s r 0x43 2 false [] c = true →
      let v := updLog (fun l => { l with resumeCmd := some c.id, resumeStep := 1, rdata := [] }) u
      let read (i : Nat) (t : State) : State := match t.ns i with
        | some x => submit i (reads x.mdts 0 0 ((64 * x.slots + 4095) / 4096 * 4096)) (updNs i (fun x => { x with seg := none }) t)
        | none => t
      (¬ may → exec (.logResume r) s = .next (failCmd c 0x40 u))
      ∧ (may → (logBusy u = true → exec (.logResume r) s = .next (failCmd c scBUSY u))
        ∧ (logBusy u = false → (lastState u = none → exec (.logResume r) s = .next (failCmd c 0x45 u))
          ∧ (lastState u ≠ none → exec (.logResume r) s = .next (forAll (nsList u) read v)))))
    ∧ (starts s r 0x44 2 false [] c = true →
      let fresh (k : Nat) (t : State) : State := let p := rd t (F.cnvCaptotalTotal (rd t (F.logStreamcfgRing k)))
        updStream k (fun _ => if rdB t (F.logStreamcfgEn k) then
          { Stream.init with pos := p, durable := (p, none) } else .init) t
      (st ≠ 1 → exec (.logStart r) s = .next (failCmd c 0x40 u))
      ∧ (st = 1 → (logBusy u = true → exec (.logStart r) s = .next (failCmd c scBUSY u))
        ∧ (logBusy u = false → c.sess ≠ 0 → devQuiesce u = true → exec (.logStart r) s = .next (failCmd c scQUIESCING u))
        ∧ (logBusy u = false → (c.sess = 0 ∨ devQuiesce u = false) → (List.range 64).any (badStream u) = true →
          exec (.logStart r) s = .next (invField c 0 u))
        ∧ (logBusy u = false → (c.sess = 0 ∨ devQuiesce u = false) → (List.range 64).any (badStream u) = false →
          let v := openSegments (succeed c 0 0 (enterLog 2 (forAll (List.range 64) fresh u)))
          exec (.logStart r) s = .next (if v.log.pause ≠ 0 then enterLog 3 v else logPoll (engineStep v)))))
    ∧ (starts s r 0x45 2 false [] c = true → let v := updLog (fun l => { l with stopCmd := some c.id }) u
      (st ≠ 2 → st ≠ 3 → exec (.logStop r) s = .next (failCmd c 0x40 u))
      ∧ (st = 2 ∨ st = 3 → u.log.stopCmd.isSome = true → exec (.logStop r) s = .next (failCmd c scBUSY u))
      ∧ (st = 2 → u.log.stopCmd = none → exec (.logStop r) s = .next (beginStop v))
      ∧ (st = 3 → u.log.stopCmd = none → exec (.logStop r) s = .next v))
    ∧ (starts s r 0x47 2 true [] c = true → let n := c.e.dlen
      let rec_ : LogRec := ⟨5, 0xFF, 0, tick u, recordBytes 5 0xFF (tick u) 0 0 (fitBytes n r.data), some c.id, false, 0, none⟩
      (st ≠ 2 → exec (.logAppend r) s = .next (failCmd c 0x40 u))
      ∧ (st = 2 → u.log.stopping = false → (n < 16 ∨ 81888 < n → exec (.logAppend r) s = .next (invField c 16 u))
        ∧ (16 ≤ n → n ≤ 81888 → (r.bad = true → exec (.logAppend r) s = .next (bufferError c u))
          ∧ (r.bad = false → exec (.logAppend r) s = .next
            (engineStep (updLog (fun l => { l with staged := l.staged ++ [rec_] }) u))))))
    ∧ (starts s r 0x48 2 false [full64] c = true →
      (st = 0 ∨ 3 < st → exec (.logReclaim r) s = .next (failCmd c 0x40 u))
      ∧ (1 ≤ st → st ≤ 3 → (logBusy u = true → exec (.logReclaim r) s = .next (failCmd c scBUSY u))
        ∧ (logBusy u = false → exec (.logReclaim r) s = .next (endReclaim (startReclaim (some c.id) (c.par 0) u))))))
  ∧ (∀ (s : State), s.up 3 = true →
    (∀ (n : NvDone), ((s.ns n.ns).bind fun x => x.cmds.find? (·.cid == n.cid)) = none → exec (.nvmeCompletion n) s = .next s)
    ∧ (∀ (n : NvDone) (x : Ns) (c : NvCmd), s.ns n.ns = some x → x.cmds.find? (·.cid == n.cid) = some c →
      let u := updNs n.ns (fun x => { x with cqHead := (x.cqHead + 1) % x.qsize }) s
      (n.sct ≠ 0 ∨ n.sc ≠ 0 → exec (.nvmeCompletion n) s = .next (nvFailed n.ns c n.sct n.sc (setPause 1 false u)))
      ∧ (n.sct = 0 → n.sc = 0 → let v := nvNext n.ns c n.data (updNs n.ns (fun x => { x with cmds := x.cmds.erase c }) u)
        exec (.nvmeCompletion n) s = .next (issueAll (setPause 2 (allRetry v) (setPause 1 false v)))))
    ∧ (∀ (i cid : Nat) (x : Ns) (c : NvCmd), s.ns i = some x → x.cmds.find? (·.cid == cid) = some c →
      (s.now - c.sent < 2000 * 1600000 → exec (.nvmeTimeout i cid) s = .next s)
      ∧ (2000 * 1600000 ≤ s.now - c.sent → exec (.nvmeTimeout i cid) s = .next (nvFailed i c 0 0 (event 12 1 i s))))
    ∧ (s.log.jq = [] → ∀ ok, exec (.mramOpDone ok) s = .next (raiseIrq 36 s))
    ∧ (∀ e es, s.log.jq = e :: es → let u := updLog (fun l => { l with jq := es }) s; let v := journalWritten e u
      exec (.mramOpDone false) s = .next (raiseIrq 36 (logFault scDEVERR (event 12 2 0 u)))
      ∧ (v.log.resumeStep ≠ 3 → exec (.mramOpDone true) s = .next (raiseIrq 36 (logPoll (engineStep v))))
      ∧ (v.log.resumeStep = 3 → exec (.mramOpDone true) s = .next (raiseIrq 36 (logPoll (resumeDone (trySeal v)))))))

/-- The operations on the device configuration record, and its read-back (R32, R429, R430, R438). -/
def Obligations.ConfigurationRecord : Prop :=
  ∀ (s : State) (init : Nat), s.up 3 = true → let core := 0x50 ≤ init ∧ init ≤ 0x53; let d := rd s (F.secCfgdataData 0)
    let idle := core ∧ rd s F.secCfgctlBusy ≠ 1; let r := s.cfgRec.getD .shipped
    let go (op : Nat) (x : CfgRec) (u : State) : State :=
      put { put u F.secCfgctlOp op with cfgPending := some { x with seqNo := r.seqNo + 1 } } F.secCfgctlBusy 1
    let refuse (op res : Nat) (u : State) : State := put (put u F.secCfgctlOp op) F.secCfgctlResult res
    (¬ core → ∀ row ∈ [Instr.cfgSetBoot init, .cfgSetProfdef init, .cfgSetKeyslot init 0, .cfgBadOp init 4],
      exec row s = .next s)
    ∧ (core → rd s F.secCfgctlBusy = 1 → ∀ e ∈ [(Instr.cfgSetBoot init, 1, s), (.cfgSetProfdef init, 2, s),
      (.cfgSetKeyslot init 2, 3, put s F.secCfgctlSlot 2), (.cfgBadOp init 4, 4, s)],
      exec e.1 s = .next (cfgErr 14 (put e.2.2 F.secCfgctlOp e.2.1)))
    ∧ (idle → exec (.cfgSetBoot init) s = .next
        (go 1 { r with prefer := d % 2, trial := d.testBit 1, trials := bits d 2 2 } s)
      ∧ (s.variant = 2 → d % 2 = 1 → exec (.cfgSetProfdef init) s = .next (refuse 2 3 s))
      ∧ (s.variant ≠ 2 ∨ d % 2 = 0 → exec (.cfgSetProfdef init) s = .next (go 2 { r with profDef := d % 2 } s))
      ∧ (∀ slot, let k := slot % 4; let u := put s F.secCfgctlSlot k
        let key := (List.range 8).flatMap fun i => leBytes 4 (rd s (F.secCfgdataData i))
        ((r.keySlots.getD k none).isSome = true → exec (.cfgSetKeyslot init slot) s = .next (refuse 3 2 u))
        ∧ (r.keySlots.getD k none = none → exec (.cfgSetKeyslot init slot) s = .next
          (go 3 { r with keySlots := r.keySlots.set k (some key) } u)))
      ∧ (∀ op, op < 16 → op ∉ [1, 2, 3] → exec (.cfgBadOp init op) s = .next (refuse op 1 s)))
    ∧ (s.cfgPending = none → ∀ ok, exec (.cfgReadbackDone ok) s = .next s)
    ∧ (∀ x ok, s.cfgPending = some x → ∃ t, exec (.cfgReadbackDone ok) s = .next t ∧ t.cfgPending = none
      ∧ t.cfgRec = (if ok then some x else s.cfgRec) ∧ rd t F.secCfgctlBusy = 0
      ∧ rd t F.secCfgctlResult = (if ok then 0 else 4))

/-- Quotes, hashes and the security commands (R32, R426, R427, R429, R430, R431, R432, R433, R434, R435, R436, R437).
-/
def Obligations.SecurityUnit : Prop :=
  (∀ (s : State),
    (∀ (r : Run) (bad : Bool), s.up 6 = true → s.quoteCmd.isSome = true → exec (.secQuote r bad) s = .next s)
    ∧ (∀ (r : Run) (c : Cmd) (bad : Bool), starts s r 0x50 0 true [full64, full64, full64, full64] c = true →
      s.quoteCmd = none → let u := begun c s
      let nonce := ((List.range 4).map c.par).flatMap (leBytes 8); let n := u.idxL + 4096
      let took (v : State) : State := setIdx (idxNext v + 1) { v with quoteCmd := some (c.id, idxNext v, quoteBody v nonce) }
      (c.e.dlen < 10085 → exec (.secQuote r bad) s = .next (invField c 16 u))
      ∧ (10085 ≤ c.e.dlen → (rd u F.secStatusIdv ≠ 1 → exec (.secQuote r bad) s = .next (failCmd c 0x55 u))
        ∧ (rd u F.secStatusIdv = 1 → (r.bad = true → exec (.secQuote r bad) s = .next (bufferError c u))
          ∧ (r.bad = false → (idxNext u < u.idxL → exec (.secQuote r bad) s = .next (took u))
            ∧ (u.idxL ≤ idxNext u → (2 ^ 40 < n → exec (.secQuote r bad) s = .next (failCmd c 0x54 u))
              ∧ (n ≤ 2 ^ 40 → (bad = true → exec (.secQuote r bad) s = .next (failCmd c 0x53 (event 14 2 0 u)))
                ∧ (bad = false →
                  let a := match idxRead u 0, idxRead u 0x40 with
                    | some x, some y => if x.2 < y.2 then sigBase else sigBase + 0x40
                    | none, some _ => sigBase
                    | _, none => sigBase + 0x40
                  let v := { u with idxL := n, idxRseq := u.idxRseq + 1, mem := memWrite u.mem a (idxRecord n (u.idxRseq + 1)) }
                  let low := u.idxLow = false ∧ 2 ^ 40 - n < rd v F.secIdxwarnWarn * 2 ^ 24
                  (low → exec (.secQuote r bad) s = .next (took (event 14 1 0 { v with idxLow := true })))
                  ∧ (¬ low → exec (.secQuote r bad) s = .next (took v)))))))))
    ∧ (s.up 6 = true → s.quoteCmd = none → exec .quoteDone s = .next s)
    ∧ (∀ id i body c, s.up 6 = true → s.quoteCmd = some (id, i, body) → let u := { s with quoteCmd := none }
      findCmd u id = some c → exec .quoteDone s = .next (succeed c i 0 (toHost c 0 (body ++ Config.sigMake i body) u)))
    ∧ (s.up 3 = true →
      (∀ init, (init < 0x50 ∨ 0x53 < init → exec (.secHashctlGo init) s = .next s)
        ∧ (0x50 ≤ init → init ≤ 0x53 → (rd s F.secHashctlBusy = 1 → exec (.secHashctlGo init) s = .next (cfgErr 14 s))
          ∧ (rd s F.secHashctlBusy ≠ 1 → 
            let q := (rd s F.secHashsrcloAddr + rd s F.secHashsrchiAddr * 2 ^ 32, rd s F.secHashlenLen)
            exec (.secHashctlGo init) s = .next (put { s with hashReq := some q } F.secHashctlBusy 1))))
      ∧ (s.hashReq = none → exec .hashDone s = .next s)
      ∧ (∀ a n, s.hashReq = some (a, n) → let u := put { s with hashReq := none } F.secHashctlBusy 0
        (∀ v, hashInput a n u = (none, v) → exec .hashDone s = .next (raiseIrq 37 (put v F.secHashctlErr 1)))
        ∧ ∀ bs v, hashInput a n u = (some bs, v) → exec .hashDone s = .next (raiseIrq 37 (forAll (List.range 8)
          (fun k t => put t (F.secHashoutOut k) (fieldLe (shake256 bs 32) (4 * k) 4)) (put v F.secHashctlErr 0))))))
  ∧ (∀ (s : State) (r : Run) (c : Cmd), let u := begun c s; let a := c.par 0
    (starts s r 0x51 0 true [0xFFF, 0x1FFF] c = true → let n := c.par 1
      (n = 0 ∨ 4096 < n → exec (.secMlogread r) s = .next (invField c 32 u))
      ∧ (n ≠ 0 → n ≤ 4096 → (c.e.dlen < 64 * n → exec (.secMlogread r) s = .next (invField c 16 u))
        ∧ (64 * n ≤ c.e.dlen → (u.mlog.length ≤ a → exec (.secMlogread r) s = .next (failCmd c 0x56 u))
          ∧ (a < u.mlog.length → (r.bad = true → exec (.secMlogread r) s = .next (bufferError c u))
            ∧ (r.bad = false → exec (.secMlogread r) s = .next
              (succeed c u.mlog.length 0 (toHost c 0 (((u.mlog.drop a).take n).flatten) u)))))))
    ∧ (starts s r 0x52 0 true [] c = true → (c.e.dlen < 68 → exec (.secIdkey r) s = .next (invField c 16 u))
      ∧ (68 ≤ c.e.dlen → (r.bad = true → exec (.secIdkey r) s = .next (bufferError c u))
        ∧ (r.bad = false → exec (.secIdkey r) s = .next (succeed c 0 0 (toHost c 0 Config.identityKey u)))))
    ∧ (starts s r 0x53 1 true [1] c = true → let bs := r.data.take c.e.dlen
      (c.e.dlen = 0 ∨ 0x800000 < c.e.dlen → exec (.secFwwrite r) s = .next (invField c 16 u))
      ∧ (c.e.dlen ≠ 0 → c.e.dlen ≤ 0x800000 → (a = rd u F.secStatusSlot → exec (.secFwwrite r) s = .next (failCmd c 0x52 u))
        ∧ (a ≠ rd u F.secStatusSlot → (r.bad = true → exec (.secFwwrite r) s = .next (bufferError c u))
          ∧ (r.bad = false → (∀ h n, badImage u bs 2048 0 = some (h, n) → exec (.secFwwrite r) s = .next (failImage c h n u))
            ∧ (badImage u bs 2048 0 = none → exec (.secFwwrite r) s = .next (succeed c 0 0
              { u with mem := memWrite u.mem (slotBase a) bs,
                       cfgRec := some { cfgOf u with prefer := a, trial := true, trials := 3,
                                                     seqNo := (cfgOf u).seqNo + 1 } }))))))
    ∧ (starts s r 0x54 1 false [] c = true → exec (.secFwconfirm r) s = .next (succeed c 0 0 (put
        { u with cfgRec := some { cfgOf u with trial := false, seqNo := (cfgOf u).seqNo + 1 } } F.secStatusTrial 0)))
    ∧ (starts s r 0x55 1 false [0xFFFFFFFF] c = true → let running := fieldLe u.fwInfo 0x10 4
      (a < u.svnFloor ∨ running < a → exec (.secSvnraise r) s = .next (invField c 24 u))
      ∧ (u.svnFloor ≤ a → a ≤ running → exec (.secSvnraise r) s = .next (succeed c 0 0 { u with svnFloor := a })))
    ∧ (starts s r 0x56 1 true [3] c = true → let slot := (cfgOf u).keySlots.getD a none
      (c.e.dlen ≠ 32 → exec (.secSvckey r) s = .next (invField c 16 u))
      ∧ (c.e.dlen = 32 → (slot.isSome = true → exec (.secSvckey r) s = .next (failCmd c 0x57 u))
        ∧ (slot = none → (r.bad = true → exec (.secSvckey r) s = .next (bufferError c u))
          ∧ (r.bad = false → exec (.secSvckey r) s = .next (succeed c 0 0 { u with cfgRec := some { cfgOf u with
              keySlots := (cfgOf u).keySlots.set a (some (r.data.take 32)), seqNo := (cfgOf u).seqNo + 1 } })))))
    ∧ (starts s r 0x57 1 false [1, 0x7FFFFF] c = true → let off := c.par 1; let im := slotImage u a off
      (off % 4096 ≠ 0 → exec (.secSvcload r) s = .next (invField c 32 u))
      ∧ (off % 4096 = 0 → let n := checkImage u 2 im.1 im.2
        (n ≠ 0 → exec (.secSvcload r) s = .next (failImage c im.1 n u))
        ∧ (n = 0 → exec (.secSvcload r) s = .next (succeed c 0 0 (loadImage im.1 im.2
          (measure 3 ((Config.freeValue u.free).toNat % 256) (im.1.getD 6 0) ((im.1.drop 0x28).take 32)
            { u with free := u.free + 1 }))))))
    ∧ (starts s r 0x58 1 false [1] c = true →
      (u.variant = 2 → a = 1 → ∀ ok, exec (.secProfdef r ok) s = .next (invField c 24 u))
      ∧ (u.variant ≠ 2 ∨ a ≠ 1 → exec (.secProfdef r false) s = .next (failCmd c scDEVERR u)
        ∧ exec (.secProfdef r true) s = .next (succeed c 0 0
          { u with cfgRec := some { cfgOf u with profDef := a, seqNo := (cfgOf u).seqNo + 1 } }))))

/-- Function-level resets, link resets and PERST_N (R276, R312, R323, R339, R419, R420). -/
def Obligations.FunctionLevelResets : Prop :=
  ∀ s : State,
    (s.up 3 = true → ∀ fn, 64 ≤ fn → exec (.flr fn) s = .next s)
    ∧ (s.up 3 = true → ∀ fn, fn < 64 → let cov (f : Nat) : Bool := decide (f < 64) && (fn == 0 || f == fn)
      let a := forAll ((s.sessions.filter fun e => e.2.st != .free && cov e.2.fn).map (·.1)) flrClose s
      let b := abandonLocks (fun h => (List.range 64).any fun f => cov f && h / 256 == fnInit f) a
      let c := forAll (List.range 32) (fun b u =>
        if ((List.range 64).any fun f => cov f && rd u (F.sbOwnerOwner b) == fnInit f) then put u (F.sbOwnerFence b) 1 else u) b
      let d := if fn = 0 then flrPf c else c
      exec (.flr fn) s = .next (event 10 4 fn (put {
        d with fnState := d.fnState.filter fun e => !cov (e.1 / 4096), msixMask := d.msixMask.filter fun e => !cov (e.1 / 65536),
               flrFns := if fn ∈ d.flrFns then d.flrFns else d.flrFns ++ [fn] } F.hifStatusFlrbusy 1)))
    ∧ (s.up 3 = true → ∀ fn, (fn ∉ s.flrFns → exec (.flrComplete fn) s = .next s)
      ∧ (fn ∈ s.flrFns → let ns := flrSess s fn; let u := forAll ns (fun n v => forAll (sessLive v n) killCtx v) s
        ((∃ n ∈ ns, sessLive u n ≠ [] ∨ (u.sess n).cmds ≠ []) → exec (.flrComplete fn) s = .next u)
        ∧ ((∀ n ∈ ns, sessLive u n = [] ∧ (u.sess n).cmds = []) → let v := forAll ns flrFree u
          let rest := v.flrFns.filter fun f => f != fn
          exec (.flrComplete fn) s = .next (put { v with flrFns := rest } F.hifStatusFlrbusy (if rest = [] then 0 else 1)))))
    ∧ (let down (u : State) : State := put (put { u with linkState := 0 } F.hifStatusWidth 0) F.hifStatusSpeed 0
      let low := { s with pins := mset 0 s.pins 2 0 }; let high := { s with pins := mset 0 s.pins 2 1, crsWindow := true }
      (s.up 3 = true → exec .linkDownReset s = exec (.flr 0) (down s))
      ∧ (s.up 4 = true → exec .perstAssert s = .next (enterState 23 4 (flrEff 0 (down low))))
      ∧ (s.up 4 = false → exec .perstAssert s = .next low)
      ∧ exec .perstRelease s = .next (if s.up 4 then wakeNow 23 high else high)
      ∧ exec .crsTimeout s = .next { s with crsWindow := false })

/-- Link power states, configuration requests, host memory errors (R30, R312, R314, R315, R348, R370). -/
def Obligations.LinkAndConfiguration : Prop :=
  ∀ s : State,
    (s.up 3 = true → ∀ st, (5 ≤ st ∨ perstHigh s = false → exec (.linkPowerChange st) s = .next s)
      ∧ (st < 5 → perstHigh s = true →
        let u := if st = 0 then put (put { s with linkState := 0 } F.hifStatusWidth 0) F.hifStatusSpeed 0
          else if s.linkState = 0 then put (put { s with linkState := st, free := s.free + 1 }
              F.hifStatusWidth ((Config.freeValue s.free).toNat % 5)) F.hifStatusSpeed (1 + (Config.freeValue s.free).toNat / 8 % 6)
          else { s with linkState := st }
        let v := if s.linkState = 4 ∧ st ≠ 4 then wakeNow 23 u else u
        exec (.linkPowerChange st) s = .next (setPause 0 (!linkUp v) v)))
    ∧ (s.up 4 = true → ∀ fn off, let a := fn * 4096 + off % 4096 / 4 * 4
      (perstHigh s = false → ∀ wr, exec (.configRequest fn off wr) s = .next s)
      ∧ (perstHigh s = true → let retry := s.crsWindow = true ∧ rd s F.hifStatusReady ≠ 1
        let absent := 64 ≤ fn ∨ (fn ≠ 0 ∧ vfEnabled s = false)
        (retry → ∀ wr, exec (.configRequest fn off wr) s = .next (emitOut (.config 2 0) s))
        ∧ (¬ retry → absent → ∀ wr, exec (.configRequest fn off wr) s = .next (emitOut (.config 1 0) s))
        ∧ (¬ retry → ¬ absent → (∃ v < 2 ^ 32, exec (.configRequest fn off none) s
            = .next (emitOut (.config 0 v) { s with free := s.free + 1 }))
          ∧ ∀ v, let u := { s with fnState := mset 0 s.fnState a (v % 2 ^ 32) }
            exec (.configRequest fn off (some v)) s = .next (emitOut (.config 0 0)
              (if fn = 0 ∧ vfEnabled u = true ∧ 10 ∉ s.locked then { u with locked := 10 :: s.locked } else u)))))
    ∧ (s.up 3 = true →
      (∀ n, exec (.completionTimeout (.ring n)) s = .next (if (s.sess n).st = .active then ringError n s else s)
        ∧ (∀ c, (s.sess n).cmds.find? (fun c => c.e.dlen != 0) = some c →
            exec (.completionTimeout (.buffer n)) s = .next (bufferError c s))
        ∧ ((∀ c ∈ (s.sess n).cmds, c.e.dlen = 0) → exec (.completionTimeout (.buffer n)) s = .next s)
        ∧ (s.ns n ≠ none → exec (.completionTimeout (.nvme n)) s = .next (setPause 1 true (event 12 5 0 (event 10 1 0 s))))
        ∧ (s.ns n = none → exec (.completionTimeout (.nvme n)) s = .next s))
      ∧ (∀ cl lpe, exec (.completionTimeout (.spill cl lpe)) s = .next (spillTimeout cl lpe s))
      ∧ exec .aerUncorrectableError s = .next (event 10 0 0 s))

/-- The integer, multiply and divide instructions of the supervisor cores (R286, R309). -/
def Obligations.SupIntegerInstructions : Prop :=
  ∀ (s : State) (x : Sup) (rd ra rb : Nat), supReady s x false false = true → let th := s.thr x.t
    let a := gRead th ra; let b := gRead th rb
    (∀ op imm, let c : Word := match imm with | some n => BitVec.ofNat 64 n | none => b
      exec (.supAlu x op rd ra rb imm) s = .next (wrote s x.t rd (BitVec.ofNat 64 (aluValue op (gRead th rd) a c))))
    ∧ (∀ op, ∃ v : Word, exec (.supMul x op rd ra rb) s = .next (wrote s x.t rd v) ∧ v.toNat = match op with
      | .mul => a.toNat * b.toNat % 2 ^ 64
      | .mulh => (a.toInt * b.toInt / 2 ^ 64 % 2 ^ 64).toNat
      | .mulhu => a.toNat * b.toNat / 2 ^ 64)
    ∧ (∀ op, ∃ v : Word, exec (.supDiv x op rd ra rb) s = .next (wrote s x.t rd v) ∧
      let low := a.toInt = -2 ^ 63 ∧ b.toInt = -1
      match op with
      | .div => v.toInt = if b.toInt = 0 then -1 else if low then -2 ^ 63 else a.toInt.tdiv b.toInt
      | .divu => v.toNat = if b.toNat = 0 then 2 ^ 64 - 1 else a.toNat / b.toNat
      | .rem => v.toInt = if b.toInt = 0 then a.toInt else if low then 0 else a.toInt.tmod b.toInt
      | .remu => v.toNat = if b.toNat = 0 then a.toNat else a.toNat % b.toNat)

/-- Loads, stores, atomics and presence instructions of the supervisor cores (R258, R283, R284, R285, R291, R294,
R309, R310). -/
def Obligations.SupMemoryInstructions : Prop :=
  ∀ (s : State) (x : Sup), supReady s x false false = true → let t := x.t; let th := s.thr t
    let exc (code addr : Nat) := raiseSync t code addr true x.frameBad s; let init := 0x50 + t / 2
    (∀ rd ra off size sx, let a := ((gRead th ra).toNat + off) % 2 ^ 64; let i (e : Ecc) := Instr.supLoad x rd ra off size sx e
      let wait := s.updThr t fun th => { th with loading := true }
      (a % size ≠ 0 → ∀ e, exec (i e) s = .next (exc 0x06 a))
      ∧ (a % size = 0 → (allowed s t .read a = false → ∀ e, exec (i e) s = .next (exc 0x04 a))
        ∧ (allowed s t .read a = true → match placeOf (t / 2) a with
          | .mem p => exec (i .ok) s = .next (wrote s t rd (extend size sx (memNat s.mem p size)))
            ∧ exec (i .corrected) s = .next (wrote (supMemErr 3 p s) t rd (extend size sx (memNat s.mem p size)))
            ∧ exec (i .uncorrectable) s = .next (raiseSync t 0x08 a true x.frameBad (supMemErr 4 p s))
          | .rom o => ∀ e, exec (i e) s = .next (wrote s t rd (extend size sx (romNat o size)))
          | .host h => ∀ e, exec (i e) s = .next (wrote (emitOut (.hostRead 0 h size) { s with free := s.free + 1 }) t rd
              (extend size sx (Config.freeValue s.free).toNat))
          | .none => ∀ e, exec (i e) s = .next (exc 0x07 a)
          | .scratch d => ∀ e st port, addrStation d = some (st, port) → exec (i e) s = .next
              (request 24 st port 0x19 init (d / 16 * 16) [1] (.core t a rd size sx) wait)
          | .reg d => ∀ e st port, addrStation d = some (st, port) → exec (i e) s = .next
              (request 24 st port 0x40 init d [size] (.core t a rd size sx) wait)
          | .store d => ∀ e st port, addrStation d = some (st, port) → exec (i e) s = .next
              (request 24 st port 0x40 init d [size] (.core t a rd size sx) wait))))
    ∧ (∀ rs ra off size, let a := ((gRead th ra).toNat + off) % 2 ^ 64; let v := (gRead th rs).toNat
      let i := Instr.supStore x rs ra off size; let fin (u : State) := retire t nextPc u
      let out := s.updThr t fun th => { th with stores := th.stores + 1 }
      (a % size ≠ 0 → exec i s = .next (exc 0x06 a))
      ∧ (a % size = 0 → (allowed s t .write a = false → exec i s = .next (exc 0x05 a))
        ∧ (allowed s t .write a = true → match placeOf (t / 2) a with
          | .mem p => exec i s = .next (fin { s with mem := memWrite s.mem p (natBytes size v) })
          | .rom _ => exec i s = .next (exc 0x05 a)
          | .host h => exec i s = .next (fin (emitOut (.host 0 h (natBytes size v)) s))
          | .none => exec i s = .next (fin (s.updThr t fun th => { th with busErr := some (th.busErr.getD a) }))
          | .scratch d => ∀ st port, addrStation d = some (st, port) → (8 ≤ th.stores → exec i s = .next s)
            ∧ (th.stores < 8 → exec i s = .next (fin (request 24 st port 0x1A init (d / 16 * 16)
              [storeUnit v size (d % 16) 16] (.coreStore t a) out)))
          | .reg d => ∀ st port, addrStation d = some (st, port) → (8 ≤ th.stores → exec i s = .next s)
            ∧ (th.stores < 8 → exec i s = .next (fin (request 24 st port 0x41 init d [storeUnit v size 0 8] (.coreStore t a) out)))
          | .store d => ∀ st port, addrStation d = some (st, port) → (8 ≤ th.stores → exec i s = .next s)
            ∧ (th.stores < 8 → exec i s = .next (fin (request 24 st port 0x41 init d [storeUnit v size 0 8] (.coreStore t a) out))))))
    ∧ (∀ op rd ra rb, let a := (gRead th ra).toNat; let i := Instr.supAtomic x op rd ra rb
      (a % 8 ≠ 0 → exec i s = .next (exc 0x06 a))
      ∧ (a % 8 = 0 → (allowed s t .read a = false → exec i s = .next (exc 0x04 a))
        ∧ (allowed s t .read a = true → (allowed s t .write a = false → exec i s = .next (exc 0x05 a))
          ∧ (allowed s t .write a = true → ∀ p, placeOf (t / 2) a = .mem p → let v := if x.data = .corrected then supMemErr 3 p s else s
            let old := BitVec.ofNat 64 (memNat v.mem p 8)
            let new : Word := match op with
              | .swap => gRead th rb
              | .cas => if old = gRead th rd then gRead th rb else old
              | .fadd => old + gRead th rb
            (x.data = .uncorrectable → exec i s = .next (raiseSync t 0x08 a true x.frameBad (supMemErr 4 p s)))
            ∧ (x.data ≠ .uncorrectable →
              exec i s = .next (wrote { v with mem := memWrite v.mem p (natBytes 8 new.toNat) } t rd old))))))
    ∧ (∀ op rd ra rs box, let a := (gRead th ra).toNat; let i := Instr.supPresence x op rd ra rs box
      let reads := op = .ird ∨ op = .mtk; let b := (a - 0x100000000) / 2 ^ 20
      let cmd := match op with | .ird => 0x14 | .iwr => 0x15 | .iclr => 0x16 | .mtk => 0x17 | .mpt => 0x18
      (a % 8 ≠ 0 → exec i s = .next (exc 0x06 a))
      ∧ (a % 8 = 0 → (reads → allowed s t .read a = false → exec i s = .next (exc 0x04 a))
        ∧ ((reads → allowed s t .read a = true) → (op ≠ .ird → allowed s t .write a = false → exec i s = .next (exc 0x05 a))
          ∧ (op ≠ .ird → 0x0E000000 ≤ a → a < 0x0E010000 → exec i s = .next (exc 0x05 a))
          ∧ ((op ≠ .ird → allowed s t .write a = true) → 0x100000000 ≤ a → a < 0x102000000 → exec i s = .next
            (request 24 (bgStation b) (b % 8) cmd init a (if op = .iwr ∨ op = .mpt then [(gRead th rs).toNat] else [])
              (.corePres t a rd box) (s.updThr t fun th => { th with loading := true }))))))
    ∧ (∀ u addr, ((s.stn 24).pend.find? (·.asker == .coreStore u addr) = none → exec (.storeBuserr u addr) s = .next s)
      ∧ ∀ q, (s.stn 24).pend.find? (·.asker == .coreStore u addr) = some q → exec (.storeBuserr u addr) s = .next
        ((s.updStn 24 fun y => { y with pend := eraseFirst q y.pend }).updThr u fun th =>
          { th with stores := th.stores - 1, busErr := some (th.busErr.getD addr), waiting := false }))

/-- Branches, loops, control registers and ring transfers of the supervisor cores (R286, R287, R289, R293, R294, R298,
R300, R301, R302, R309, R445). -/
def Obligations.SupControlInstructions : Prop :=
  ∀ (s : State) (x : Sup), let t := x.t; let th := s.thr t
    let exc (code addr : Nat) (u : State) := raiseSync t code addr true x.frameBad u
    (supReady s { x with reserved := false } false false = true → x.reserved = true →
      exec (.fence x) s = .next (exc 0x01 th.pc s) ∧ exec (.wait x) s = .next (exc 0x01 th.pc s))
    ∧ (supReady s x true false = true → ∀ op ra rb target, let a := gRead th ra; let b := gRead th rb
      let i := Instr.supBranch x op ra rb target
      let dst := if op = .jr ∨ op = .jalr then a.toNat else target % 2 ^ 64
      let taken := match op with
        | .beq => decide (a = b)
        | .bne => decide (a ≠ b)
        | .blt => decide (a.toInt < b.toInt)
        | .bge => decide (b.toInt ≤ a.toInt)
        | .bltu => decide (a.toNat < b.toNat)
        | .bgeu => decide (b.toNat ≤ a.toNat)
        | _ => true
      let linked := if op = .jal ∨ op = .jalr then s.updThr t fun th => gWrite th 30 (BitVec.ofNat 64 (th.pc + 8)) else s
      (op = .jalr → ra = 30 → exec i s = .next (exc 0x01 th.pc s))
      ∧ (¬ (op = .jalr ∧ ra = 30) → (taken = true → dst % 4 ≠ 0 → exec i s = .next (exc 0x06 dst s))
        ∧ (taken = true → dst % 4 = 0 → exec i s = .next
          (retire t (fun th => { th with pc := th.pc + 4, slot := some (th.pc, dst, true) }) linked))
        ∧ (taken = false → exec i s = .next
          (retire t (fun th => { th with pc := th.pc + 4, slot := some (th.pc, dst, false) }) linked))))
    ∧ (supReady s x false true = true → ∀ lend,
      (∀ rc, let n := (gRead th rc).toNat; let bad := th.lcount ≠ 0 ∨ lend < th.pc + 4 ∨ n = 0
        (bad → exec (.supLoop x lend rc) s = .next (exc 0x0D th.pc s))
        ∧ (¬ bad → exec (.supLoop x lend rc) s = .next (retire t nextPc
          (s.updThr t fun y => { y with lstart := th.pc + 4, lend := lend, lcount := n }))))
      ∧ (∀ count, let n := count % 2 ^ 64; let bad := th.lcount ≠ 0 ∨ lend < th.pc + 4 ∨ n = 0
        (bad → exec (.loopi x lend count) s = .next (exc 0x0D th.pc s))
        ∧ (¬ bad → exec (.loopi x lend count) s = .next (retire t nextPc
          (s.updThr t fun y => { y with lstart := th.pc + 4, lend := lend, lcount := n })))))
    ∧ (supReady s x false false = true →
      (∀ rd n, (ctlRead s t n = none → exec (.crd x rd n) s = .next (exc 0x01 th.pc s))
        ∧ ∀ v r, ctlRead s t n = some (v, r) → (r < th.ring → exec (.crd x rd n) s = .next (exc 0x02 th.pc s))
          ∧ (th.ring ≤ r → exec (.crd x rd n) s = .next (wrote s t rd (BitVec.ofNat 64 v))))
      ∧ (th.stores = 0 → exec (.fence x) s = .next (retire t nextPc s))
      ∧ (th.stores ≠ 0 → exec (.fence x) s = .next s)
      ∧ exec (.wait x) s = .next (retire t nextPc (s.updThr t fun y => { y with waiting := !eventPending y }))
      ∧ (rd s F.dbgCtlAttach ≠ 1 → exec (.supBreak x) s = .next (exc 0x0C th.pc s))
      ∧ (rd s F.dbgCtlAttach = 1 → exec (.supBreak x) s = .next (debugHalt (t / 2) (retire t nextPc s))))
    ∧ (∀ n rs, supReady s x false (n == 0) = true → let v := (gRead th rs).toNat
        (ctlRead s t n = none → exec (.cwr x n rs) s = .next (exc 0x01 th.pc s))
        ∧ (ctlRead s t n ≠ none → (ctlWriteRing n = none → exec (.cwr x n rs) s = .next (exc 0x02 th.pc s))
          ∧ ∀ r, ctlWriteRing n = some r → (r < th.ring → exec (.cwr x n rs) s = .next (exc 0x02 th.pc s))
            ∧ (th.ring ≤ r → (ctlWrite t n v s = none → exec (.cwr x n rs) s = .next (exc 0x01 th.pc s))
              ∧ ∀ u, ctlWrite t n v s = some u → exec (.cwr x n rs) s = .next (retire t nextPc u))))
    ∧ (supReady s x false true = true →
      (∀ imm, exec (.trap x imm) s = .next (exc 0x0B (imm % 65536) s))
      ∧ (∀ imm, let n := imm % 4096; let r := gateReason s t n; let at_ := th.gtbase + 16 * n
        (x.data = .ok ∨ th.gtcount ≤ n → r ≠ 0 → exec (.gate x imm) s = .next (exc 0x09 (n + r * 2 ^ 32) s))
        ∧ (∀ p, n < th.gtcount → x.data = .uncorrectable → placeOf (t / 2) at_ = .mem p →
          exec (.gate x imm) s = .next (exc 0x08 at_ (supMemErr 4 p s)))
        ∧ ∀ g tr cm ok, x.data = .ok → r = 0 → gateEntry s t n = (g, tr, cm, ok) → let sp := th.sp.getD tr 0 - 48
          (x.frameBad = false → exec (.gate x imm) s = .next (retire t (fun y => { y with pc := g, slot := none })
            ((writeFrame (t / 2) sp [th.pc + 4, statusWord th, th.sp.getD th.ring 0, th.lcount, th.lstart, th.lend] s).updThr t
              fun y => { setSp y tr sp with ring := tr, lcount := 0 })))
          ∧ (x.frameBad = true → ∃ c, exec (.gate x imm) s = .next (faultHalt t 4 c { s with free := s.free + 1 })))
      ∧ (let sp := th.sp.getD th.ring 0; let asks : State := s.updThr t fun y => { y with loading := true }
        let bus (rete : Bool) (i : Instr) : Prop := ∀ d st port, readFrame s t (if rete then 10 else 6) = .bus →
          placeOf (t / 2) sp = .scratch d → addrStation d = some (st, port) → exec i s = .next
            (request 24 st port 0x19 (0x50 + t / 2) (d / 16 * 16) [1] (.coreFrame t rete []) asks)
        ((∀ c a, readFrame s t 6 = .exc c a → exec (.gret x) s = .next (exc c a s)) ∧ bus false (.gret x)
          ∧ ∀ ws, readFrame s t 6 = .words ws →
            (∀ p, x.data = .uncorrectable → placeOf (t / 2) sp = .mem p → exec (.gret x) s = .next (exc 0x08 sp (supMemErr 4 p s)))
            ∧ (x.data = .ok → let ring := ws.getD 1 0 % 4
              (ring < th.ring → exec (.gret x) s = .next
                (exc 0x09 ((Config.freeValue s.free).toNat % 4096 + 6 * 2 ^ 32) { s with free := s.free + 1 }))
              ∧ (th.ring ≤ ring → exec (.gret x) s = .next (retire t (fun y => { y with pc := ws.getD 0 0, slot := none })
                (s.updThr t fun y => { setSp y y.ring (y.sp.getD y.ring 0 + 48) with
                  ring := ring, lcount := ws.getD 3 0, lstart := ws.getD 4 0, lend := ws.getD 5 0 })))))
        ∧ ((2 ≤ th.ring → exec (.rete x) s = .next (exc 0x02 th.pc s))
          ∧ (th.ring < 2 → (∀ c a, readFrame s t 10 = .exc c a → exec (.rete x) s = .next (exc c a s)) ∧ bus true (.rete x)
            ∧ ∀ ws, readFrame s t 10 = .words ws →
              (∀ p, x.data = .uncorrectable → placeOf (t / 2) sp = .mem p →
                exec (.rete x) s = .next (exc 0x08 sp (supMemErr 4 p s)))
              ∧ (x.data = .ok → let est := ws.getD 1 0; let resc := (ws.getD 2 0).testBit 14
                (est % 4 < th.ring → exec (.rete x) s = .next (exc 0x02 th.pc s))
                ∧ (th.ring ≤ est % 4 → est / 16 % 16 = 15 → exec (.rete x) s = .next (exc 0x01 th.pc s))
                ∧ (th.ring ≤ est % 4 → est / 16 % 16 ≠ 15 → exec (.rete x) s = .next
                  (retire t (fun y => { y with pc := ws.getD 0 0, slot := none })
                    (s.updThr t fun y => { setSp y y.ring (if resc then ws.getD 8 0 else y.sp.getD y.ring 0 + 80) with
                      ring := est % 4, mask := est / 16 % 16, inRescue := y.inRescue && !resc,
                      lcount := ws.getD 5 0, lstart := ws.getD 6 0, lend := ws.getD 7 0 }))))))))

/-- Exceptions, interrupts and the control of supervisor cores (R276, R287, R290, R294, R295, R296, R297, R298, R305,
R306, R307). -/
def Obligations.SupExceptionsAndControl : Prop :=
  (∀ (s : State) (t : Nat), let th := s.thr t
    (∀ code eaddr insn, let v := vectorOf s t code; let tr := min v.ring th.ring; let sp := th.sp.getD tr 0
      let late := v.level ≤ th.mask; let level := if late then th.mask + 1 else v.level
      let epc := match th.slot with | some (b, _, _) => b | none => th.pc
      let cause := code + level * 2 ^ 8 + (if th.slot = none then 0 else 2 ^ 12) + (if late then 2 ^ 13 else 0)
      th.mask < 15 → v.valid = true → stackOk s (t / 2) tr sp 80 = true →
      takeSync t code eaddr insn false s = (writeFrame (t / 2) (sp - 80) [epc, statusWord th, cause, eaddr, th.sp.getD th.ring 0,
          th.lcount, th.lstart, th.lend, 0, insn] s).updThr t fun y =>
        { y with sp := y.sp.set tr ((sp - 80) % 2 ^ 64), ring := tr, mask := level, lcount := 0, pc := v.handler, slot := none,
                 loading := false, waiting := false, stepping := false })
    ∧ (∀ code eaddr insn bad, th.mask = 15 → ∃ c, takeSync t code eaddr insn bad s = faultHalt t 2 c s ∧ c % 2 ^ 8 = code % 2 ^ 8
      ∧ c / 2 ^ 8 % 16 = (code / 2 ^ 8 + 15) % 16)
    ∧ (s.up 6 = true →
      (∀ bad, (threadRuns s t = false ∨ th.slot ≠ none ∨ th.loading = true ∨ nextEvent s t = none →
          exec (.interruptTake t bad) s = .next s)
        ∧ ∀ code level, threadRuns s t = true → th.slot = none → th.loading = false → nextEvent s t = some (code, level) →
          exec (.interruptTake t bad) s = .next (enter t ⟨code, level,
            if code = 0x07 then th.busErr.getD 0 else if code = 0x10 then th.peerHalt else 0, th.pc, false, false,
            code == 0x07, 0⟩ (vectorOf s t code) bad (s.updThr t (takenEvent code))))
      ∧ (∀ n, (n < 34 ∧ rd s (F.fltpendPend n) ≠ 0 ∨ n = 38 → exec (.irqDeliver n) s = .next (raiseIrq n s))
        ∧ (¬ (n < 34 ∧ rd s (F.fltpendPend n) ≠ 0 ∨ n = 38) → exec (.irqDeliver n) s = .next s))
      ∧ (let due := t < 8 ∧ s.deviceHalted = false ∧ (coreState s (t / 2) = 1 ∨ coreState s (t / 2) = 2) ∧ th.wdog ≠ 0
          ∧ 4096 * th.wdog ≤ 3 * (s.now - th.wdogSince)
        let u := event 15 1 t (s.updThr t fun y => { y with wdogSince := s.now })
        (¬ due → exec (.watchdogExpire t) s = .next s)
        ∧ (due → th.mask = 15 → exec (.watchdogExpire t) s = .next (faultHalt t 3 0xF0F u))
        ∧ (due → th.mask ≠ 15 → exec (.watchdogExpire t) s = .next
          (u.updThr t fun y => { y with wdogPend := true, waiting := false })))))
  ∧ (∀ (s : State) (init c : Nat), s.up 6 = true → let may := init = 0x10 ∨ (0x50 ≤ init ∧ init ≤ 0x53)
    (may → ∀ m, exec (.supIpi init m) s = .next (forAll ((List.range 4).filter m.testBit) (fun c => raiseIrq (39 + c)) s))
    ∧ (may → c < 4 → let u := movePend c (put (dropAccesses c (abandonLocks (fun h => h / 256 == 0x50 + c) s))
          (F.supCorestatState c) 0)
      let v := putSat (put (clearCore c u) (F.supCorestatHaltwhy c) 0) (F.supCorestatRestarts c) 1
      exec (.coreReset init c) s = .next (haltIfNone (put v (F.supCorestatState c) (if rd v (F.supCorectlRun c) = 1 then 2 else 1))))
    ∧ (may → c < 4 → ∀ run thr1, let u := put (put s (F.supCorectlRun c) (bit run)) (F.supCorectlThr1en c) (bit thr1)
      (coreState s c = 1 ∨ coreState s c = 2 → exec (.coreRunWrite init c run thr1) s = .next
        (haltIfNone (put u (F.supCorestatState c) (runState u c))))
      ∧ (coreState s c ≠ 1 → coreState s c ≠ 2 → exec (.coreRunWrite init c run thr1) s = .next u))
    ∧ (let cores (p : Nat → Bool) := (List.range 4).any fun k => p (rd s (F.supCorestatState k))
      haltIfNone s = if cores (fun v => v == 2 || v == 4) = false ∧ cores (fun v => v == 0 || v == 3) = true
          ∧ s.deviceHalted = false then haltStops (abortBy 1 (fun _ => true) s) else s)
    ∧ (¬ may → ∀ row ∈ [Instr.supIpi init 15, .coreReset init c, .coreRunWrite init c true true], exec row s = .next s))

/-- Power states of domains (R239, R405, R406, R407, R408, R409, R410, R411). -/
def Obligations.DomainPower : Prop :=
  (∀ (s : State) (d : Nat), s.up 5 = true →
    (24 ≤ d ∨ rd s (F.pwrDomstatState d) ≠ 0 ∨ domPhase s d ≠ .steady → exec (.idleWindow d) s = .next s)
    ∧ (d < 24 → rd s (F.pwrDomstatState d) = 0 → domPhase s d = .steady →
      (d = 23 → (auxOff s d = true → exec (.idleWindow d) s = .next (put s (F.pwrDomstatState d) 4))
        ∧ (auxOff s d = false → exec (.idleWindow d) s = .next s))
      ∧ (20 ≤ d → d ≠ 23 → (auxOff s d = true → exec (.idleWindow d) s = .next (setDomPhase d (.fenced 4)
          (put s (F.rngParkFence (stationOfDom d)) 1)))
        ∧ (auxOff s d = false → exec (.idleWindow d) s = .next s))
      ∧ (d < 20 → let u := noteEvent d s; let code := selectState u d; let v := put u (F.pwrDomstatNext d) code
        let fenced := put v (F.rngParkFence (stationOfDom d)) 1
        (code ≤ depthOf u d ∧ code ≤ 4 ∧ (govLimited u d = true → code ≤ 1) ∧ (code ≠ 0 → entryOk u d code = true))
        ∧ (code = 0 → exec (.idleWindow d) s = .next v)
        ∧ (code = 1 ∨ code = 2 → exec (.idleWindow d) s = .next (enterState d code v))
        ∧ (code = 3 ∨ (code = 4 ∧ 16 ≤ d) ∨ (code = 4 ∧ rd v (F.pwrDepthMnpol d) = 1) →
          exec (.idleWindow d) s = .next (setDomPhase d (.fenced code) fenced))
        ∧ (code = 4 → d < 16 → rd v (F.pwrDepthMnpol d) ≠ 1 → exec (.idleWindow d) s = .next
          (setDomPhase d (.fenced (if (spillAll d v).2 then 4 else 3)) (spillAll d v).1)))))
  ∧ (∀ (s : State) (d : Nat), s.up 5 = true → let st := stationOfDom d
    (∀ t, domPhase s d = .fenced t → (openReqs s d ≠ 0 → exec (.domainCloseBegin d) s = .next s)
      ∧ (openReqs s d = 0 → (stillIdle s d t = true → exec (.domainCloseBegin d) s = .next
          (setDomPhase d (.closing t) (put (put s (F.rngParkFence st) 1) (F.rngParkClosed st) 1)))
        ∧ (stillIdle s d t = false → exec (.domainCloseBegin d) s = .next
          (reinject (setDomPhase d .steady (put s (F.rngParkFence st) 0))))))
    ∧ (∀ t, domPhase s d = .closing t → t ≠ 4 → let u := setDomPhase d .steady (enterState d t s)
      (parkedAt u st = true → exec (.domainCloseDone d) s = .next (wakeNow d u))
      ∧ (parkedAt u st = false → exec (.domainCloseDone d) s = .next u))
    ∧ (domPhase s d = .closing 4 → d < 16 → let u := setDomPhase d .steady (enterState d 4 s)
      let v := loseCluster d (if rd u (F.pwrDepthMnpol d) = 1 then discardAll d u else u)
      exec (.domainCloseDone d) s = .next (if parkedAt v st then wakeNow d v else v))
    ∧ (domPhase s d = .closing 4 → 16 ≤ d → d < 20 → let u := setDomPhase d .steady (enterState d 4 s)
      let v := put (forAll (groupBanks (d - 16)) (fun b w => clearBank (physBank w b) w) u) F.sbInitDone
        ((groupBanks (d - 16)).foldl (fun m b => m - (m &&& 2 ^ b)) (rd u F.sbInitDone))
      exec (.domainCloseDone d) s = .next (if parkedAt v st then wakeNow d v else v))
    ∧ (20 ≤ d → domPhase s d = .closing 4 → let u := setDomPhase d .steady (enterState d 4 s)
      exec (.domainCloseDone d) s = .next (if parkedAt u st then wakeNow d u else u))
    ∧ (domPhase s d ≠ .waking → exec (.domainWakeDone d) s = .next s)
    ∧ (domPhase s d = .waking → let was := rd s (F.pwrDomstatState d); let u := enterState d 0 (setDomPhase d .steady s)
      (16 ≤ d → (d < 20 → was ≠ 4) → exec (.domainWakeDone d) s = .next u)
      ∧ (16 ≤ d → d < 20 → was = 4 → exec (.domainWakeDone d) s = .next (put u F.sbInitDone
        (rd u F.sbInitDone ||| (groupBanks (d - 16)).foldl (fun m b => m + 2 ^ b) 0)))
      ∧ (d < 16 → was < 3 → exec (.domainWakeDone d) s = .next (oppointDone d u))
      ∧ (d < 16 → 3 ≤ was → let v := oppointDone d (forAll (List.range 17) (fun i => (State.updPe · (d * 17 + i) fun p =>
            { p with lwc := [] })) u)
        (was ≠ 4 → exec (.domainWakeDone d) s = .next v)
        ∧ (was = 4 → exec (.domainWakeDone d) s = .next (setDomPhase d .refilling v))))
    ∧ (d < 16 → (domPhase s d ≠ .refilling → exec (.filterReloadDone d) s = .next s)
      ∧ (domPhase s d = .refilling → exec (.filterReloadDone d) s = .next (setDomPhase d .steady
        (forAll (List.range 16) (fun l u => u.updPe (peKey u (d * 16 + l)) fun p =>
          { p with filter := reloaded u d l }) s))))
    ∧ (d < 23 → rd s (F.pwrDomstatState d) = 0 → rd s (F.rngParkClosed st) = 1 →
      (domPhase s d = .steady ∨ domPhase s d = .refilling) → let x := s.stn st
      let ps := (x.parkTok ++ x.parkReq ++ x.parkMgt).map fun p => { p with epoch := unparked }
      let u := s.setStn st { x with parkTok := [], parkReq := [], parkMgt := [] }
      exec (.domainReopen d) s = .next (reinject (put (put { u with net := ps ++ s.net } (F.rngParkClosed st) 0)
        (F.rngParkFence st) 0)))
    ∧ (d < 20 → ∀ init val, let w := writePlain s 1 (0x100 + 4 * d) val; let u := if w.2 then cfgErr 1 w.1 else w.1
      (depthOf u d < sleepState u d → exec (.pwrDepthWrite init d val) s = .next (wakeNow d u))
      ∧ (sleepState u d ≤ depthOf u d → exec (.pwrDepthWrite init d val) s = .next u))
    ∧ (d < 20 → sleepState s d ≠ 0 →
      (wakeDue s d = none → exec (.wakeRequest d) s = .next s)
      ∧ ∀ e, wakeDue s d = some e → exec (.wakeRequest d) s = .next (requestWake d e s)))

/-- The wake ledger, and the snapshot of counters (R154, R403, R411, R412, R413, R415, R417). -/
def Obligations.LedgerAndCounters : Prop :=
  (∀ (s : State), s.up 5 = true → let u := { s with admitted := s.admitted.filter fun a => (ramping s).contains a || (inWindow s).contains a }
    (s.deviceHalted = true ∨ s.activeCauses.contains 4 = true → exec .ledgerAdmit s = .next s)
    ∧ (s.deviceHalted = false → s.activeCauses.contains 4 = false →
      (∃ l : List WakeReq, l.Perm s.ledger ∧ l.Pairwise (fun a b => a.at_ < b.at_ ∨ (a.at_ = b.at_ ∧ a.dom ≤ b.dom))
        ∧ exec .ledgerAdmit s = .next (admitAll l u))
      ∧ (∀ r, s.ledger = [r] → (closing s r.dom = true → r.dvfs = false → exec .ledgerAdmit s = .next u)
        ∧ (closing s r.dom = false ∨ r.dvfs = true → fitsBudget u r = true → exec .ledgerAdmit s = .next (admitReq r u))
        ∧ (closing s r.dom = false ∨ r.dvfs = true → fitsBudget u r = false → ∃ t, exec .ledgerAdmit s = .next t ∧ t.ledger = [{ r with counted := true }]
          ∧ rd t F.pwrLedgerDeferred = min (rd s F.pwrLedgerDeferred + (if r.counted then 0 else 1)) 0xFFF)))
    ∧ (∀ r, slewOf s = (0, 1) → qwin s = 0 → fitsBudget s r = true)
    ∧ (∀ cl, let cfg (f : Nat → Fld) := rd s (f cl); let ph := mget OpPhase.none s.opPhase cl
      let done := oppointDone cl s
      (ph = .volt → cfg F.clClkstatFreq = cfg F.clClkcfgFreq → exec (.voltageReached cl) s = .next done)
      ∧ (ph = .volt → cfg F.clClkstatFreq ≠ cfg F.clClkcfgFreq → exec (.voltageReached cl) s = .next
        (setOpPhase cl .relock (put s (F.clClkstatVolt cl) (cfg F.clClkcfgVolt))))
      ∧ (ph = .lowerVolt → exec (.voltageReached cl) s = .next done)
      ∧ (ph = .relock → exec (.oppointRelockDone cl) s = .next done)
      ∧ (ph = .lower → cfg F.clClkstatVolt = cfg F.clClkcfgVolt → exec (.oppointRelockDone cl) s = .next done)
      ∧ (ph = .lower → cfg F.clClkstatVolt ≠ cfg F.clClkcfgVolt → exec (.oppointRelockDone cl) s = .next
        (setOpPhase cl .lowerVolt (put s (F.clClkstatFreq cl) (cfg F.clClkcfgFreq))))))
  ∧ (∀ (s : State), (s.up 3 = true →
      (rd s F.statStatusBusy = 1 → exec .statSnap s = .next (cfgErr 7 s))
      ∧ (rd s F.statStatusBusy ≠ 1 →
        let a := put (put s F.statStatusBusy 1) F.statSeqSeq (rd s F.statSeqSeq + 1)
        let b := put (put a F.statPhloPhase (phase0 s % 2 ^ 32)) F.statPhhiPhase (phase0 s / 2 ^ 32)
        exec .statSnap s = .next (put (put { b with snapStep := 1, snapAt := s.now } F.statTickloTick (tick s % 2 ^ 32))
          F.statTickhiTick (tick s / 2 ^ 32)))
      ∧ (s.snapStep = 0 → exec .snapshotSwap s = .next s)
      ∧ (s.snapStep ≠ 0 → ∃ t, exec .snapshotSwap s = .next t ∧ t.snapStep = 0 ∧ rd t F.statStatusBusy = 0
        ∧ t.snapshot = (if s.snapStep = 1 then (latch s).latched else s.latched) ∧ t.latched = (if s.snapStep = 1 then (latch s) else s).snapshot)
      ∧ ∀ bad corr gates, exec (.phaseTick bad corr gates) s = .next (recompute (strobe (changeoverTick (phaseTickEff bad corr gates s)))))
    ∧ (s.up 3 = false → ∀ bad corr gates,
      (s.dawn = .unpowered → exec (.phaseTick bad corr gates) s = .next s)
      ∧ (s.dawn ≠ .unpowered → exec (.phaseTick bad corr gates) s = .next { s with now := s.now + 8 })))

/-- Resets and the Dawn sequence (R15, R32, R398, R403, R418, R419, R420, R423, R430, R431, R434, R468). -/
def Obligations.ResetsAndDawn : Prop :=
  ((∀ s : State, let k := powerReset s
    (k.variant, k.stepping, k.lifecycle, k.svnFloor, k.fwKeyHash, k.identityOk, k.pins, k.stored, k.mapRecs, k.lifetime, k.cfgRec)
      = (s.variant, s.stepping, s.lifecycle, s.svnFloor, s.fwKeyHash, s.identityOk, s.pins, s.stored, s.mapRecs, s.lifetime, s.cfgRec)
    ∧ (k.regs, k.shadow, k.ctxs, k.pes, k.sessions, k.threads, k.images, k.net, k.now, k.locked)
      = (State.reset.regs, State.reset.shadow, State.reset.ctxs, State.reset.pes, State.reset.sessions, State.reset.threads,
          State.reset.images, State.reset.net, State.reset.now, State.reset.locked)
    ∧ (∀ a, 0x200000000 ≤ a → a < 0x204000000 → memGet k.mem a = memGet s.mem a)
    ∧ (∀ a, a < 0x200000000 ∨ 0x204000000 ≤ a → memGet k.mem a = 0))
  ∧ (∀ (s : State) (cause : Nat), let k := devReset cause s
    k.now = s.now ∧ k.mem = (powerReset s).mem ∧ k.sessions = State.reset.sessions
    ∧ rd k F.genResetcauseCause = cause % 4 ∧ rd k F.genResetcauseCount = min (rd s F.genResetcauseCount + 1) 0xFFFF % 2 ^ 16
    ∧ rd k F.dbgPortstatAuthfails = rd s F.dbgPortstatAuthfails % 2 ^ 8 ∧ rd k F.dbgPortstatLocked = rd s F.dbgPortstatLocked % 2)
  ∧ (∀ (s : State) (cause : Nat), ∀ k ∈ [powerReset s, devReset cause s],
    tripletTerm k = false ∧ cnvTerm k = false ∧ (∀ n, cnvOutPins k n = .highZ ∧ driveEnPin k n = .highZ ∧ spanPins k n = .highZ)
    ∧ abortOutPin k = .highZ ∧ alertPin k = .highZ ∧ pciePins k = .highZ ∧ wakePin k = .highZ ∧ gpioPins k = .highZ)
  ∧ (∀ s : State, let pin (k v : Nat) (u : State) : State := { u with pins := mset 0 u.pins k v }
    (s.dawn = .unpowered → exec .powerOn s = .next { pin 1 1 (pin 0 1 s) with dawn := .step 1 })
    ∧ (s.dawn ≠ .unpowered → exec .powerOn s = .next s)
    ∧ exec .pgoodFall s = .next (pin 0 0 (powerReset s)) ∧ exec .vddaoLoss s = .next (powerReset s)
    ∧ (s.dawn = .unpowered → exec .resetNAssert s = .next (pin 1 0 s))
    ∧ (s.dawn ≠ .unpowered → s.dawn ≠ .held → exec .resetNAssert s = .next { pin 1 0 (devReset 1 s) with dawn := .held })
    ∧ (s.dawn = .held → exec .resetNAssert s = .next s)
    ∧ (s.dawn = .held → exec .resetNRelease s = .next { pin 1 1 s with dawn := .step 1 })
    ∧ (s.dawn ≠ .held → exec .resetNRelease s = .next (pin 1 1 s))
    ∧ ∀ init key, s.up 3 = true → let may := (init = 0x10 ∨ (0x50 ≤ init ∧ init ≤ 0x53)) ∧ key % 65536 = 0x9400 ∧ s.deviceHalted = false
      (may → exec (.genDevreset init key) s = .next { devReset 2 s with dawn := .step 1 })
      ∧ (¬ may → exec (.genDevreset init key) s = .next s)))
  ∧ (∀ (s : State),
    (s.dawn = .step 1 → exec .dawnPllLocked s = .next { forAll [1, 2, 3, 4] (fun k u => clockBit k true u) s with dawn := .step 2 })
    ∧ (s.dawn ≠ .step 1 → exec .dawnPllLocked s = .next s)
    ∧ (s.dawn = .step 2 → exec .dawnMramReady s = .next
      { put (forAll s.mapRecs applyMap s) F.repMapusedRecords s.mapRecs.length with dawn := .step 3 })
    ∧ (s.dawn = .step 2 → tripletTerm s = false ∧ ∀ t, exec .dawnMramReady s = .next t → tripletTerm t = true)
    ∧ (s.dawn ≠ .step 2 → exec .dawnMramReady s = .next s)
    ∧ (∀ bs u, (fieldLe bs 12 4 ≠ crc32c (bs.take 12) ∨ bs.length ≠ 16) → applyMap bs u = event 33 4 0 u)
    ∧ (s.dawn = .step 3 → let a := if s.cfgRec = none then event 0 1 0 s else s
      let b := idxDawn (put a F.secStatusIdv (bit s.identityOk))
      let p := match s.cfgRec with | some c => c.profDef | none => 0
      let c := put (measure 5 0 0 (leBytes 8 (Config.freeValue b.free).toNat) { b with free := b.free + 1 }) F.genProfileSel p
      let d := sampleProfile c
      let e := measure 6 (rd d F.genProfstatActive) 0 (List.replicate 32 0) (enterProfile (profA d) d)
      exec .dawnCoreCleared s = .next { put e (F.pwrDomstatState 23) (if perstHigh s then 0 else 4) with dawn := .step 4 })
    ∧ (s.dawn ≠ .step 3 → exec .dawnCoreCleared s = .next s)
    ∧ (s.dawn = .step 4 → ∃ t, exec .dawnDomainsRun s = .next t ∧ t.dawn = .step 6 ∧ rd t F.sbInitDone = 2 ^ 32 - 1
      ∧ (∀ d, d < 20 → rd t (F.pwrDomstatState d) = 0) ∧ (∀ d, 20 ≤ d → d < 23 → rd t (F.pwrDomstatState d) = 4)
      ∧ (∀ c, c < 4 → rd t (F.supCorestatState c) = (if rd s (F.supCorectlRun c) = 1 then 2 else 1)))
    ∧ (s.dawn ≠ .step 4 → exec .dawnDomainsRun s = .next s))

/-- FIRMWARE_BOOT and SEC_RECOVCTL_GO (R427, R428, R430, R434, R438). -/
def Obligations.BootAndRecovery : Prop :=
  ∀ (s : State),
    (s.dawn ≠ .step 6 ∨ s.recovery = true ∨ coreState s 0 ≠ 2 → exec .firmwareBoot s = .next s)
    ∧ (s.dawn = .step 6 → s.recovery = false → coreState s 0 = 2 → let r := cfgOf s
      let r' := if r.trial then (if r.trials = 0 then { r with prefer := 1 - r.prefer, trial := false, seqNo := r.seqNo + 1 }
        else { r with trials := r.trials - 1, seqNo := r.seqNo + 1 }) else r
      let u := if r.trial then { s with cfgRec := some r' } else s; let v := event 14 0 0 u
      (slotCheck u r'.prefer = 0 → exec .firmwareBoot s = .next (startFirmware r'.prefer r'.trial u))
      ∧ (slotCheck u r'.prefer ≠ 0 → (slotCheck v (1 - r'.prefer) = 0 → exec .firmwareBoot s = .next
          (startFirmware (1 - r'.prefer) false v))
        ∧ (slotCheck v (1 - r'.prefer) ≠ 0 → exec .firmwareBoot s = .next
          { forAll (List.range 8) (fun b w => ownerWrite b 0x10 w) (put (event 14 0 0 v) F.secStatusRecovery 1) with
            recovery := true })))
    ∧ (s.up 6 = true → ∀ init slot, let from_ := init = 0x10 ∨ (0x50 ≤ init ∧ init ≤ 0x53); let may := s.recovery = true ∧ from_
      let u := put s F.secRecovctlSlot slot; let h := memRead s.mem (scrPhys s 0) 4096
      let body := (List.range (min (hdrLen h) 0x7FF000)).map fun i => (memGet s.mem (scrPhys s (4096 + i))).toNat
      let n := checkImage s 1 h body; let c := cfgOf u
      (¬ from_ → exec (.secRecovctlGo init slot) s = .next s)
      ∧ (from_ → s.recovery = false → exec (.secRecovctlGo init slot) s = .next u)
      ∧ (may → n = 0 → exec (.secRecovctlGo init slot) s = .next (commandReset 2
        { u with mem := memWrite u.mem (slotBase slot) (h ++ body),
                 cfgRec := some { c with prefer := slot % 2, seqNo := c.seqNo + 1 } }))
      ∧ (may → n ≠ 0 → exec (.secRecovctlGo init slot) s = .next
        (handBanks 0x10 (handBanks 0x50 (event 14 0 0 (put u F.secRecovctlResult n))))))

/-- The full quiesce, and losses of clocks (R32, R33, R34, R35, R389, R402). -/
def Obligations.FullQuiesce : Prop :=
  ∀ (s : State), s.up 3 = true → let busy := rd s F.genQuiesceBusy = 1; let done := rd s F.genQuiesceDone = 1
    let n := if busyCtxs s ≠ [] then 1 else if rd s F.drvEnableAsserted ≠ 0 then 2
      else if logState s = 2 ∨ logState s = 3 then 3
      else if ((List.range 16).any fun c => rd s (F.clFsstatUsed c) != 0) = true then 4 else 0
    (busy ∨ done → exec .quiesceReq s = .next s)
    ∧ (¬ busy → ¬ done → n ≠ 0 → exec .quiesceReq s = .next (put s F.genQuiesceRefuse n))
    ∧ (¬ busy → ¬ done → n = 0 → exec .quiesceReq s = .next
      { put s F.genQuiesceBusy 1 with injectStop := true, quiesceStep := 1 })
    ∧ (busy → s.quiesceStep = 1 → (∀ p ∈ s.net, p.epoch = waiting) → let u := sampleProfile s
      (profA u = profA s → exec .quiesceDrained s = .next { u with quiesceStep := 2 })
      ∧ (profA u ≠ profA s → exec .quiesceDrained s = .next
        { forAll (List.range 16) startOppoint (enterProfile (profA u) u) with quiesceStep := 2 }))
    ∧ (¬ busy ∨ s.quiesceStep ≠ 1 ∨ (∃ p ∈ s.net, p.epoch ≠ waiting) → exec .quiesceDrained s = .next s)
    ∧ (busy → s.quiesceStep = 2 → (∀ c < 16, mget OpPhase.none s.opPhase c = .none) → exec .quiesceComplete s = .next
      { put (put s F.genQuiesceBusy 0) F.genQuiesceDone 1 with quiesceStep := 3 })
    ∧ (done → s.deviceHalted = false → exec .quiesceResume s = .next (drainRemotes (releaseRecv (reinject
      { put s F.genQuiesceDone 0 with injectStop := false, quiesceStep := 0 }))))
    ∧ (¬ done ∨ s.deviceHalted = true → exec .quiesceResume s = .next s)
    ∧ (∀ k, 1 ≤ k → k ≤ 24 → let on := (rd s F.clkLockLock).testBit k
      (on = true → exec (.clkPllunlock k) s = .next (condition 2 0 k (clockBit k false s)))
      ∧ (on = false → exec (.clkPllunlock k) s = .next s)
      ∧ (lockLost s k = true → let u := clockBit k true s
        exec (.clkPllRelock k) s = .next (setLive 2 0 (((List.range 25).drop 1).any (lockLost u)) u))
      ∧ (lockLost s k = false → exec (.clkPllRelock k) s = .next s))
    ∧ (let on := (rd s F.clkRefstatPresent).testBit 0
      (on = true → exec .refLoss s = .next (condition 2 1 0 (put s F.clkRefstatPresent (rd s F.clkRefstatPresent - 1))))
      ∧ (on = false → exec .refLoss s = .next s))

/-- Retirements, the fault census and patrol (R124, R273, R386, R393, R394, R395, R399, R400, R401). -/
def Obligations.RepairAndCensus : Prop :=
  (∀ (s : State), s.up 3 = true →
    (∀ init v, init ≠ 0x10 → (init < 0x50 ∨ 0x53 < init) → exec (.repRetire init v) s = .next s
      ∧ exec (.repRetcommit init) s = .next s)
    ∧ (∀ init v, init = 0x10 ∨ (0x50 ≤ init ∧ init ≤ 0x53) → v < 2 ^ 31 → let w := writePlain s 33 4 v
      exec (.repRetire init v) s = .next (if w.2 then cfgErr 33 w.1 else w.1))
    ∧ (s.running ≠ none ∨ s.retQueue = [] ∨ s.deviceHalted = true → exec .retireStart s = .next s)
    ∧ (∀ r rest, s.running = none → s.retQueue = r :: rest → s.deviceHalted = false →
      let u := censusAdd { s with retQueue := rest }
      (widen u r = none → exec .retireStart s = .next (noSpare r u))
      ∧ ∀ t, widen u r = some t → (spareLeft u t = false → exec .retireStart s = .next (noSpare t u))
        ∧ (spareLeft u t = true → exec .retireStart s = .next (retireBegin t u)))
    ∧ (s.running = none → ∀ row ∈ [Instr.pePipeDrained, .peStateCopied true, .peStateCopied false, .retireTimeout, .rowRetireDone,
      .spareSwitch], exec row s = .next s)
    ∧ (∀ r t, s.running = some (r, t) → let cl := r.unit / 32; let waits := rd s F.repStateWaitfw = 1
      let idle := (s.pe (cl * 17 + r.unit % 32)).pipe = none
      (r.kind = 3 →
        (¬ waits → idle → s.deviceHalted = false → exec .pePipeDrained s = .next
          (raiseIrq 33 (put { s with running := some (r, s.now) } F.repStateWaitfw 1)))
        ∧ (waits ∨ ¬ idle ∨ s.deviceHalted = true → exec .pePipeDrained s = .next s)
        ∧ (waits → s.copied = false → exec (.peStateCopied true) s = .next
            (retireAbandon r (putOr (markFailed (cl * 32 + 16) s) F.repPespareFailed (2 ^ cl)))
          ∧ (s.committed = true → exec (.peStateCopied false) s = .next (peSwitch r s))
          ∧ (s.committed = false → exec (.peStateCopied false) s = .next { s with copied := true }))
        ∧ (waits → ∀ init, init = 0x10 ∨ (0x50 ≤ init ∧ init ≤ 0x53) →
          (s.copied = true → exec (.repRetcommit init) s = .next (peSwitch r s))
          ∧ (s.copied = false → exec (.repRetcommit init) s = .next { s with committed := true }))
        ∧ (waits → 1600000 * rd s F.repRettoMs ≤ s.now - t → exec .retireTimeout s = .next (retireAbandon r s))
        ∧ (¬ waits ∨ s.now - t < 1600000 * rd s F.repRettoMs → exec .retireTimeout s = .next s))
      ∧ (r.kind = 1 ∨ r.kind = 2 ∨ r.kind = 6 → exec .rowRetireDone s = .next
        (event 33 3 r.kind (retireEnd (applyRepair r.kind r.array r.unit s))))
      ∧ (r.kind = 4 → rd s F.sbSpareState = 1 →
        (rd s F.sbSpareCopied = 2048 → exec .spareSwitch s = .next (event 33 3 4 (retireEnd (put s F.sbSpareState 2))))
        ∧ (rd s F.sbSpareCopied ≠ 2048 → exec .spareSwitch s = .next s))))
  ∧ (∀ (s : State),
    (s.up 3 = true → ∃ t, exec .censusUpdate s = .next t ∧ t.censusSeen = s.census ∧ t.census = s.census ∧ t.regs = s.regs
      ∧ (∀ k, k < 1088 → mget 0 t.lifetime k =
        min (mget 0 s.lifetime k + (mget 0 s.census k + 2 ^ 48 - mget 0 s.censusSeen k) % 2 ^ 48) 0xFFFFFFFF)
      ∧ (∀ k, 1088 ≤ k → mget 0 t.lifetime k = mget 0 s.lifetime k))
    ∧ (∀ p : Patrol, s.up 5 = true → let k := p.cl * 17 + p.pe; let x := s.pe k
      let idle := clRuns s p.cl = true ∧ p.pe < 17 ∧ x.stopped = false ∧ x.pipe = none ∧ x.inq = []
      (¬ idle → exec (.patrolRead p) s = .next s)
      ∧ (idle → let u := match p.word with
          | .ok => s
          | .corrected => fault { FEv.plain (17 + p.cl) 0 p.pe with tgt := some ⟨1, 0, p.cl * 32 + p.pe, p.ia % 4096 / 16⟩ } s
          | .uncorrectable => fault { FEv.plain (17 + p.cl) 1 p.pe with tgt := some ⟨3, 0, p.cl * 32 + p.pe, 0⟩ } s
        ((u.pe k).store[p.entry]? = none → exec (.patrolRead p) s = .next u)
        ∧ ∀ e, (u.pe k).store[p.entry]? = some e → exec (.patrolRead p) s = .next (readEntry k e p.half0 p.half1 u).2)))

/-- The frames of the serial debug port (R439, R440, R441, R442, R449). -/
def Obligations.DebugFrames : Prop :=
  ∀ s : State, let err := rd s F.dbgPortstatErr; let busy := rd s F.dbgPortstatBusy = 1
    let wait := Host.Outcome.next (emitOut (.sdp 2 none) s)
    let refuse (e : Nat) : Host.Outcome State Fault Refusal := .next (emitOut (.sdp 4 none) (put s F.dbgPortstatErr e))
    let fail := Host.Outcome.next (emitOut (.sdp 4 none) s)
    let good : Frame := ⟨true, true⟩
    let idle := { put s F.dbgPortstatBusy 1 with dbgBusy := 1 }; let wbusy := { put s F.dbgPortstatBusy 1 with dbgBusy := 2 }
    let u := s.updStn 0 fun x => { x with pend := x.pend.filter (·.asker != .sdp) }
    let dropped := put { put u F.dbgPortstatBusy 0 with dbgBusy := 0 } F.dbgPortstatErr 0
    (s.up 3 = true → ∀ (c k : Bool) (row : Frame → Instr), (row = .sdpIdcode ∨ row = .sdpStatus ∨ (∃ a, row = (.sdpRead · a))
        ∨ (∃ a v, row = (.sdpWrite · a v)) ∨ row = .sdpRdbuf ∨ row = .sdpAbort ∨ row = .sessreset) →
      (c = false → exec (row ⟨c, k⟩) s = refuse 1) ∧ (c = true → k = false → exec (row ⟨c, k⟩) s = refuse 3))
    ∧ (s.up 1 = true →
      exec (.sdpIdcode good) s = .next (emitOut (.sdp 1 (some
        (s.stepping % 16 * 2 ^ 8 + s.variant % 16 * 2 ^ 12 + 0x94000000 + s.lifecycle * 2 ^ 32))) s)
      ∧ exec (.sdpStatus good) s = .next (emitOut (.sdp 1 (some (dbgRights s * 2 ^ 8 + rd s F.dbgPortstatAuthfails * 2 ^ 16
        + err * 2 ^ 24 + rd s F.dbgPortstatBusy * 2 ^ 28 + rd s F.dbgPortstatLocked * 2 ^ 29 + s.lifecycle * 2 ^ 30))) s)
      ∧ (err ≠ 0 → exec (.sdpRdbuf good) s = fail)
      ∧ (err = 0 → s.lifecycle = 3 → exec (.sdpRdbuf good) s = refuse 2)
      ∧ (err = 0 → s.lifecycle ≠ 3 → s.dbgBusy = 1 → exec (.sdpRdbuf good) s = wait)
      ∧ (err = 0 → s.lifecycle ≠ 3 → s.dbgBusy ≠ 1 → exec (.sdpRdbuf good) s = .next (emitOut (.sdp 1 (some s.dbgData)) s))
      ∧ exec (.sdpAbort good) s = .next (emitOut (.sdp 1 none) dropped)
      ∧ (let v := put (put dropped F.dbgPortstatRights 0) F.dbgCtlAttach 0
        let w := forAll (List.range 16) clResumeEff (forAll (List.range 4) coreResumeEff v)
        exec (.sessreset good) s = .next (emitOut (.sdp 1 none)
          (abandonLocks (fun h => h / 256 == 0x5D) { w with authBusy := false, challengeNo := w.challengeNo + 1 }))))
    ∧ (s.up 3 = true → ∀ a, let st := (addrStation a).getD (0, 0)
      (err ≠ 0 → exec (.sdpRead good a) s = fail ∧ ∀ v, exec (.sdpWrite good a v) s = fail)
      ∧ (err = 0 →
        (mayAccess s none a = false → exec (.sdpRead good a) s = refuse 2)
        ∧ (mayAccess s none a = true → a % 8 ≠ 0 → exec (.sdpRead good a) s = refuse 4)
        ∧ (mayAccess s none a = true → a % 8 = 0 → busy → exec (.sdpRead good a) s = wait)
        ∧ (mayAccess s none a = true → a % 8 = 0 → ¬ busy →
          exec (.sdpRead good a) s = .next (emitOut (.sdp 1 none) (request 0 st.1 st.2 0x40 0x5D a [8] .sdp idle)))
        ∧ ∀ v, (mayAccess s (some v) a = false → exec (.sdpWrite good a v) s = refuse 2)
          ∧ (mayAccess s (some v) a = true → a % 8 ≠ 0 → exec (.sdpWrite good a v) s = refuse 4)
          ∧ (mayAccess s (some v) a = true → a % 8 = 0 → busy → exec (.sdpWrite good a v) s = wait)
          ∧ (mayAccess s (some v) a = true → a % 8 = 0 → ¬ busy → exec (.sdpWrite good a v) s
            = .next (emitOut (.sdp 1 none) (request 0 st.1 st.2 0x41 0x5D a [v % 2 ^ 64] .sdp wbusy)))))
    ∧ exec .sdpLineReset s = .next s

/-- Rights, halts and firings of the debug port (R442, R443, R444, R445, R447, R451). -/
def Obligations.DebugControl : Prop :=
  (∀ s : State, s.up 1 = true → let has (k : Nat) := (dbgRights s).testBit k = true; let denied := put s F.dbgPortstatErr 2
    (s.lifecycle = 0 → ∀ k, has k ↔ k < 6) ∧ (s.lifecycle = 3 → ∀ k, ¬ has k)
    ∧ (∀ row ∈ [Instr.dbgProvision, .dbgDisable, .dbgProvreset], ¬ has 5 → exec row s = .next denied)
    ∧ (¬ has 4 → exec .dbgDevreset s = .next denied)
    ∧ (has 5 → exec .dbgProvision s = .next { s with lifecycle := if s.lifecycle = 0 then 1 else s.lifecycle }
      ∧ exec .dbgDisable s = .next { s with lifecycle := 3 }
      ∧ let c := cfgOf s
        exec .dbgProvreset s = .next (commandReset 3
          { s with cfgRec := some { c with keySlots := [none, none, none, none], seqNo := c.seqNo + 1 } }))
    ∧ (has 4 → exec .dbgDevreset s = .next { devReset 3 s with dawn := .step 1 })
    ∧ (s.lifecycle = 3 → exec .dbgAuthgo s = .next denied)
    ∧ (s.lifecycle ≠ 3 → s.authBusy = true ∨ rd s F.dbgPortstatLocked = 1 → exec .dbgAuthgo s = .next s)
    ∧ (s.lifecycle ≠ 3 → s.authBusy = false → rd s F.dbgPortstatLocked ≠ 1 → exec .dbgAuthgo s = .next { s with authBusy := true })
    ∧ (s.authBusy = false → exec .authVerifyDone s = .next s)
    ∧ (s.authBusy = true → let u := { s with authBusy := false, challengeNo := s.challengeNo + 1 }
      let n := min (rd s F.dbgPortstatAuthfails + 1) 255
      (∀ r, granted s = some r → exec .authVerifyDone s = .next (put u F.dbgPortstatRights r))
      ∧ (granted s = none → let v := event 16 0 0 (put u F.dbgPortstatAuthfails n)
        (rd v F.dbgPortstatAuthfails < 8 ∨ rd v F.dbgPortstatLocked = 1 → exec .authVerifyDone s = .next v)
        ∧ (8 ≤ rd v F.dbgPortstatAuthfails → rd v F.dbgPortstatLocked ≠ 1 →
          exec .authVerifyDone s = .next (event 16 1 0 (put v F.dbgPortstatLocked 1))))))
  ∧ (∀ s : State, s.up 5 = true → let has (k : Nat) := (dbgRights s).testBit k = true; let denied := put s F.dbgPortstatErr 2
    let core (c : Nat) : Nat := rd s (F.supCorestatState c)
    (¬ has 0 → ∀ c, ∀ row ∈ [Instr.dbgCoreHalt c, .dbgCoreResume c, .dbgCoreStep c], exec row s = .next denied)
    ∧ (¬ has 1 → ∀ f : Fire, ∀ row ∈ [Instr.dbgClHalt f.cl, .dbgClResume f.cl, .dbgClFire f], exec row s = .next denied)
    ∧ (has 0 → ∀ c, (c < 4 → core c = 1 ∨ core c = 2 → exec (.dbgCoreHalt c) s = .next (debugHalt c s))
      ∧ (¬ (c < 4 ∧ (core c = 1 ∨ core c = 2)) → exec (.dbgCoreHalt c) s = .next s)
      ∧ (c < 4 → core c = 4 →
        exec (.dbgCoreStep c) s = .next (s.updThr (c * 2 + rd s (F.dbgCorectlThread c)) fun th =>
          { th with stepping := true })
        ∧ let r (t : Nat) (u : State) : State := u.updThr t fun th =>
            { th with stepping := false, wdogSince := th.wdogSince + (u.now - th.haltAt) }
          exec (.dbgCoreResume c) s = .next (put (r (c * 2 + 1) (r (c * 2) s)) (F.supCorestatState c)
            (if rd s (F.supCorectlRun c) = 1 then 2 else 1)))
      ∧ (¬ (c < 4 ∧ core c = 4) → exec (.dbgCoreStep c) s = .next s ∧ exec (.dbgCoreResume c) s = .next s))
    ∧ (has 1 → ∀ n, (n < 16 → let drives := ∃ c ∈ busyCtxs s, (s.ctx c).d.drvcount ≠ 0
          ∧ ∃ l < 16, templateOn s (s.ctx c).d.tmpl (n * 16 + l) = true
        (drives → rd s F.dbgCtlForce ≠ 1 → exec (.dbgClHalt n) s = .next
          (put s F.dbgClstatRefused (rd s F.dbgClstatRefused ||| 2 ^ n)))
        ∧ (¬ drives ∨ rd s F.dbgCtlForce = 1 → exec (.dbgClHalt n) s = .next (s.updCl n fun c => { c with halted := true })))
      ∧ (16 ≤ n → exec (.dbgClHalt n) s = .next s)
      ∧ exec (.dbgClResume n) s = .next (s.updCl n fun c => { c with halted := false }))
    ∧ (has 1 → ∀ f : Fire, (16 ≤ f.cl ∨ (s.cl f.cl).halted = false ∨ nextSet s (f.cl * 17 + f.pe) = none →
        exec (.dbgClFire f) s = .next s)
      ∧ ∀ g st, f.cl < 16 → f.pe < 17 → clRuns s f.cl = true → (s.cl f.cl).halted = true →
        nextSet s (f.cl * 17 + f.pe) = some (g, st) → let w := Insn.decode (word s (f.cl * 17 + f.pe) g.ia)
        canIssue (s.pe (f.cl * 17 + f.pe)) w = true →
        ((s.pe (f.cl * 17 + f.pe)).stopped = false ∨ (s.pe (f.cl * 17 + f.pe)).pipe ≠ none) →
        ∀ u, (readSet (f.cl * 17 + f.pe) g st f.half0 f.half1 s = (none, u) → exec (.dbgClFire f) s = .next u)
        ∧ ∀ h, readSet (f.cl * 17 + f.pe) g st f.half0 f.half1 s = (some h, u) → exec (.dbgClFire f) s = .next
          (runSet (f.cl * 17 + f.pe) h f.word f.ext ((bodyOf w.opcode).getD addFx) (afterIssue u f h st)))
    ∧ ∀ u : State, (exec .tapBypass u = .next { u with tap := 0xF } ∧ exec .tapSamplePreload u = .next { u with tap := 2 }
        ∧ exec .tapExtest u = .next { u with tap := 0 } ∧ exec .tapClamp u = .next { u with tap := 4 }
        ∧ exec .tapHighz u = .next { u with tap := 5 }
        ∧ ∃ t, exec .tapIdcode u = .next t ∧ t.tap = 1 ∧ t.regs = u.regs ∧ t.mem = u.mem
          ∧ t.out = u.out ++ [.tap (u.stepping % 16 * 2 ^ 28 + 0x094009EB)]))

/-- Undefined offsets read zero and discard writes (R9). "A read of an undefined offset inside a block's BAR0 region
returns 0x0000_0000 and completes successfully. A write to an undefined offset is discarded without error." -/
def Obligations.UndefinedOffsets : Prop :=
  ∀ (s : State) (b o : Nat), b < 34 → o < 0x10000 → findReg b o = none →
    readRegEff b o s = (0, s) ∧ (∀ init agent v, writeReg init agent b o v s = s)
    ∧ (s.up 3 = true → blkUp s b = true → stationRuns s (regStation (blkBase b + o)) = true → ∀ init, regInit init = true →
      (∀ v, exec (.regWrite init (blkBase b + o) v) s = .next s)
      ∧ (init ≠ 0x5B ∨ (b ≠ 14 ∧ b ≠ 16) →
        exec (.regReadClear init (blkBase b + o)) s = .next (emitOut (.barData 0 0) s)))
    ∧ (s.up 3 = true → blkUp s b = true → stationRuns s (regStation (blkBase b + o)) = false → ∀ init, regInit init = true →
      (∀ v, exec (.regWrite init (blkBase b + o) v) s =
        .next (askReg init 0x41 (blkBase b + o) [storeUnit v 4 0 8] .nobody s))
      ∧ (init ≠ 0x5B ∨ (b ≠ 14 ∧ b ≠ 16) →
        exec (.regReadClear init (blkBase b + o)) s = .next (askReg init 0x40 (blkBase b + o) [4] .bar s)))

/-- A plain write gives each field what its access code says, and touches nothing else (R8, R10, R12, R31, R461). -/
def Obligations.RegisterFields : Prop :=
  ∀ (s : State) (b o v : Nat) (r : RegD) (ix : List Nat), b < 34 → findReg b o = some (r, ix) →
    let t := writePlain s b o v
    let fld (fd : FieldD) : Fld := fldAt b o ix fd; let new (fd : FieldD) : Nat := v / 2 ^ fd.lo % 2 ^ (fd.hi - fd.lo + 1)
    let gov (fd : FieldD) : Option Nat := if rd s F.genProfstatActive = 1 then none else governed b o fd.lo
    let locked := b ∈ s.locked
    (∀ fd ∈ r.fields,
      (fd.acc ∈ [Acc.ro, .rc, .wo, .w1s] → rd t.1 (fld fd) = rd s (fld fd) ∧ rdSh t.1 (fld fd) = rdSh s (fld fd))
      ∧ (fd.acc = .w1c → rd t.1 (fld fd) = (rd s (fld fd) - (rd s (fld fd) &&& new fd)) % 2 ^ (fd.hi - fd.lo + 1))
      ∧ (fd.acc = .rw → rd t.1 (fld fd) =
        if gov fd = none ∧ fd.ok.holds (new fd) = true then new fd else rd s (fld fd))
      ∧ (fd.acc = .rwl → rd t.1 (fld fd) = if ¬ locked ∧ fd.ok.holds (new fd) = true then new fd else rd s (fld fd))
      ∧ (fd.acc = .rwp → rd t.1 (fld fd) = rd s (fld fd) ∧ rdSh t.1 (fld fd) =
        if gov fd = none ∧ fd.ok.holds (new fd) = true then new fd else rdSh s (fld fd)))
    ∧ (t.2 = true ↔ ∃ fd ∈ r.fields,
      (fd.acc = .rw ∨ fd.acc = .rwp) ∧ (match gov fd with | some g => new fd ≠ g | none => fd.ok.holds (new fd) = false)
      ∨ fd.acc = .rwl ∧ ¬ locked ∧ fd.ok.holds (new fd) = false)
    ∧ (∀ f : Fld, (∀ fd ∈ r.fields, f.key ≠ (fld fd).key) → rd t.1 f = rd s f ∧ rdSh t.1 f = rdSh s f)
    ∧ t.1.mem = s.mem ∧ t.1.ctxs = s.ctxs ∧ t.1.pes = s.pes ∧ t.1.locked = s.locked

/-- Register reads and writes of the host, and REGRD and REGWR at their target (R8, R10, R13, R224, R453, R454, R455,
R456, R457). -/
def Obligations.RegisterAccesses : Prop :=
  ∀ s : State, s.up 3 = true →
    (∀ init off v, regInit init = false ∨ 0x1000000 ≤ off →
      exec (.regWrite init off v) s = .next s ∧ exec (.regReadClear init off) s = .next s)
    ∧ (∀ init b o v, b < 34 → o < 0xF000 → blkUp s b = true → stationRuns s (regStation (blkBase b + o)) = true → regInit init = true →
      let off := blkBase b + o; let ok := writeAccepted s init off = true ∧ (init = 0x5D → mayAccess s (some v) off = true)
      (¬ ok → exec (.regWrite init off v) s = .next s)
      ∧ (ok → b ∈ [2, 3, 10, 11, 12] → o % 4 = 0 → o ≠ 0xF0 → let w := writePlain s b o (v % 2 ^ 32)
        exec (.regWrite init off v) s = .next (if w.2 then cfgErr b w.1 else w.1))
      ∧ (∀ r ix, findReg b o = some (r, ix) → (b = 3 → o < 0x100) → init ≠ 0x5B ∨ (b ≠ 14 ∧ b ≠ 16) →
        exec (.regReadClear init off) s = .next (emitOut (.barData 0 (readReg s b o)) (clearRc s b o ix r.fields)))
      ∧ (init = 0x5B → b = 14 ∨ b = 16 → exec (.regReadClear init off) s = .next (emitOut (.barData 1 0) s)))
    ∧ (∀ (d : Deliver) (p : Packet), let u := rest s; let t := taken u d; let a := p.mgtAddr
      let n := if p.units.headD 8 = 0 then 8 else min (p.units.headD 8) 8; let w := p.units.headD 0
      let island := (0x08000000 ≤ a ∧ a < 0x082C0000) ∨ (0x0D000000 ≤ a ∧ a < 0x0D040000)
      let done (st : Nat) (u : State) : Host.Outcome State Fault Refusal := .next (reply p 0x43 st [] u)
      (arrives u d p 0x40 = true →
        (∀ b, a < 0x1000000 → blkOf a = some b → blkUp t b = true → (p.init = 0x5B → b ≠ 14 ∧ b ≠ 16) →
          let q := readRegs (a / 4 * 4) ((a % 4 + n + 3) / 4) t
          exec (.regrd d) s = .next (reply p 0x42 stOK [q.1 / 2 ^ (8 * (a % 4)) % 2 ^ (8 * n)] q.2))
        ∧ (∀ b, a < 0x1000000 → blkOf a = some b → blkUp t b = true → p.init = 0x5B → b = 14 ∨ b = 16 →
          exec (.regrd d) s = done stREFUSED t)
        ∧ (island → d.mem = .ok → exec (.regrd d) s = .next (reply p 0x42 stOK [memNat t.mem a n] t))
        ∧ (island → d.mem = .uncorrectable → exec (.regrd d) s = done stUNCORR (supMemErr 4 a t)))
      ∧ (arrives u d p 0x41 = true → d.data ≠ .uncorrectable →
        (∀ b, a < 0x1000000 → blkOf a = some b → blkUp t b = true →
          (regsAccepted t p.init w a = false → exec (.regwr d) s = done stREFUSED t)
          ∧ (regsAccepted t p.init w a = true →
            exec (.regwr d) s = done stOK (writeRegs p.init p.agent w a (a / 4 * 4) ((a % 4 + 11) / 4) t)))
        ∧ (island → exec (.regwr d) s = done stOK (memUnit w a t))
        ∧ (0x0E000000 ≤ a → a < 0x0E010000 → exec (.regwr d) s = done stREFUSED t))
      ∧ (0x204000000 ≤ a →
        (arrives u d p 0x40 = true → exec (.regrd d) s = done stNOTARGET t)
        ∧ (arrives u d p 0x41 = true → d.data ≠ .uncorrectable → exec (.regwr d) s = done stNOTARGET t)))

/-- A step runs the command at the front, and every command completes (R1, R418). -/
def Obligations.StepAndCompletion : Prop :=
  (∀ (s : State), (∀ c cs, s.pending = c :: cs → step s = exec c { s with pending := cs }) ∧ (s.pending = [] → step s = .next s))
  ∧ (∀ (s : State), (∃ t, step s = .next t) ∧ ∀ c, ∃ t, exec c s = .next t)

/-- The state after power-on reset (R10, R12, R418, R442). -/
def Obligations.ResetState : Prop :=
  (∀ f : Fld, rd State.reset f = f.rst ∧ rdSh State.reset f = f.rst)
  ∧ (∀ b o r ix fd, findReg b o = some (r, ix) → fd ∈ r.fields →
    rd State.reset (fldAt b o ix fd) = fieldRst b fd.lo ix fd.rst)
  ∧ (∀ n, State.reset.up (n + 1) = false) ∧ State.reset.pending = [] ∧ Memory.wf State.reset.mem = true
  ∧ keysRise State.reset.regs = true ∧ keysRise State.reset.shadow = true
  ∧ (∀ a, memGet State.reset.mem a = 0) ∧ (∀ k, k < 6 → (dbgRights State.reset).testBit k = true)
  ∧ (∀ c, (State.reset.ctx c).state = .free) ∧ (∀ k, (State.reset.lock k).held = false) ∧ (∀ n, (State.reset.sess n).st = .free)

/-- Instruction words, tags, short units, packet headers and codewords are packed and unpacked without loss (R38, R84,
R85, R223, R227, R244). -/
def Obligations.WordsRoundTrip : Prop :=
  (∀ i : Insn, i.wf = true → Insn.decode i.encode = i ∧ i.encode < 2 ^ 128)
  ∧ (∀ n, n < 2 ^ 128 → (Insn.decode n).wf = true ∧ (Insn.decode n).encode = n)
  ∧ (∀ t : Tag, t.dev < 2 ^ 12 → t.ctx < 2 ^ 14 → t.iter < 2 ^ 12 → t.ia < 2 ^ 12 → t.pe < 2 ^ 8 → t.port < 4 → t.pri < 8 →
    Tag.unpack t.pack = t ∧ t.pack < 2 ^ 64)
  ∧ (∀ n, n < 2 ^ 64 → (Tag.unpack n).pack = n)
  ∧ (∀ t : Tok, t.tag.dev < 2 ^ 12 → t.tag.ctx < 2 ^ 14 → t.tag.iter < 2 ^ 12 → t.tag.ia < 2 ^ 12 → t.tag.pe < 2 ^ 8 →
    t.tag.port < 4 → t.tag.pri < 8 → t.val.ty < 16 → ofShort t.tag.dev (t.tag.pe / 16) (shortUnit t) = t ∧ shortUnit t < 2 ^ 117)
  ∧ (∀ p : Packet, p.dstn < 32 → p.dstp < 32 → p.ring < 4 → p.cmd < 256 → p.vn < 8 → p.epoch < 2 → p.init < 256 → p.len < 16 →
    p.f < 2 ^ 88 → let h := p.header; let q := ofHeader h p.units
    (q.dstn, q.dstp, q.ring, q.cmd, q.vn, q.epoch, q.init, q.f) = (p.dstn, p.dstp, p.ring, p.cmd, p.vn, p.epoch, p.init, p.f)
    ∧ headerLen h = p.len ∧ h < 2 ^ 128 ∧ (headerOk h = true ↔ p.dstn < 26 ∧ p.len ≤ 8 ∧ p.vn ≠ 5 ∧ p.vn ≠ 6))
  ∧ (∀ (seq ack fho : Nat) (nak null good corrected : Bool) (us : List Nat), seq < 64 → ack < 64 → fho < 64 → us.length = 40 →
    (∀ u ∈ us, u < 2 ^ 128) → let c : Codeword := ⟨message seq ack fho nak null us, good, corrected⟩
    c.seq = seq ∧ c.ack = ack ∧ c.fho = fho ∧ c.nak = nak ∧ c.isNull = null ∧ c.units = us ∧ c.msg < 2 ^ 5140)

/-- No step reorders the queue, changes the fused identity, lowers the SVN floor or moves the lifecycle back (R32,
R429, R436, R442). -/
def Obligations.QueueAndFuses : Prop :=
  ∀ (s t : State), step s = .next t →
    t.pending = s.pending.tail
    ∧ t.variant = s.variant ∧ t.stepping = s.stepping ∧ t.fwKeyHash = s.fwKeyHash ∧ t.identityOk = s.identityOk
    ∧ s.svnFloor ≤ t.svnFloor
    ∧ (t.lifecycle = s.lifecycle ∨ (s.lifecycle = 0 ∧ t.lifecycle = 1) ∨ t.lifecycle = 3)
    ∧ (s.lifecycle = 0 ∨ s.lifecycle = 1 ∨ s.lifecycle = 3 → t.lifecycle = 0 ∨ t.lifecycle = 1 ∨ t.lifecycle = 3)

/-- Every step keeps the canonical form of memory and of the tables of registers (R256, R269, R454). -/
def Obligations.MemoryStaysCanonical : Prop :=
  ∀ (s t : State), step s = .next t →
    (Memory.wf s.mem = true → Memory.wf t.mem = true)
    ∧ (keysRise s.regs = true → keysRise s.shadow = true → keysRise t.regs = true ∧ keysRise t.shadow = true)

/-- What the other commands leave alone (R28, R47, R65, R148, R256, R258, R316, R398, R403, R418, R454). -/
def Obligations.OtherCommandsKeep : Prop :=
  (∀ (c : Instr) (s t : State), stores c = false → exec c s = .next t →
    t.mem = s.mem ∧ ∀ a, memGet t.mem a = memGet s.mem a)
  ∧ (∀ (c : Instr) (s t : State), exec c s = .next t →
    (unquiet c = false →
    t.presence = s.presence ∧ t.bad = s.bad ∧ t.defers = s.defers ∧ t.mats = s.mats ∧ t.gateTable = s.gateTable ∧
    t.images = s.images ∧ t.templates = s.templates ∧ t.stored = s.stored ∧ t.fnState = s.fnState ∧ t.msixMask =
    s.msixMask ∧ t.mlog = s.mlog ∧ t.fwInfo = s.fwInfo ∧ t.cfgRec = s.cfgRec ∧ t.mapRecs = s.mapRecs ∧ t.lifetime =
    s.lifetime ∧ t.grants = s.grants ∧ t.now = s.now ∧ t.bus = s.bus ∧ t.phNow = s.phNow ∧ t.inputs = s.inputs ∧
    t.sweep = s.sweep ∧ t.schedU = s.schedU ∧ t.schedAt = s.schedAt ∧ t.heartbeatAt = s.heartbeatAt ∧ t.epochAt =
    s.epochAt ∧ t.doms = s.doms ∧ t.pins = s.pins ∧ t.linkState = s.linkState ∧ t.snapshot = s.snapshot ∧ t.locked =
    s.locked ∧ t.phs = s.phs ∧ t.rings = s.rings ∧ t.running = s.running ∧ t.dawn = s.dawn ∧ t.opPhase = s.opPhase ∧
    t.shadow = s.shadow)
    ∧ (threading c = false → t.threads = s.threads ∧ t.mats = s.mats)
    ∧ (sessional c = false → t.sessions = s.sessions))
end

