-- ==== Sys2Proof/Laws/Firing.lean ====
section
/-! SUPPORT. What a firing does, said once: from a state in which an operand set issues, the whole row is its body. -/

namespace Sys2Proof.Machine

open Sys2Proof Sys2Proof.Claims

theorem up_of_atIssue {s : State} {f : Fire} {op : Nat} {g : Firing} {st : Option Nat} (h : atIssue s f op g st = true) :
    s.up 5 = true := by
  simp only [atIssue, Bool.and_eq_true] at h; exact h.1.1.1.1.1.1.1.1

/-- At issue, a firing is the running of its operand set. -/
theorem fireEff_atIssue {s : State} {f : Fire} {op : Nat} {g : Firing} {st : Option Nat} (body : State → Fc → Fx)
    (h : atIssue s f op g st = true) :
    fireEff f op body s = runSet (f.cl * 17 + f.pe) g f.word f.ext body (afterIssue s f g st) := by
  simp only [atIssue, Bool.and_eq_true, decide_eq_true_eq, beq_iff_eq] at h
  obtain ⟨⟨⟨⟨⟨⟨⟨⟨-, hpe⟩, hmf⟩, hstop⟩, hn⟩, hop⟩, hci⟩, hrd⟩, -⟩ := h
  unfold fireEff fireAs
  simp only [hmf, hpe, hstop, hn, hrd, decide_true, Bool.and_true, hci, hop, if_true, beq_self_eq_true, Bool.true_or]
  rfl

theorem atIssue_of_fires {s : State} {f : Fire} {op : Nat} {g : Firing} {st : Option Nat} (h : fires s f op g st = true) :
    atIssue s f op g st = true := by
  simp only [fires, issues, Bool.and_eq_true] at h; exact h.1.1.1.1.1

@[simp] theorem storeErr_ok (k ia : Nat) (s : State) : storeErr k ia .ok s = s := rfl

/-- Words that all read without an error change nothing. -/
theorem forAll_storeErr_ok (k : Nat) (l : List (Nat × Ecc)) (s : State) (h : l.all (·.2 == .ok) = true) :
    forAll l (fun x s => storeErr k x.1 x.2 s) s = s := by
  induction l generalizing s with
  | nil => rfl
  | cons a l ih =>
    simp only [List.all_cons, Bool.and_eq_true, beq_iff_eq] at h
    show forAll l _ (storeErr k a.1 a.2 s) = s
    rw [h.1]; exact ih s h.2

/-- A firing whose checks find nothing does what the row's body says of its operands. -/
theorem fireEff_fires {s : State} {f : Fire} {op : Nat} {g : Firing} {st : Option Nat} (body : State → Fc → Fx)
    (h : fires s f op g st = true) :
    fireEff f op body s = match body (afterIssue s f g st) (firingOf s f g st) with
      | .fault c dt port ty => firingFault (f.cl * 17 + f.pe) g c dt port ty (afterIssue s f g st)
      | .done es also => forAll es (emit (f.cl * 17 + f.pe) g) (also (afterIssue s f g st)) := by
  rw [fireEff_atIssue body (atIssue_of_fires h)]
  simp only [fires, issues, atIssue, Bool.and_eq_true, decide_eq_true_eq, beq_iff_eq] at h
  obtain ⟨⟨⟨⟨⟨⟨⟨⟨⟨-, hop⟩, -⟩, -⟩, hw⟩, hwd⟩, hwok⟩, hext⟩, hbad⟩, hch⟩ := h
  unfold runSet
  rw [hw, hwd]
  cases ho : opInfo op with
  | none => simp [ho] at hch
  | some o =>
    simp only [ho, Option.isNone_iff_eq_none] at hch hbad
    have he (s' : State) := forAll_storeErr_ok (f.cl * 17 + f.pe) _ s' hext
    simp only [hop, ho, hwok, storeErr_ok, he, hbad]
    have hc : checks ((afterIssue s f g st).ctx g.ctx).d (Insn.decode (word s (f.cl * 17 + f.pe) g.ia)) o g = none := hch
    simp only [hc, firingOf, hop, ho]
    rfl

theorem row_of {row : Fire → Instr} {op : Nat} {pre es also} (body : State → Fc → Fx)
    (hx : ∀ f s, exec (row f) s = act 5 s (fireEff f op body))
    (hb : ∀ s c, pre s c = true → body s c = .done (es s c) (also c)) : Row row op pre es also := by
  intro s f g st h hp
  rw [hx, act, fireEff_fires _ h, hb _ _ hp, up_of_atIssue (atIssue_of_fires h)]
  simp

theorem result_of {row : Fire → Instr} {op : Nat} {v : Fc → Val} (g : Fc → Val)
    (hx : ∀ f s, exec (row f) s = act 5 s (fireEff f op (pure1 g))) (hv : ∀ c, g c = v c) : Result row op v :=
  row_of _ hx (by intro s c _; simp only [pure1, toAll, hv]; rfl)

end Sys2Proof.Machine
end

