-- ==== Sys2Proof/Laws/Sessions.lean ====
section
/-! SUPPORT. The acting of a block and the running of a session's command, each said once. -/

namespace Sys2Proof.Machine

open Sys2Proof Sys2Proof.Claims

theorem act_up {s : State} {n : Nat} (f : State → State) (h : s.up n = true) : act n s f = .next (f s) := by
  simp [act, h]

theorem act_down {s : State} {n : Nat} (f : State → State) (h : s.up n = false) : act n s f = .next s := by
  simp [act, h]

/-- What the turn of a session's command says of the state. -/
theorem turn_cases {s : State} {r : Run} {opc : Nat} {c : Cmd} (h : turn s r opc c = true) :
    s.up 6 = true ∧ (s.sess r.sess).st = .active ∧
      (∃ c0, nextCmd (s.sess r.sess) = some c0 ∧ c = { c0 with started := true }) ∧ c.e.opc = opc := by
  simp only [turn, Bool.and_eq_true, decide_eq_true_eq, beq_iff_eq] at h
  obtain ⟨⟨⟨h1, h2⟩, h3⟩, h4⟩ := h
  obtain ⟨c0, h5, h6⟩ := Option.map_eq_some_iff.1 h3
  exact ⟨h1, h2, ⟨c0, h5, h6.symm⟩, h4⟩

/-- A command whose turn has come ends NOTPERMITTED outside its column, ends INVFIELD at its lowest bad field, and runs
otherwise. -/
theorem runCmd_turn {s : State} {r : Run} {opc cls : Nat} {buf : Bool} {m : List Nat} {c : Cmd} (f : Cmd → State → State)
    (h : turn s r opc c = true) :
    runCmd r opc cls buf m f s = if outside s r cls then finishCmd c scNOTPERMITTED 0 0 0 (begun c s) else
      match badField c.e buf m with
      | some o => finishCmd c scINVFIELD o 0 0 (begun c s)
      | none => f c (begun c s) := by
  obtain ⟨-, h2, ⟨c0, h3, rfl⟩, h5⟩ := turn_cases h
  simp only at h5
  simp only [runCmd, h3, h2, h5, outside, begun]
  by_cases h6 : cls = 1 <;> by_cases h7 : cls = 2 <;> simp [h6, h7] <;> rfl

theorem runCmd_starts {s : State} {r : Run} {opc cls : Nat} {buf : Bool} {m : List Nat} {c : Cmd} (f : Cmd → State → State)
    (h : starts s r opc cls buf m c = true) : runCmd r opc cls buf m f s = f c (begun c s) := by
  simp only [starts, Bool.and_eq_true, Bool.not_eq_true', Option.isNone_iff_eq_none] at h
  rw [runCmd_turn f h.1.1, h.1.2, h.2]; rfl

theorem starts_up {s : State} {r : Run} {opc cls : Nat} {buf : Bool} {m : List Nat} {c : Cmd}
    (h : starts s r opc cls buf m c = true) : s.up 6 = true := by
  simp only [starts, Bool.and_eq_true] at h; exact (turn_cases h.1.1).1

end Sys2Proof.Machine
end

