-- ==== Sys2Proof/Laws/State.lean ====
section
/-! SUPPORT. Laws of the updates of the state: each leaves every other field, true by definition. -/

namespace Sys2Proof.Machine

section
variable (s : State) (k : Nat) (x : Ctx)
@[simp] theorem State.setCtx_regs : (s.setCtx k x).regs = s.regs := rfl
@[simp] theorem State.setCtx_shadow : (s.setCtx k x).shadow = s.shadow := rfl
@[simp] theorem State.setCtx_locked : (s.setCtx k x).locked = s.locked := rfl
@[simp] theorem State.setCtx_variant : (s.setCtx k x).variant = s.variant := rfl
@[simp] theorem State.setCtx_stepping : (s.setCtx k x).stepping = s.stepping := rfl
@[simp] theorem State.setCtx_lifecycle : (s.setCtx k x).lifecycle = s.lifecycle := rfl
@[simp] theorem State.setCtx_svnFloor : (s.setCtx k x).svnFloor = s.svnFloor := rfl
@[simp] theorem State.setCtx_fwKeyHash : (s.setCtx k x).fwKeyHash = s.fwKeyHash := rfl
@[simp] theorem State.setCtx_identityOk : (s.setCtx k x).identityOk = s.identityOk := rfl
@[simp] theorem State.setCtx_now : (s.setCtx k x).now = s.now := rfl
@[simp] theorem State.setCtx_dawn : (s.setCtx k x).dawn = s.dawn := rfl
@[simp] theorem State.setCtx_deviceHalted : (s.setCtx k x).deviceHalted = s.deviceHalted := rfl
@[simp] theorem State.setCtx_injectStop : (s.setCtx k x).injectStop = s.injectStop := rfl
@[simp] theorem State.setCtx_quiesceStep : (s.setCtx k x).quiesceStep = s.quiesceStep := rfl
@[simp] theorem State.setCtx_pins : (s.setCtx k x).pins = s.pins := rfl
@[simp] theorem State.setCtx_templates : (s.setCtx k x).templates = s.templates := rfl
@[simp] theorem State.setCtx_images : (s.setCtx k x).images = s.images := rfl
@[simp] theorem State.setCtx_stored : (s.setCtx k x).stored = s.stored := rfl
@[simp] theorem State.setCtx_gateTable : (s.setCtx k x).gateTable = s.gateTable := rfl
@[simp] theorem State.setCtx_pes : (s.setCtx k x).pes = s.pes := rfl
@[simp] theorem State.setCtx_clusters : (s.setCtx k x).clusters = s.clusters := rfl
@[simp] theorem State.setCtx_phs : (s.setCtx k x).phs = s.phs := rfl
@[simp] theorem State.setCtx_bus : (s.setCtx k x).bus = s.bus := rfl
@[simp] theorem State.setCtx_phQueue : (s.setCtx k x).phQueue = s.phQueue := rfl
@[simp] theorem State.setCtx_phNow : (s.setCtx k x).phNow = s.phNow := rfl
@[simp] theorem State.setCtx_phPast : (s.setCtx k x).phPast = s.phPast := rfl
@[simp] theorem State.setCtx_exportAt : (s.setCtx k x).exportAt = s.exportAt := rfl
@[simp] theorem State.setCtx_inputs : (s.setCtx k x).inputs = s.inputs := rfl
@[simp] theorem State.setCtx_held : (s.setCtx k x).held = s.held := rfl
@[simp] theorem State.setCtx_ports : (s.setCtx k x).ports = s.ports := rfl
@[simp] theorem State.setCtx_rings : (s.setCtx k x).rings = s.rings := rfl
@[simp] theorem State.setCtx_chans : (s.setCtx k x).chans = s.chans := rfl
@[simp] theorem State.setCtx_schedU : (s.setCtx k x).schedU = s.schedU := rfl
@[simp] theorem State.setCtx_schedAt : (s.setCtx k x).schedAt = s.schedAt := rfl
@[simp] theorem State.setCtx_activeCauses : (s.setCtx k x).activeCauses = s.activeCauses := rfl
@[simp] theorem State.setCtx_offPending : (s.setCtx k x).offPending = s.offPending := rfl
@[simp] theorem State.setCtx_abortCount : (s.setCtx k x).abortCount = s.abortCount := rfl
@[simp] theorem State.setCtx_heartbeatAt : (s.setCtx k x).heartbeatAt = s.heartbeatAt := rfl
@[simp] theorem State.setCtx_net : (s.setCtx k x).net = s.net := rfl
@[simp] theorem State.setCtx_stations : (s.setCtx k x).stations = s.stations := rfl
@[simp] theorem State.setCtx_epochAt : (s.setCtx k x).epochAt = s.epochAt := rfl
@[simp] theorem State.setCtx_spans : (s.setCtx k x).spans = s.spans := rfl
@[simp] theorem State.setCtx_spanTxns : (s.setCtx k x).spanTxns = s.spanTxns := rfl
@[simp] theorem State.setCtx_mem : (s.setCtx k x).mem = s.mem := rfl
@[simp] theorem State.setCtx_presence : (s.setCtx k x).presence = s.presence := rfl
@[simp] theorem State.setCtx_bad : (s.setCtx k x).bad = s.bad := rfl
@[simp] theorem State.setCtx_defers : (s.setCtx k x).defers = s.defers := rfl
@[simp] theorem State.setCtx_sweep : (s.setCtx k x).sweep = s.sweep := rfl
@[simp] theorem State.setCtx_locks : (s.setCtx k x).locks = s.locks := rfl
@[simp] theorem State.setCtx_flt : (s.setCtx k x).flt = s.flt := rfl
@[simp] theorem State.setCtx_wstart : (s.setCtx k x).wstart = s.wstart := rfl
@[simp] theorem State.setCtx_causeCnt : (s.setCtx k x).causeCnt = s.causeCnt := rfl
@[simp] theorem State.setCtx_causePersist : (s.setCtx k x).causePersist = s.causePersist := rfl
@[simp] theorem State.setCtx_census : (s.setCtx k x).census = s.census := rfl
@[simp] theorem State.setCtx_censusSeen : (s.setCtx k x).censusSeen = s.censusSeen := rfl
@[simp] theorem State.setCtx_lifetime : (s.setCtx k x).lifetime = s.lifetime := rfl
@[simp] theorem State.setCtx_retQueue : (s.setCtx k x).retQueue = s.retQueue := rfl
@[simp] theorem State.setCtx_running : (s.setCtx k x).running = s.running := rfl
@[simp] theorem State.setCtx_copied : (s.setCtx k x).copied = s.copied := rfl
@[simp] theorem State.setCtx_committed : (s.setCtx k x).committed = s.committed := rfl
@[simp] theorem State.setCtx_spareRows : (s.setCtx k x).spareRows = s.spareRows := rfl
@[simp] theorem State.setCtx_mapRecs : (s.setCtx k x).mapRecs = s.mapRecs := rfl
@[simp] theorem State.setCtx_queues : (s.setCtx k x).queues = s.queues := rfl
@[simp] theorem State.setCtx_sessions : (s.setCtx k x).sessions = s.sessions := rfl
@[simp] theorem State.setCtx_nextCmd : (s.setCtx k x).nextCmd = s.nextCmd := rfl
@[simp] theorem State.setCtx_msixMask : (s.setCtx k x).msixMask = s.msixMask := rfl
@[simp] theorem State.setCtx_fnState : (s.setCtx k x).fnState = s.fnState := rfl
@[simp] theorem State.setCtx_grants : (s.setCtx k x).grants = s.grants := rfl
@[simp] theorem State.setCtx_linkState : (s.setCtx k x).linkState = s.linkState := rfl
@[simp] theorem State.setCtx_crsWindow : (s.setCtx k x).crsWindow = s.crsWindow := rfl
@[simp] theorem State.setCtx_flrFns : (s.setCtx k x).flrFns = s.flrFns := rfl
@[simp] theorem State.setCtx_threads : (s.setCtx k x).threads = s.threads := rfl
@[simp] theorem State.setCtx_mats : (s.setCtx k x).mats = s.mats := rfl
@[simp] theorem State.setCtx_log : (s.setCtx k x).log = s.log := rfl
@[simp] theorem State.setCtx_doms : (s.setCtx k x).doms = s.doms := rfl
@[simp] theorem State.setCtx_ledger : (s.setCtx k x).ledger = s.ledger := rfl
@[simp] theorem State.setCtx_admitted : (s.setCtx k x).admitted = s.admitted := rfl
@[simp] theorem State.setCtx_opPhase : (s.setCtx k x).opPhase = s.opPhase := rfl
@[simp] theorem State.setCtx_ctrs : (s.setCtx k x).ctrs = s.ctrs := rfl
@[simp] theorem State.setCtx_snapStep : (s.setCtx k x).snapStep = s.snapStep := rfl
@[simp] theorem State.setCtx_snapAt : (s.setCtx k x).snapAt = s.snapAt := rfl
@[simp] theorem State.setCtx_snapshot : (s.setCtx k x).snapshot = s.snapshot := rfl
@[simp] theorem State.setCtx_latched : (s.setCtx k x).latched = s.latched := rfl
@[simp] theorem State.setCtx_pwrE : (s.setCtx k x).pwrE = s.pwrE := rfl
@[simp] theorem State.setCtx_pwrSig : (s.setCtx k x).pwrSig = s.pwrSig := rfl
@[simp] theorem State.setCtx_cfgRec : (s.setCtx k x).cfgRec = s.cfgRec := rfl
@[simp] theorem State.setCtx_cfgPending : (s.setCtx k x).cfgPending = s.cfgPending := rfl
@[simp] theorem State.setCtx_idxL : (s.setCtx k x).idxL = s.idxL := rfl
@[simp] theorem State.setCtx_idxRseq : (s.setCtx k x).idxRseq = s.idxRseq := rfl
@[simp] theorem State.setCtx_idxLow : (s.setCtx k x).idxLow = s.idxLow := rfl
@[simp] theorem State.setCtx_mlog : (s.setCtx k x).mlog = s.mlog := rfl
@[simp] theorem State.setCtx_mAcc : (s.setCtx k x).mAcc = s.mAcc := rfl
@[simp] theorem State.setCtx_fwInfo : (s.setCtx k x).fwInfo = s.fwInfo := rfl
@[simp] theorem State.setCtx_quoteCmd : (s.setCtx k x).quoteCmd = s.quoteCmd := rfl
@[simp] theorem State.setCtx_hashReq : (s.setCtx k x).hashReq = s.hashReq := rfl
@[simp] theorem State.setCtx_recovery : (s.setCtx k x).recovery = s.recovery := rfl
@[simp] theorem State.setCtx_dbgData : (s.setCtx k x).dbgData = s.dbgData := rfl
@[simp] theorem State.setCtx_dbgBusy : (s.setCtx k x).dbgBusy = s.dbgBusy := rfl
@[simp] theorem State.setCtx_authBuf : (s.setCtx k x).authBuf = s.authBuf := rfl
@[simp] theorem State.setCtx_authBusy : (s.setCtx k x).authBusy = s.authBusy := rfl
@[simp] theorem State.setCtx_challengeNo : (s.setCtx k x).challengeNo = s.challengeNo := rfl
@[simp] theorem State.setCtx_tap : (s.setCtx k x).tap = s.tap := rfl
@[simp] theorem State.setCtx_free : (s.setCtx k x).free = s.free := rfl
@[simp] theorem State.setCtx_out : (s.setCtx k x).out = s.out := rfl
@[simp] theorem State.setCtx_pending : (s.setCtx k x).pending = s.pending := rfl
end

section
variable (s : State) (k : Nat) (h : Ctx → Ctx)
@[simp] theorem State.updCtx_regs : (s.updCtx k h).regs = s.regs := rfl
@[simp] theorem State.updCtx_shadow : (s.updCtx k h).shadow = s.shadow := rfl
@[simp] theorem State.updCtx_locked : (s.updCtx k h).locked = s.locked := rfl
@[simp] theorem State.updCtx_variant : (s.updCtx k h).variant = s.variant := rfl
@[simp] theorem State.updCtx_stepping : (s.updCtx k h).stepping = s.stepping := rfl
@[simp] theorem State.updCtx_lifecycle : (s.updCtx k h).lifecycle = s.lifecycle := rfl
@[simp] theorem State.updCtx_svnFloor : (s.updCtx k h).svnFloor = s.svnFloor := rfl
@[simp] theorem State.updCtx_fwKeyHash : (s.updCtx k h).fwKeyHash = s.fwKeyHash := rfl
@[simp] theorem State.updCtx_identityOk : (s.updCtx k h).identityOk = s.identityOk := rfl
@[simp] theorem State.updCtx_now : (s.updCtx k h).now = s.now := rfl
@[simp] theorem State.updCtx_dawn : (s.updCtx k h).dawn = s.dawn := rfl
@[simp] theorem State.updCtx_deviceHalted : (s.updCtx k h).deviceHalted = s.deviceHalted := rfl
@[simp] theorem State.updCtx_injectStop : (s.updCtx k h).injectStop = s.injectStop := rfl
@[simp] theorem State.updCtx_quiesceStep : (s.updCtx k h).quiesceStep = s.quiesceStep := rfl
@[simp] theorem State.updCtx_pins : (s.updCtx k h).pins = s.pins := rfl
@[simp] theorem State.updCtx_templates : (s.updCtx k h).templates = s.templates := rfl
@[simp] theorem State.updCtx_images : (s.updCtx k h).images = s.images := rfl
@[simp] theorem State.updCtx_stored : (s.updCtx k h).stored = s.stored := rfl
@[simp] theorem State.updCtx_gateTable : (s.updCtx k h).gateTable = s.gateTable := rfl
@[simp] theorem State.updCtx_pes : (s.updCtx k h).pes = s.pes := rfl
@[simp] theorem State.updCtx_clusters : (s.updCtx k h).clusters = s.clusters := rfl
@[simp] theorem State.updCtx_phs : (s.updCtx k h).phs = s.phs := rfl
@[simp] theorem State.updCtx_bus : (s.updCtx k h).bus = s.bus := rfl
@[simp] theorem State.updCtx_phQueue : (s.updCtx k h).phQueue = s.phQueue := rfl
@[simp] theorem State.updCtx_phNow : (s.updCtx k h).phNow = s.phNow := rfl
@[simp] theorem State.updCtx_phPast : (s.updCtx k h).phPast = s.phPast := rfl
@[simp] theorem State.updCtx_exportAt : (s.updCtx k h).exportAt = s.exportAt := rfl
@[simp] theorem State.updCtx_inputs : (s.updCtx k h).inputs = s.inputs := rfl
@[simp] theorem State.updCtx_held : (s.updCtx k h).held = s.held := rfl
@[simp] theorem State.updCtx_ports : (s.updCtx k h).ports = s.ports := rfl
@[simp] theorem State.updCtx_rings : (s.updCtx k h).rings = s.rings := rfl
@[simp] theorem State.updCtx_chans : (s.updCtx k h).chans = s.chans := rfl
@[simp] theorem State.updCtx_schedU : (s.updCtx k h).schedU = s.schedU := rfl
@[simp] theorem State.updCtx_schedAt : (s.updCtx k h).schedAt = s.schedAt := rfl
@[simp] theorem State.updCtx_activeCauses : (s.updCtx k h).activeCauses = s.activeCauses := rfl
@[simp] theorem State.updCtx_offPending : (s.updCtx k h).offPending = s.offPending := rfl
@[simp] theorem State.updCtx_abortCount : (s.updCtx k h).abortCount = s.abortCount := rfl
@[simp] theorem State.updCtx_heartbeatAt : (s.updCtx k h).heartbeatAt = s.heartbeatAt := rfl
@[simp] theorem State.updCtx_net : (s.updCtx k h).net = s.net := rfl
@[simp] theorem State.updCtx_stations : (s.updCtx k h).stations = s.stations := rfl
@[simp] theorem State.updCtx_epochAt : (s.updCtx k h).epochAt = s.epochAt := rfl
@[simp] theorem State.updCtx_spans : (s.updCtx k h).spans = s.spans := rfl
@[simp] theorem State.updCtx_spanTxns : (s.updCtx k h).spanTxns = s.spanTxns := rfl
@[simp] theorem State.updCtx_mem : (s.updCtx k h).mem = s.mem := rfl
@[simp] theorem State.updCtx_presence : (s.updCtx k h).presence = s.presence := rfl
@[simp] theorem State.updCtx_bad : (s.updCtx k h).bad = s.bad := rfl
@[simp] theorem State.updCtx_defers : (s.updCtx k h).defers = s.defers := rfl
@[simp] theorem State.updCtx_sweep : (s.updCtx k h).sweep = s.sweep := rfl
@[simp] theorem State.updCtx_locks : (s.updCtx k h).locks = s.locks := rfl
@[simp] theorem State.updCtx_flt : (s.updCtx k h).flt = s.flt := rfl
@[simp] theorem State.updCtx_wstart : (s.updCtx k h).wstart = s.wstart := rfl
@[simp] theorem State.updCtx_causeCnt : (s.updCtx k h).causeCnt = s.causeCnt := rfl
@[simp] theorem State.updCtx_causePersist : (s.updCtx k h).causePersist = s.causePersist := rfl
@[simp] theorem State.updCtx_census : (s.updCtx k h).census = s.census := rfl
@[simp] theorem State.updCtx_censusSeen : (s.updCtx k h).censusSeen = s.censusSeen := rfl
@[simp] theorem State.updCtx_lifetime : (s.updCtx k h).lifetime = s.lifetime := rfl
@[simp] theorem State.updCtx_retQueue : (s.updCtx k h).retQueue = s.retQueue := rfl
@[simp] theorem State.updCtx_running : (s.updCtx k h).running = s.running := rfl
@[simp] theorem State.updCtx_copied : (s.updCtx k h).copied = s.copied := rfl
@[simp] theorem State.updCtx_committed : (s.updCtx k h).committed = s.committed := rfl
@[simp] theorem State.updCtx_spareRows : (s.updCtx k h).spareRows = s.spareRows := rfl
@[simp] theorem State.updCtx_mapRecs : (s.updCtx k h).mapRecs = s.mapRecs := rfl
@[simp] theorem State.updCtx_queues : (s.updCtx k h).queues = s.queues := rfl
@[simp] theorem State.updCtx_sessions : (s.updCtx k h).sessions = s.sessions := rfl
@[simp] theorem State.updCtx_nextCmd : (s.updCtx k h).nextCmd = s.nextCmd := rfl
@[simp] theorem State.updCtx_msixMask : (s.updCtx k h).msixMask = s.msixMask := rfl
@[simp] theorem State.updCtx_fnState : (s.updCtx k h).fnState = s.fnState := rfl
@[simp] theorem State.updCtx_grants : (s.updCtx k h).grants = s.grants := rfl
@[simp] theorem State.updCtx_linkState : (s.updCtx k h).linkState = s.linkState := rfl
@[simp] theorem State.updCtx_crsWindow : (s.updCtx k h).crsWindow = s.crsWindow := rfl
@[simp] theorem State.updCtx_flrFns : (s.updCtx k h).flrFns = s.flrFns := rfl
@[simp] theorem State.updCtx_threads : (s.updCtx k h).threads = s.threads := rfl
@[simp] theorem State.updCtx_mats : (s.updCtx k h).mats = s.mats := rfl
@[simp] theorem State.updCtx_log : (s.updCtx k h).log = s.log := rfl
@[simp] theorem State.updCtx_doms : (s.updCtx k h).doms = s.doms := rfl
@[simp] theorem State.updCtx_ledger : (s.updCtx k h).ledger = s.ledger := rfl
@[simp] theorem State.updCtx_admitted : (s.updCtx k h).admitted = s.admitted := rfl
@[simp] theorem State.updCtx_opPhase : (s.updCtx k h).opPhase = s.opPhase := rfl
@[simp] theorem State.updCtx_ctrs : (s.updCtx k h).ctrs = s.ctrs := rfl
@[simp] theorem State.updCtx_snapStep : (s.updCtx k h).snapStep = s.snapStep := rfl
@[simp] theorem State.updCtx_snapAt : (s.updCtx k h).snapAt = s.snapAt := rfl
@[simp] theorem State.updCtx_snapshot : (s.updCtx k h).snapshot = s.snapshot := rfl
@[simp] theorem State.updCtx_latched : (s.updCtx k h).latched = s.latched := rfl
@[simp] theorem State.updCtx_pwrE : (s.updCtx k h).pwrE = s.pwrE := rfl
@[simp] theorem State.updCtx_pwrSig : (s.updCtx k h).pwrSig = s.pwrSig := rfl
@[simp] theorem State.updCtx_cfgRec : (s.updCtx k h).cfgRec = s.cfgRec := rfl
@[simp] theorem State.updCtx_cfgPending : (s.updCtx k h).cfgPending = s.cfgPending := rfl
@[simp] theorem State.updCtx_idxL : (s.updCtx k h).idxL = s.idxL := rfl
@[simp] theorem State.updCtx_idxRseq : (s.updCtx k h).idxRseq = s.idxRseq := rfl
@[simp] theorem State.updCtx_idxLow : (s.updCtx k h).idxLow = s.idxLow := rfl
@[simp] theorem State.updCtx_mlog : (s.updCtx k h).mlog = s.mlog := rfl
@[simp] theorem State.updCtx_mAcc : (s.updCtx k h).mAcc = s.mAcc := rfl
@[simp] theorem State.updCtx_fwInfo : (s.updCtx k h).fwInfo = s.fwInfo := rfl
@[simp] theorem State.updCtx_quoteCmd : (s.updCtx k h).quoteCmd = s.quoteCmd := rfl
@[simp] theorem State.updCtx_hashReq : (s.updCtx k h).hashReq = s.hashReq := rfl
@[simp] theorem State.updCtx_recovery : (s.updCtx k h).recovery = s.recovery := rfl
@[simp] theorem State.updCtx_dbgData : (s.updCtx k h).dbgData = s.dbgData := rfl
@[simp] theorem State.updCtx_dbgBusy : (s.updCtx k h).dbgBusy = s.dbgBusy := rfl
@[simp] theorem State.updCtx_authBuf : (s.updCtx k h).authBuf = s.authBuf := rfl
@[simp] theorem State.updCtx_authBusy : (s.updCtx k h).authBusy = s.authBusy := rfl
@[simp] theorem State.updCtx_challengeNo : (s.updCtx k h).challengeNo = s.challengeNo := rfl
@[simp] theorem State.updCtx_tap : (s.updCtx k h).tap = s.tap := rfl
@[simp] theorem State.updCtx_free : (s.updCtx k h).free = s.free := rfl
@[simp] theorem State.updCtx_out : (s.updCtx k h).out = s.out := rfl
@[simp] theorem State.updCtx_pending : (s.updCtx k h).pending = s.pending := rfl
end

section
variable (s : State) (k : Nat) (x : Pe)
@[simp] theorem State.setPe_regs : (s.setPe k x).regs = s.regs := rfl
@[simp] theorem State.setPe_shadow : (s.setPe k x).shadow = s.shadow := rfl
@[simp] theorem State.setPe_locked : (s.setPe k x).locked = s.locked := rfl
@[simp] theorem State.setPe_variant : (s.setPe k x).variant = s.variant := rfl
@[simp] theorem State.setPe_stepping : (s.setPe k x).stepping = s.stepping := rfl
@[simp] theorem State.setPe_lifecycle : (s.setPe k x).lifecycle = s.lifecycle := rfl
@[simp] theorem State.setPe_svnFloor : (s.setPe k x).svnFloor = s.svnFloor := rfl
@[simp] theorem State.setPe_fwKeyHash : (s.setPe k x).fwKeyHash = s.fwKeyHash := rfl
@[simp] theorem State.setPe_identityOk : (s.setPe k x).identityOk = s.identityOk := rfl
@[simp] theorem State.setPe_now : (s.setPe k x).now = s.now := rfl
@[simp] theorem State.setPe_dawn : (s.setPe k x).dawn = s.dawn := rfl
@[simp] theorem State.setPe_deviceHalted : (s.setPe k x).deviceHalted = s.deviceHalted := rfl
@[simp] theorem State.setPe_injectStop : (s.setPe k x).injectStop = s.injectStop := rfl
@[simp] theorem State.setPe_quiesceStep : (s.setPe k x).quiesceStep = s.quiesceStep := rfl
@[simp] theorem State.setPe_pins : (s.setPe k x).pins = s.pins := rfl
@[simp] theorem State.setPe_ctxs : (s.setPe k x).ctxs = s.ctxs := rfl
@[simp] theorem State.setPe_templates : (s.setPe k x).templates = s.templates := rfl
@[simp] theorem State.setPe_images : (s.setPe k x).images = s.images := rfl
@[simp] theorem State.setPe_stored : (s.setPe k x).stored = s.stored := rfl
@[simp] theorem State.setPe_gateTable : (s.setPe k x).gateTable = s.gateTable := rfl
@[simp] theorem State.setPe_clusters : (s.setPe k x).clusters = s.clusters := rfl
@[simp] theorem State.setPe_phs : (s.setPe k x).phs = s.phs := rfl
@[simp] theorem State.setPe_bus : (s.setPe k x).bus = s.bus := rfl
@[simp] theorem State.setPe_phQueue : (s.setPe k x).phQueue = s.phQueue := rfl
@[simp] theorem State.setPe_phNow : (s.setPe k x).phNow = s.phNow := rfl
@[simp] theorem State.setPe_phPast : (s.setPe k x).phPast = s.phPast := rfl
@[simp] theorem State.setPe_exportAt : (s.setPe k x).exportAt = s.exportAt := rfl
@[simp] theorem State.setPe_inputs : (s.setPe k x).inputs = s.inputs := rfl
@[simp] theorem State.setPe_held : (s.setPe k x).held = s.held := rfl
@[simp] theorem State.setPe_ports : (s.setPe k x).ports = s.ports := rfl
@[simp] theorem State.setPe_rings : (s.setPe k x).rings = s.rings := rfl
@[simp] theorem State.setPe_chans : (s.setPe k x).chans = s.chans := rfl
@[simp] theorem State.setPe_schedU : (s.setPe k x).schedU = s.schedU := rfl
@[simp] theorem State.setPe_schedAt : (s.setPe k x).schedAt = s.schedAt := rfl
@[simp] theorem State.setPe_activeCauses : (s.setPe k x).activeCauses = s.activeCauses := rfl
@[simp] theorem State.setPe_offPending : (s.setPe k x).offPending = s.offPending := rfl
@[simp] theorem State.setPe_abortCount : (s.setPe k x).abortCount = s.abortCount := rfl
@[simp] theorem State.setPe_heartbeatAt : (s.setPe k x).heartbeatAt = s.heartbeatAt := rfl
@[simp] theorem State.setPe_net : (s.setPe k x).net = s.net := rfl
@[simp] theorem State.setPe_stations : (s.setPe k x).stations = s.stations := rfl
@[simp] theorem State.setPe_epochAt : (s.setPe k x).epochAt = s.epochAt := rfl
@[simp] theorem State.setPe_spans : (s.setPe k x).spans = s.spans := rfl
@[simp] theorem State.setPe_spanTxns : (s.setPe k x).spanTxns = s.spanTxns := rfl
@[simp] theorem State.setPe_mem : (s.setPe k x).mem = s.mem := rfl
@[simp] theorem State.setPe_presence : (s.setPe k x).presence = s.presence := rfl
@[simp] theorem State.setPe_bad : (s.setPe k x).bad = s.bad := rfl
@[simp] theorem State.setPe_defers : (s.setPe k x).defers = s.defers := rfl
@[simp] theorem State.setPe_sweep : (s.setPe k x).sweep = s.sweep := rfl
@[simp] theorem State.setPe_locks : (s.setPe k x).locks = s.locks := rfl
@[simp] theorem State.setPe_flt : (s.setPe k x).flt = s.flt := rfl
@[simp] theorem State.setPe_wstart : (s.setPe k x).wstart = s.wstart := rfl
@[simp] theorem State.setPe_causeCnt : (s.setPe k x).causeCnt = s.causeCnt := rfl
@[simp] theorem State.setPe_causePersist : (s.setPe k x).causePersist = s.causePersist := rfl
@[simp] theorem State.setPe_census : (s.setPe k x).census = s.census := rfl
@[simp] theorem State.setPe_censusSeen : (s.setPe k x).censusSeen = s.censusSeen := rfl
@[simp] theorem State.setPe_lifetime : (s.setPe k x).lifetime = s.lifetime := rfl
@[simp] theorem State.setPe_retQueue : (s.setPe k x).retQueue = s.retQueue := rfl
@[simp] theorem State.setPe_running : (s.setPe k x).running = s.running := rfl
@[simp] theorem State.setPe_copied : (s.setPe k x).copied = s.copied := rfl
@[simp] theorem State.setPe_committed : (s.setPe k x).committed = s.committed := rfl
@[simp] theorem State.setPe_spareRows : (s.setPe k x).spareRows = s.spareRows := rfl
@[simp] theorem State.setPe_mapRecs : (s.setPe k x).mapRecs = s.mapRecs := rfl
@[simp] theorem State.setPe_queues : (s.setPe k x).queues = s.queues := rfl
@[simp] theorem State.setPe_sessions : (s.setPe k x).sessions = s.sessions := rfl
@[simp] theorem State.setPe_nextCmd : (s.setPe k x).nextCmd = s.nextCmd := rfl
@[simp] theorem State.setPe_msixMask : (s.setPe k x).msixMask = s.msixMask := rfl
@[simp] theorem State.setPe_fnState : (s.setPe k x).fnState = s.fnState := rfl
@[simp] theorem State.setPe_grants : (s.setPe k x).grants = s.grants := rfl
@[simp] theorem State.setPe_linkState : (s.setPe k x).linkState = s.linkState := rfl
@[simp] theorem State.setPe_crsWindow : (s.setPe k x).crsWindow = s.crsWindow := rfl
@[simp] theorem State.setPe_flrFns : (s.setPe k x).flrFns = s.flrFns := rfl
@[simp] theorem State.setPe_threads : (s.setPe k x).threads = s.threads := rfl
@[simp] theorem State.setPe_mats : (s.setPe k x).mats = s.mats := rfl
@[simp] theorem State.setPe_log : (s.setPe k x).log = s.log := rfl
@[simp] theorem State.setPe_doms : (s.setPe k x).doms = s.doms := rfl
@[simp] theorem State.setPe_ledger : (s.setPe k x).ledger = s.ledger := rfl
@[simp] theorem State.setPe_admitted : (s.setPe k x).admitted = s.admitted := rfl
@[simp] theorem State.setPe_opPhase : (s.setPe k x).opPhase = s.opPhase := rfl
@[simp] theorem State.setPe_ctrs : (s.setPe k x).ctrs = s.ctrs := rfl
@[simp] theorem State.setPe_snapStep : (s.setPe k x).snapStep = s.snapStep := rfl
@[simp] theorem State.setPe_snapAt : (s.setPe k x).snapAt = s.snapAt := rfl
@[simp] theorem State.setPe_snapshot : (s.setPe k x).snapshot = s.snapshot := rfl
@[simp] theorem State.setPe_latched : (s.setPe k x).latched = s.latched := rfl
@[simp] theorem State.setPe_pwrE : (s.setPe k x).pwrE = s.pwrE := rfl
@[simp] theorem State.setPe_pwrSig : (s.setPe k x).pwrSig = s.pwrSig := rfl
@[simp] theorem State.setPe_cfgRec : (s.setPe k x).cfgRec = s.cfgRec := rfl
@[simp] theorem State.setPe_cfgPending : (s.setPe k x).cfgPending = s.cfgPending := rfl
@[simp] theorem State.setPe_idxL : (s.setPe k x).idxL = s.idxL := rfl
@[simp] theorem State.setPe_idxRseq : (s.setPe k x).idxRseq = s.idxRseq := rfl
@[simp] theorem State.setPe_idxLow : (s.setPe k x).idxLow = s.idxLow := rfl
@[simp] theorem State.setPe_mlog : (s.setPe k x).mlog = s.mlog := rfl
@[simp] theorem State.setPe_mAcc : (s.setPe k x).mAcc = s.mAcc := rfl
@[simp] theorem State.setPe_fwInfo : (s.setPe k x).fwInfo = s.fwInfo := rfl
@[simp] theorem State.setPe_quoteCmd : (s.setPe k x).quoteCmd = s.quoteCmd := rfl
@[simp] theorem State.setPe_hashReq : (s.setPe k x).hashReq = s.hashReq := rfl
@[simp] theorem State.setPe_recovery : (s.setPe k x).recovery = s.recovery := rfl
@[simp] theorem State.setPe_dbgData : (s.setPe k x).dbgData = s.dbgData := rfl
@[simp] theorem State.setPe_dbgBusy : (s.setPe k x).dbgBusy = s.dbgBusy := rfl
@[simp] theorem State.setPe_authBuf : (s.setPe k x).authBuf = s.authBuf := rfl
@[simp] theorem State.setPe_authBusy : (s.setPe k x).authBusy = s.authBusy := rfl
@[simp] theorem State.setPe_challengeNo : (s.setPe k x).challengeNo = s.challengeNo := rfl
@[simp] theorem State.setPe_tap : (s.setPe k x).tap = s.tap := rfl
@[simp] theorem State.setPe_free : (s.setPe k x).free = s.free := rfl
@[simp] theorem State.setPe_out : (s.setPe k x).out = s.out := rfl
@[simp] theorem State.setPe_pending : (s.setPe k x).pending = s.pending := rfl
end

section
variable (s : State) (k : Nat) (h : Pe → Pe)
@[simp] theorem State.updPe_regs : (s.updPe k h).regs = s.regs := rfl
@[simp] theorem State.updPe_shadow : (s.updPe k h).shadow = s.shadow := rfl
@[simp] theorem State.updPe_locked : (s.updPe k h).locked = s.locked := rfl
@[simp] theorem State.updPe_variant : (s.updPe k h).variant = s.variant := rfl
@[simp] theorem State.updPe_stepping : (s.updPe k h).stepping = s.stepping := rfl
@[simp] theorem State.updPe_lifecycle : (s.updPe k h).lifecycle = s.lifecycle := rfl
@[simp] theorem State.updPe_svnFloor : (s.updPe k h).svnFloor = s.svnFloor := rfl
@[simp] theorem State.updPe_fwKeyHash : (s.updPe k h).fwKeyHash = s.fwKeyHash := rfl
@[simp] theorem State.updPe_identityOk : (s.updPe k h).identityOk = s.identityOk := rfl
@[simp] theorem State.updPe_now : (s.updPe k h).now = s.now := rfl
@[simp] theorem State.updPe_dawn : (s.updPe k h).dawn = s.dawn := rfl
@[simp] theorem State.updPe_deviceHalted : (s.updPe k h).deviceHalted = s.deviceHalted := rfl
@[simp] theorem State.updPe_injectStop : (s.updPe k h).injectStop = s.injectStop := rfl
@[simp] theorem State.updPe_quiesceStep : (s.updPe k h).quiesceStep = s.quiesceStep := rfl
@[simp] theorem State.updPe_pins : (s.updPe k h).pins = s.pins := rfl
@[simp] theorem State.updPe_ctxs : (s.updPe k h).ctxs = s.ctxs := rfl
@[simp] theorem State.updPe_templates : (s.updPe k h).templates = s.templates := rfl
@[simp] theorem State.updPe_images : (s.updPe k h).images = s.images := rfl
@[simp] theorem State.updPe_stored : (s.updPe k h).stored = s.stored := rfl
@[simp] theorem State.updPe_gateTable : (s.updPe k h).gateTable = s.gateTable := rfl
@[simp] theorem State.updPe_clusters : (s.updPe k h).clusters = s.clusters := rfl
@[simp] theorem State.updPe_phs : (s.updPe k h).phs = s.phs := rfl
@[simp] theorem State.updPe_bus : (s.updPe k h).bus = s.bus := rfl
@[simp] theorem State.updPe_phQueue : (s.updPe k h).phQueue = s.phQueue := rfl
@[simp] theorem State.updPe_phNow : (s.updPe k h).phNow = s.phNow := rfl
@[simp] theorem State.updPe_phPast : (s.updPe k h).phPast = s.phPast := rfl
@[simp] theorem State.updPe_exportAt : (s.updPe k h).exportAt = s.exportAt := rfl
@[simp] theorem State.updPe_inputs : (s.updPe k h).inputs = s.inputs := rfl
@[simp] theorem State.updPe_held : (s.updPe k h).held = s.held := rfl
@[simp] theorem State.updPe_ports : (s.updPe k h).ports = s.ports := rfl
@[simp] theorem State.updPe_rings : (s.updPe k h).rings = s.rings := rfl
@[simp] theorem State.updPe_chans : (s.updPe k h).chans = s.chans := rfl
@[simp] theorem State.updPe_schedU : (s.updPe k h).schedU = s.schedU := rfl
@[simp] theorem State.updPe_schedAt : (s.updPe k h).schedAt = s.schedAt := rfl
@[simp] theorem State.updPe_activeCauses : (s.updPe k h).activeCauses = s.activeCauses := rfl
@[simp] theorem State.updPe_offPending : (s.updPe k h).offPending = s.offPending := rfl
@[simp] theorem State.updPe_abortCount : (s.updPe k h).abortCount = s.abortCount := rfl
@[simp] theorem State.updPe_heartbeatAt : (s.updPe k h).heartbeatAt = s.heartbeatAt := rfl
@[simp] theorem State.updPe_net : (s.updPe k h).net = s.net := rfl
@[simp] theorem State.updPe_stations : (s.updPe k h).stations = s.stations := rfl
@[simp] theorem State.updPe_epochAt : (s.updPe k h).epochAt = s.epochAt := rfl
@[simp] theorem State.updPe_spans : (s.updPe k h).spans = s.spans := rfl
@[simp] theorem State.updPe_spanTxns : (s.updPe k h).spanTxns = s.spanTxns := rfl
@[simp] theorem State.updPe_mem : (s.updPe k h).mem = s.mem := rfl
@[simp] theorem State.updPe_presence : (s.updPe k h).presence = s.presence := rfl
@[simp] theorem State.updPe_bad : (s.updPe k h).bad = s.bad := rfl
@[simp] theorem State.updPe_defers : (s.updPe k h).defers = s.defers := rfl
@[simp] theorem State.updPe_sweep : (s.updPe k h).sweep = s.sweep := rfl
@[simp] theorem State.updPe_locks : (s.updPe k h).locks = s.locks := rfl
@[simp] theorem State.updPe_flt : (s.updPe k h).flt = s.flt := rfl
@[simp] theorem State.updPe_wstart : (s.updPe k h).wstart = s.wstart := rfl
@[simp] theorem State.updPe_causeCnt : (s.updPe k h).causeCnt = s.causeCnt := rfl
@[simp] theorem State.updPe_causePersist : (s.updPe k h).causePersist = s.causePersist := rfl
@[simp] theorem State.updPe_census : (s.updPe k h).census = s.census := rfl
@[simp] theorem State.updPe_censusSeen : (s.updPe k h).censusSeen = s.censusSeen := rfl
@[simp] theorem State.updPe_lifetime : (s.updPe k h).lifetime = s.lifetime := rfl
@[simp] theorem State.updPe_retQueue : (s.updPe k h).retQueue = s.retQueue := rfl
@[simp] theorem State.updPe_running : (s.updPe k h).running = s.running := rfl
@[simp] theorem State.updPe_copied : (s.updPe k h).copied = s.copied := rfl
@[simp] theorem State.updPe_committed : (s.updPe k h).committed = s.committed := rfl
@[simp] theorem State.updPe_spareRows : (s.updPe k h).spareRows = s.spareRows := rfl
@[simp] theorem State.updPe_mapRecs : (s.updPe k h).mapRecs = s.mapRecs := rfl
@[simp] theorem State.updPe_queues : (s.updPe k h).queues = s.queues := rfl
@[simp] theorem State.updPe_sessions : (s.updPe k h).sessions = s.sessions := rfl
@[simp] theorem State.updPe_nextCmd : (s.updPe k h).nextCmd = s.nextCmd := rfl
@[simp] theorem State.updPe_msixMask : (s.updPe k h).msixMask = s.msixMask := rfl
@[simp] theorem State.updPe_fnState : (s.updPe k h).fnState = s.fnState := rfl
@[simp] theorem State.updPe_grants : (s.updPe k h).grants = s.grants := rfl
@[simp] theorem State.updPe_linkState : (s.updPe k h).linkState = s.linkState := rfl
@[simp] theorem State.updPe_crsWindow : (s.updPe k h).crsWindow = s.crsWindow := rfl
@[simp] theorem State.updPe_flrFns : (s.updPe k h).flrFns = s.flrFns := rfl
@[simp] theorem State.updPe_threads : (s.updPe k h).threads = s.threads := rfl
@[simp] theorem State.updPe_mats : (s.updPe k h).mats = s.mats := rfl
@[simp] theorem State.updPe_log : (s.updPe k h).log = s.log := rfl
@[simp] theorem State.updPe_doms : (s.updPe k h).doms = s.doms := rfl
@[simp] theorem State.updPe_ledger : (s.updPe k h).ledger = s.ledger := rfl
@[simp] theorem State.updPe_admitted : (s.updPe k h).admitted = s.admitted := rfl
@[simp] theorem State.updPe_opPhase : (s.updPe k h).opPhase = s.opPhase := rfl
@[simp] theorem State.updPe_ctrs : (s.updPe k h).ctrs = s.ctrs := rfl
@[simp] theorem State.updPe_snapStep : (s.updPe k h).snapStep = s.snapStep := rfl
@[simp] theorem State.updPe_snapAt : (s.updPe k h).snapAt = s.snapAt := rfl
@[simp] theorem State.updPe_snapshot : (s.updPe k h).snapshot = s.snapshot := rfl
@[simp] theorem State.updPe_latched : (s.updPe k h).latched = s.latched := rfl
@[simp] theorem State.updPe_pwrE : (s.updPe k h).pwrE = s.pwrE := rfl
@[simp] theorem State.updPe_pwrSig : (s.updPe k h).pwrSig = s.pwrSig := rfl
@[simp] theorem State.updPe_cfgRec : (s.updPe k h).cfgRec = s.cfgRec := rfl
@[simp] theorem State.updPe_cfgPending : (s.updPe k h).cfgPending = s.cfgPending := rfl
@[simp] theorem State.updPe_idxL : (s.updPe k h).idxL = s.idxL := rfl
@[simp] theorem State.updPe_idxRseq : (s.updPe k h).idxRseq = s.idxRseq := rfl
@[simp] theorem State.updPe_idxLow : (s.updPe k h).idxLow = s.idxLow := rfl
@[simp] theorem State.updPe_mlog : (s.updPe k h).mlog = s.mlog := rfl
@[simp] theorem State.updPe_mAcc : (s.updPe k h).mAcc = s.mAcc := rfl
@[simp] theorem State.updPe_fwInfo : (s.updPe k h).fwInfo = s.fwInfo := rfl
@[simp] theorem State.updPe_quoteCmd : (s.updPe k h).quoteCmd = s.quoteCmd := rfl
@[simp] theorem State.updPe_hashReq : (s.updPe k h).hashReq = s.hashReq := rfl
@[simp] theorem State.updPe_recovery : (s.updPe k h).recovery = s.recovery := rfl
@[simp] theorem State.updPe_dbgData : (s.updPe k h).dbgData = s.dbgData := rfl
@[simp] theorem State.updPe_dbgBusy : (s.updPe k h).dbgBusy = s.dbgBusy := rfl
@[simp] theorem State.updPe_authBuf : (s.updPe k h).authBuf = s.authBuf := rfl
@[simp] theorem State.updPe_authBusy : (s.updPe k h).authBusy = s.authBusy := rfl
@[simp] theorem State.updPe_challengeNo : (s.updPe k h).challengeNo = s.challengeNo := rfl
@[simp] theorem State.updPe_tap : (s.updPe k h).tap = s.tap := rfl
@[simp] theorem State.updPe_free : (s.updPe k h).free = s.free := rfl
@[simp] theorem State.updPe_out : (s.updPe k h).out = s.out := rfl
@[simp] theorem State.updPe_pending : (s.updPe k h).pending = s.pending := rfl
end

section
variable (s : State) (k : Nat) (x : Cluster)
@[simp] theorem State.setCl_regs : (s.setCl k x).regs = s.regs := rfl
@[simp] theorem State.setCl_shadow : (s.setCl k x).shadow = s.shadow := rfl
@[simp] theorem State.setCl_locked : (s.setCl k x).locked = s.locked := rfl
@[simp] theorem State.setCl_variant : (s.setCl k x).variant = s.variant := rfl
@[simp] theorem State.setCl_stepping : (s.setCl k x).stepping = s.stepping := rfl
@[simp] theorem State.setCl_lifecycle : (s.setCl k x).lifecycle = s.lifecycle := rfl
@[simp] theorem State.setCl_svnFloor : (s.setCl k x).svnFloor = s.svnFloor := rfl
@[simp] theorem State.setCl_fwKeyHash : (s.setCl k x).fwKeyHash = s.fwKeyHash := rfl
@[simp] theorem State.setCl_identityOk : (s.setCl k x).identityOk = s.identityOk := rfl
@[simp] theorem State.setCl_now : (s.setCl k x).now = s.now := rfl
@[simp] theorem State.setCl_dawn : (s.setCl k x).dawn = s.dawn := rfl
@[simp] theorem State.setCl_deviceHalted : (s.setCl k x).deviceHalted = s.deviceHalted := rfl
@[simp] theorem State.setCl_injectStop : (s.setCl k x).injectStop = s.injectStop := rfl
@[simp] theorem State.setCl_quiesceStep : (s.setCl k x).quiesceStep = s.quiesceStep := rfl
@[simp] theorem State.setCl_pins : (s.setCl k x).pins = s.pins := rfl
@[simp] theorem State.setCl_ctxs : (s.setCl k x).ctxs = s.ctxs := rfl
@[simp] theorem State.setCl_templates : (s.setCl k x).templates = s.templates := rfl
@[simp] theorem State.setCl_images : (s.setCl k x).images = s.images := rfl
@[simp] theorem State.setCl_stored : (s.setCl k x).stored = s.stored := rfl
@[simp] theorem State.setCl_gateTable : (s.setCl k x).gateTable = s.gateTable := rfl
@[simp] theorem State.setCl_pes : (s.setCl k x).pes = s.pes := rfl
@[simp] theorem State.setCl_phs : (s.setCl k x).phs = s.phs := rfl
@[simp] theorem State.setCl_bus : (s.setCl k x).bus = s.bus := rfl
@[simp] theorem State.setCl_phQueue : (s.setCl k x).phQueue = s.phQueue := rfl
@[simp] theorem State.setCl_phNow : (s.setCl k x).phNow = s.phNow := rfl
@[simp] theorem State.setCl_phPast : (s.setCl k x).phPast = s.phPast := rfl
@[simp] theorem State.setCl_exportAt : (s.setCl k x).exportAt = s.exportAt := rfl
@[simp] theorem State.setCl_inputs : (s.setCl k x).inputs = s.inputs := rfl
@[simp] theorem State.setCl_held : (s.setCl k x).held = s.held := rfl
@[simp] theorem State.setCl_ports : (s.setCl k x).ports = s.ports := rfl
@[simp] theorem State.setCl_rings : (s.setCl k x).rings = s.rings := rfl
@[simp] theorem State.setCl_chans : (s.setCl k x).chans = s.chans := rfl
@[simp] theorem State.setCl_schedU : (s.setCl k x).schedU = s.schedU := rfl
@[simp] theorem State.setCl_schedAt : (s.setCl k x).schedAt = s.schedAt := rfl
@[simp] theorem State.setCl_activeCauses : (s.setCl k x).activeCauses = s.activeCauses := rfl
@[simp] theorem State.setCl_offPending : (s.setCl k x).offPending = s.offPending := rfl
@[simp] theorem State.setCl_abortCount : (s.setCl k x).abortCount = s.abortCount := rfl
@[simp] theorem State.setCl_heartbeatAt : (s.setCl k x).heartbeatAt = s.heartbeatAt := rfl
@[simp] theorem State.setCl_net : (s.setCl k x).net = s.net := rfl
@[simp] theorem State.setCl_stations : (s.setCl k x).stations = s.stations := rfl
@[simp] theorem State.setCl_epochAt : (s.setCl k x).epochAt = s.epochAt := rfl
@[simp] theorem State.setCl_spans : (s.setCl k x).spans = s.spans := rfl
@[simp] theorem State.setCl_spanTxns : (s.setCl k x).spanTxns = s.spanTxns := rfl
@[simp] theorem State.setCl_mem : (s.setCl k x).mem = s.mem := rfl
@[simp] theorem State.setCl_presence : (s.setCl k x).presence = s.presence := rfl
@[simp] theorem State.setCl_bad : (s.setCl k x).bad = s.bad := rfl
@[simp] theorem State.setCl_defers : (s.setCl k x).defers = s.defers := rfl
@[simp] theorem State.setCl_sweep : (s.setCl k x).sweep = s.sweep := rfl
@[simp] theorem State.setCl_locks : (s.setCl k x).locks = s.locks := rfl
@[simp] theorem State.setCl_flt : (s.setCl k x).flt = s.flt := rfl
@[simp] theorem State.setCl_wstart : (s.setCl k x).wstart = s.wstart := rfl
@[simp] theorem State.setCl_causeCnt : (s.setCl k x).causeCnt = s.causeCnt := rfl
@[simp] theorem State.setCl_causePersist : (s.setCl k x).causePersist = s.causePersist := rfl
@[simp] theorem State.setCl_census : (s.setCl k x).census = s.census := rfl
@[simp] theorem State.setCl_censusSeen : (s.setCl k x).censusSeen = s.censusSeen := rfl
@[simp] theorem State.setCl_lifetime : (s.setCl k x).lifetime = s.lifetime := rfl
@[simp] theorem State.setCl_retQueue : (s.setCl k x).retQueue = s.retQueue := rfl
@[simp] theorem State.setCl_running : (s.setCl k x).running = s.running := rfl
@[simp] theorem State.setCl_copied : (s.setCl k x).copied = s.copied := rfl
@[simp] theorem State.setCl_committed : (s.setCl k x).committed = s.committed := rfl
@[simp] theorem State.setCl_spareRows : (s.setCl k x).spareRows = s.spareRows := rfl
@[simp] theorem State.setCl_mapRecs : (s.setCl k x).mapRecs = s.mapRecs := rfl
@[simp] theorem State.setCl_queues : (s.setCl k x).queues = s.queues := rfl
@[simp] theorem State.setCl_sessions : (s.setCl k x).sessions = s.sessions := rfl
@[simp] theorem State.setCl_nextCmd : (s.setCl k x).nextCmd = s.nextCmd := rfl
@[simp] theorem State.setCl_msixMask : (s.setCl k x).msixMask = s.msixMask := rfl
@[simp] theorem State.setCl_fnState : (s.setCl k x).fnState = s.fnState := rfl
@[simp] theorem State.setCl_grants : (s.setCl k x).grants = s.grants := rfl
@[simp] theorem State.setCl_linkState : (s.setCl k x).linkState = s.linkState := rfl
@[simp] theorem State.setCl_crsWindow : (s.setCl k x).crsWindow = s.crsWindow := rfl
@[simp] theorem State.setCl_flrFns : (s.setCl k x).flrFns = s.flrFns := rfl
@[simp] theorem State.setCl_threads : (s.setCl k x).threads = s.threads := rfl
@[simp] theorem State.setCl_mats : (s.setCl k x).mats = s.mats := rfl
@[simp] theorem State.setCl_log : (s.setCl k x).log = s.log := rfl
@[simp] theorem State.setCl_doms : (s.setCl k x).doms = s.doms := rfl
@[simp] theorem State.setCl_ledger : (s.setCl k x).ledger = s.ledger := rfl
@[simp] theorem State.setCl_admitted : (s.setCl k x).admitted = s.admitted := rfl
@[simp] theorem State.setCl_opPhase : (s.setCl k x).opPhase = s.opPhase := rfl
@[simp] theorem State.setCl_ctrs : (s.setCl k x).ctrs = s.ctrs := rfl
@[simp] theorem State.setCl_snapStep : (s.setCl k x).snapStep = s.snapStep := rfl
@[simp] theorem State.setCl_snapAt : (s.setCl k x).snapAt = s.snapAt := rfl
@[simp] theorem State.setCl_snapshot : (s.setCl k x).snapshot = s.snapshot := rfl
@[simp] theorem State.setCl_latched : (s.setCl k x).latched = s.latched := rfl
@[simp] theorem State.setCl_pwrE : (s.setCl k x).pwrE = s.pwrE := rfl
@[simp] theorem State.setCl_pwrSig : (s.setCl k x).pwrSig = s.pwrSig := rfl
@[simp] theorem State.setCl_cfgRec : (s.setCl k x).cfgRec = s.cfgRec := rfl
@[simp] theorem State.setCl_cfgPending : (s.setCl k x).cfgPending = s.cfgPending := rfl
@[simp] theorem State.setCl_idxL : (s.setCl k x).idxL = s.idxL := rfl
@[simp] theorem State.setCl_idxRseq : (s.setCl k x).idxRseq = s.idxRseq := rfl
@[simp] theorem State.setCl_idxLow : (s.setCl k x).idxLow = s.idxLow := rfl
@[simp] theorem State.setCl_mlog : (s.setCl k x).mlog = s.mlog := rfl
@[simp] theorem State.setCl_mAcc : (s.setCl k x).mAcc = s.mAcc := rfl
@[simp] theorem State.setCl_fwInfo : (s.setCl k x).fwInfo = s.fwInfo := rfl
@[simp] theorem State.setCl_quoteCmd : (s.setCl k x).quoteCmd = s.quoteCmd := rfl
@[simp] theorem State.setCl_hashReq : (s.setCl k x).hashReq = s.hashReq := rfl
@[simp] theorem State.setCl_recovery : (s.setCl k x).recovery = s.recovery := rfl
@[simp] theorem State.setCl_dbgData : (s.setCl k x).dbgData = s.dbgData := rfl
@[simp] theorem State.setCl_dbgBusy : (s.setCl k x).dbgBusy = s.dbgBusy := rfl
@[simp] theorem State.setCl_authBuf : (s.setCl k x).authBuf = s.authBuf := rfl
@[simp] theorem State.setCl_authBusy : (s.setCl k x).authBusy = s.authBusy := rfl
@[simp] theorem State.setCl_challengeNo : (s.setCl k x).challengeNo = s.challengeNo := rfl
@[simp] theorem State.setCl_tap : (s.setCl k x).tap = s.tap := rfl
@[simp] theorem State.setCl_free : (s.setCl k x).free = s.free := rfl
@[simp] theorem State.setCl_out : (s.setCl k x).out = s.out := rfl
@[simp] theorem State.setCl_pending : (s.setCl k x).pending = s.pending := rfl
end

section
variable (s : State) (k : Nat) (h : Cluster → Cluster)
@[simp] theorem State.updCl_regs : (s.updCl k h).regs = s.regs := rfl
@[simp] theorem State.updCl_shadow : (s.updCl k h).shadow = s.shadow := rfl
@[simp] theorem State.updCl_locked : (s.updCl k h).locked = s.locked := rfl
@[simp] theorem State.updCl_variant : (s.updCl k h).variant = s.variant := rfl
@[simp] theorem State.updCl_stepping : (s.updCl k h).stepping = s.stepping := rfl
@[simp] theorem State.updCl_lifecycle : (s.updCl k h).lifecycle = s.lifecycle := rfl
@[simp] theorem State.updCl_svnFloor : (s.updCl k h).svnFloor = s.svnFloor := rfl
@[simp] theorem State.updCl_fwKeyHash : (s.updCl k h).fwKeyHash = s.fwKeyHash := rfl
@[simp] theorem State.updCl_identityOk : (s.updCl k h).identityOk = s.identityOk := rfl
@[simp] theorem State.updCl_now : (s.updCl k h).now = s.now := rfl
@[simp] theorem State.updCl_dawn : (s.updCl k h).dawn = s.dawn := rfl
@[simp] theorem State.updCl_deviceHalted : (s.updCl k h).deviceHalted = s.deviceHalted := rfl
@[simp] theorem State.updCl_injectStop : (s.updCl k h).injectStop = s.injectStop := rfl
@[simp] theorem State.updCl_quiesceStep : (s.updCl k h).quiesceStep = s.quiesceStep := rfl
@[simp] theorem State.updCl_pins : (s.updCl k h).pins = s.pins := rfl
@[simp] theorem State.updCl_ctxs : (s.updCl k h).ctxs = s.ctxs := rfl
@[simp] theorem State.updCl_templates : (s.updCl k h).templates = s.templates := rfl
@[simp] theorem State.updCl_images : (s.updCl k h).images = s.images := rfl
@[simp] theorem State.updCl_stored : (s.updCl k h).stored = s.stored := rfl
@[simp] theorem State.updCl_gateTable : (s.updCl k h).gateTable = s.gateTable := rfl
@[simp] theorem State.updCl_pes : (s.updCl k h).pes = s.pes := rfl
@[simp] theorem State.updCl_phs : (s.updCl k h).phs = s.phs := rfl
@[simp] theorem State.updCl_bus : (s.updCl k h).bus = s.bus := rfl
@[simp] theorem State.updCl_phQueue : (s.updCl k h).phQueue = s.phQueue := rfl
@[simp] theorem State.updCl_phNow : (s.updCl k h).phNow = s.phNow := rfl
@[simp] theorem State.updCl_phPast : (s.updCl k h).phPast = s.phPast := rfl
@[simp] theorem State.updCl_exportAt : (s.updCl k h).exportAt = s.exportAt := rfl
@[simp] theorem State.updCl_inputs : (s.updCl k h).inputs = s.inputs := rfl
@[simp] theorem State.updCl_held : (s.updCl k h).held = s.held := rfl
@[simp] theorem State.updCl_ports : (s.updCl k h).ports = s.ports := rfl
@[simp] theorem State.updCl_rings : (s.updCl k h).rings = s.rings := rfl
@[simp] theorem State.updCl_chans : (s.updCl k h).chans = s.chans := rfl
@[simp] theorem State.updCl_schedU : (s.updCl k h).schedU = s.schedU := rfl
@[simp] theorem State.updCl_schedAt : (s.updCl k h).schedAt = s.schedAt := rfl
@[simp] theorem State.updCl_activeCauses : (s.updCl k h).activeCauses = s.activeCauses := rfl
@[simp] theorem State.updCl_offPending : (s.updCl k h).offPending = s.offPending := rfl
@[simp] theorem State.updCl_abortCount : (s.updCl k h).abortCount = s.abortCount := rfl
@[simp] theorem State.updCl_heartbeatAt : (s.updCl k h).heartbeatAt = s.heartbeatAt := rfl
@[simp] theorem State.updCl_net : (s.updCl k h).net = s.net := rfl
@[simp] theorem State.updCl_stations : (s.updCl k h).stations = s.stations := rfl
@[simp] theorem State.updCl_epochAt : (s.updCl k h).epochAt = s.epochAt := rfl
@[simp] theorem State.updCl_spans : (s.updCl k h).spans = s.spans := rfl
@[simp] theorem State.updCl_spanTxns : (s.updCl k h).spanTxns = s.spanTxns := rfl
@[simp] theorem State.updCl_mem : (s.updCl k h).mem = s.mem := rfl
@[simp] theorem State.updCl_presence : (s.updCl k h).presence = s.presence := rfl
@[simp] theorem State.updCl_bad : (s.updCl k h).bad = s.bad := rfl
@[simp] theorem State.updCl_defers : (s.updCl k h).defers = s.defers := rfl
@[simp] theorem State.updCl_sweep : (s.updCl k h).sweep = s.sweep := rfl
@[simp] theorem State.updCl_locks : (s.updCl k h).locks = s.locks := rfl
@[simp] theorem State.updCl_flt : (s.updCl k h).flt = s.flt := rfl
@[simp] theorem State.updCl_wstart : (s.updCl k h).wstart = s.wstart := rfl
@[simp] theorem State.updCl_causeCnt : (s.updCl k h).causeCnt = s.causeCnt := rfl
@[simp] theorem State.updCl_causePersist : (s.updCl k h).causePersist = s.causePersist := rfl
@[simp] theorem State.updCl_census : (s.updCl k h).census = s.census := rfl
@[simp] theorem State.updCl_censusSeen : (s.updCl k h).censusSeen = s.censusSeen := rfl
@[simp] theorem State.updCl_lifetime : (s.updCl k h).lifetime = s.lifetime := rfl
@[simp] theorem State.updCl_retQueue : (s.updCl k h).retQueue = s.retQueue := rfl
@[simp] theorem State.updCl_running : (s.updCl k h).running = s.running := rfl
@[simp] theorem State.updCl_copied : (s.updCl k h).copied = s.copied := rfl
@[simp] theorem State.updCl_committed : (s.updCl k h).committed = s.committed := rfl
@[simp] theorem State.updCl_spareRows : (s.updCl k h).spareRows = s.spareRows := rfl
@[simp] theorem State.updCl_mapRecs : (s.updCl k h).mapRecs = s.mapRecs := rfl
@[simp] theorem State.updCl_queues : (s.updCl k h).queues = s.queues := rfl
@[simp] theorem State.updCl_sessions : (s.updCl k h).sessions = s.sessions := rfl
@[simp] theorem State.updCl_nextCmd : (s.updCl k h).nextCmd = s.nextCmd := rfl
@[simp] theorem State.updCl_msixMask : (s.updCl k h).msixMask = s.msixMask := rfl
@[simp] theorem State.updCl_fnState : (s.updCl k h).fnState = s.fnState := rfl
@[simp] theorem State.updCl_grants : (s.updCl k h).grants = s.grants := rfl
@[simp] theorem State.updCl_linkState : (s.updCl k h).linkState = s.linkState := rfl
@[simp] theorem State.updCl_crsWindow : (s.updCl k h).crsWindow = s.crsWindow := rfl
@[simp] theorem State.updCl_flrFns : (s.updCl k h).flrFns = s.flrFns := rfl
@[simp] theorem State.updCl_threads : (s.updCl k h).threads = s.threads := rfl
@[simp] theorem State.updCl_mats : (s.updCl k h).mats = s.mats := rfl
@[simp] theorem State.updCl_log : (s.updCl k h).log = s.log := rfl
@[simp] theorem State.updCl_doms : (s.updCl k h).doms = s.doms := rfl
@[simp] theorem State.updCl_ledger : (s.updCl k h).ledger = s.ledger := rfl
@[simp] theorem State.updCl_admitted : (s.updCl k h).admitted = s.admitted := rfl
@[simp] theorem State.updCl_opPhase : (s.updCl k h).opPhase = s.opPhase := rfl
@[simp] theorem State.updCl_ctrs : (s.updCl k h).ctrs = s.ctrs := rfl
@[simp] theorem State.updCl_snapStep : (s.updCl k h).snapStep = s.snapStep := rfl
@[simp] theorem State.updCl_snapAt : (s.updCl k h).snapAt = s.snapAt := rfl
@[simp] theorem State.updCl_snapshot : (s.updCl k h).snapshot = s.snapshot := rfl
@[simp] theorem State.updCl_latched : (s.updCl k h).latched = s.latched := rfl
@[simp] theorem State.updCl_pwrE : (s.updCl k h).pwrE = s.pwrE := rfl
@[simp] theorem State.updCl_pwrSig : (s.updCl k h).pwrSig = s.pwrSig := rfl
@[simp] theorem State.updCl_cfgRec : (s.updCl k h).cfgRec = s.cfgRec := rfl
@[simp] theorem State.updCl_cfgPending : (s.updCl k h).cfgPending = s.cfgPending := rfl
@[simp] theorem State.updCl_idxL : (s.updCl k h).idxL = s.idxL := rfl
@[simp] theorem State.updCl_idxRseq : (s.updCl k h).idxRseq = s.idxRseq := rfl
@[simp] theorem State.updCl_idxLow : (s.updCl k h).idxLow = s.idxLow := rfl
@[simp] theorem State.updCl_mlog : (s.updCl k h).mlog = s.mlog := rfl
@[simp] theorem State.updCl_mAcc : (s.updCl k h).mAcc = s.mAcc := rfl
@[simp] theorem State.updCl_fwInfo : (s.updCl k h).fwInfo = s.fwInfo := rfl
@[simp] theorem State.updCl_quoteCmd : (s.updCl k h).quoteCmd = s.quoteCmd := rfl
@[simp] theorem State.updCl_hashReq : (s.updCl k h).hashReq = s.hashReq := rfl
@[simp] theorem State.updCl_recovery : (s.updCl k h).recovery = s.recovery := rfl
@[simp] theorem State.updCl_dbgData : (s.updCl k h).dbgData = s.dbgData := rfl
@[simp] theorem State.updCl_dbgBusy : (s.updCl k h).dbgBusy = s.dbgBusy := rfl
@[simp] theorem State.updCl_authBuf : (s.updCl k h).authBuf = s.authBuf := rfl
@[simp] theorem State.updCl_authBusy : (s.updCl k h).authBusy = s.authBusy := rfl
@[simp] theorem State.updCl_challengeNo : (s.updCl k h).challengeNo = s.challengeNo := rfl
@[simp] theorem State.updCl_tap : (s.updCl k h).tap = s.tap := rfl
@[simp] theorem State.updCl_free : (s.updCl k h).free = s.free := rfl
@[simp] theorem State.updCl_out : (s.updCl k h).out = s.out := rfl
@[simp] theorem State.updCl_pending : (s.updCl k h).pending = s.pending := rfl
end

section
variable (s : State) (k : Nat) (x : PhSrc)
@[simp] theorem State.setPh_regs : (s.setPh k x).regs = s.regs := rfl
@[simp] theorem State.setPh_shadow : (s.setPh k x).shadow = s.shadow := rfl
@[simp] theorem State.setPh_locked : (s.setPh k x).locked = s.locked := rfl
@[simp] theorem State.setPh_variant : (s.setPh k x).variant = s.variant := rfl
@[simp] theorem State.setPh_stepping : (s.setPh k x).stepping = s.stepping := rfl
@[simp] theorem State.setPh_lifecycle : (s.setPh k x).lifecycle = s.lifecycle := rfl
@[simp] theorem State.setPh_svnFloor : (s.setPh k x).svnFloor = s.svnFloor := rfl
@[simp] theorem State.setPh_fwKeyHash : (s.setPh k x).fwKeyHash = s.fwKeyHash := rfl
@[simp] theorem State.setPh_identityOk : (s.setPh k x).identityOk = s.identityOk := rfl
@[simp] theorem State.setPh_now : (s.setPh k x).now = s.now := rfl
@[simp] theorem State.setPh_dawn : (s.setPh k x).dawn = s.dawn := rfl
@[simp] theorem State.setPh_deviceHalted : (s.setPh k x).deviceHalted = s.deviceHalted := rfl
@[simp] theorem State.setPh_injectStop : (s.setPh k x).injectStop = s.injectStop := rfl
@[simp] theorem State.setPh_quiesceStep : (s.setPh k x).quiesceStep = s.quiesceStep := rfl
@[simp] theorem State.setPh_pins : (s.setPh k x).pins = s.pins := rfl
@[simp] theorem State.setPh_ctxs : (s.setPh k x).ctxs = s.ctxs := rfl
@[simp] theorem State.setPh_templates : (s.setPh k x).templates = s.templates := rfl
@[simp] theorem State.setPh_images : (s.setPh k x).images = s.images := rfl
@[simp] theorem State.setPh_stored : (s.setPh k x).stored = s.stored := rfl
@[simp] theorem State.setPh_gateTable : (s.setPh k x).gateTable = s.gateTable := rfl
@[simp] theorem State.setPh_pes : (s.setPh k x).pes = s.pes := rfl
@[simp] theorem State.setPh_clusters : (s.setPh k x).clusters = s.clusters := rfl
@[simp] theorem State.setPh_bus : (s.setPh k x).bus = s.bus := rfl
@[simp] theorem State.setPh_phQueue : (s.setPh k x).phQueue = s.phQueue := rfl
@[simp] theorem State.setPh_phNow : (s.setPh k x).phNow = s.phNow := rfl
@[simp] theorem State.setPh_phPast : (s.setPh k x).phPast = s.phPast := rfl
@[simp] theorem State.setPh_exportAt : (s.setPh k x).exportAt = s.exportAt := rfl
@[simp] theorem State.setPh_inputs : (s.setPh k x).inputs = s.inputs := rfl
@[simp] theorem State.setPh_held : (s.setPh k x).held = s.held := rfl
@[simp] theorem State.setPh_ports : (s.setPh k x).ports = s.ports := rfl
@[simp] theorem State.setPh_rings : (s.setPh k x).rings = s.rings := rfl
@[simp] theorem State.setPh_chans : (s.setPh k x).chans = s.chans := rfl
@[simp] theorem State.setPh_schedU : (s.setPh k x).schedU = s.schedU := rfl
@[simp] theorem State.setPh_schedAt : (s.setPh k x).schedAt = s.schedAt := rfl
@[simp] theorem State.setPh_activeCauses : (s.setPh k x).activeCauses = s.activeCauses := rfl
@[simp] theorem State.setPh_offPending : (s.setPh k x).offPending = s.offPending := rfl
@[simp] theorem State.setPh_abortCount : (s.setPh k x).abortCount = s.abortCount := rfl
@[simp] theorem State.setPh_heartbeatAt : (s.setPh k x).heartbeatAt = s.heartbeatAt := rfl
@[simp] theorem State.setPh_net : (s.setPh k x).net = s.net := rfl
@[simp] theorem State.setPh_stations : (s.setPh k x).stations = s.stations := rfl
@[simp] theorem State.setPh_epochAt : (s.setPh k x).epochAt = s.epochAt := rfl
@[simp] theorem State.setPh_spans : (s.setPh k x).spans = s.spans := rfl
@[simp] theorem State.setPh_spanTxns : (s.setPh k x).spanTxns = s.spanTxns := rfl
@[simp] theorem State.setPh_mem : (s.setPh k x).mem = s.mem := rfl
@[simp] theorem State.setPh_presence : (s.setPh k x).presence = s.presence := rfl
@[simp] theorem State.setPh_bad : (s.setPh k x).bad = s.bad := rfl
@[simp] theorem State.setPh_defers : (s.setPh k x).defers = s.defers := rfl
@[simp] theorem State.setPh_sweep : (s.setPh k x).sweep = s.sweep := rfl
@[simp] theorem State.setPh_locks : (s.setPh k x).locks = s.locks := rfl
@[simp] theorem State.setPh_flt : (s.setPh k x).flt = s.flt := rfl
@[simp] theorem State.setPh_wstart : (s.setPh k x).wstart = s.wstart := rfl
@[simp] theorem State.setPh_causeCnt : (s.setPh k x).causeCnt = s.causeCnt := rfl
@[simp] theorem State.setPh_causePersist : (s.setPh k x).causePersist = s.causePersist := rfl
@[simp] theorem State.setPh_census : (s.setPh k x).census = s.census := rfl
@[simp] theorem State.setPh_censusSeen : (s.setPh k x).censusSeen = s.censusSeen := rfl
@[simp] theorem State.setPh_lifetime : (s.setPh k x).lifetime = s.lifetime := rfl
@[simp] theorem State.setPh_retQueue : (s.setPh k x).retQueue = s.retQueue := rfl
@[simp] theorem State.setPh_running : (s.setPh k x).running = s.running := rfl
@[simp] theorem State.setPh_copied : (s.setPh k x).copied = s.copied := rfl
@[simp] theorem State.setPh_committed : (s.setPh k x).committed = s.committed := rfl
@[simp] theorem State.setPh_spareRows : (s.setPh k x).spareRows = s.spareRows := rfl
@[simp] theorem State.setPh_mapRecs : (s.setPh k x).mapRecs = s.mapRecs := rfl
@[simp] theorem State.setPh_queues : (s.setPh k x).queues = s.queues := rfl
@[simp] theorem State.setPh_sessions : (s.setPh k x).sessions = s.sessions := rfl
@[simp] theorem State.setPh_nextCmd : (s.setPh k x).nextCmd = s.nextCmd := rfl
@[simp] theorem State.setPh_msixMask : (s.setPh k x).msixMask = s.msixMask := rfl
@[simp] theorem State.setPh_fnState : (s.setPh k x).fnState = s.fnState := rfl
@[simp] theorem State.setPh_grants : (s.setPh k x).grants = s.grants := rfl
@[simp] theorem State.setPh_linkState : (s.setPh k x).linkState = s.linkState := rfl
@[simp] theorem State.setPh_crsWindow : (s.setPh k x).crsWindow = s.crsWindow := rfl
@[simp] theorem State.setPh_flrFns : (s.setPh k x).flrFns = s.flrFns := rfl
@[simp] theorem State.setPh_threads : (s.setPh k x).threads = s.threads := rfl
@[simp] theorem State.setPh_mats : (s.setPh k x).mats = s.mats := rfl
@[simp] theorem State.setPh_log : (s.setPh k x).log = s.log := rfl
@[simp] theorem State.setPh_doms : (s.setPh k x).doms = s.doms := rfl
@[simp] theorem State.setPh_ledger : (s.setPh k x).ledger = s.ledger := rfl
@[simp] theorem State.setPh_admitted : (s.setPh k x).admitted = s.admitted := rfl
@[simp] theorem State.setPh_opPhase : (s.setPh k x).opPhase = s.opPhase := rfl
@[simp] theorem State.setPh_ctrs : (s.setPh k x).ctrs = s.ctrs := rfl
@[simp] theorem State.setPh_snapStep : (s.setPh k x).snapStep = s.snapStep := rfl
@[simp] theorem State.setPh_snapAt : (s.setPh k x).snapAt = s.snapAt := rfl
@[simp] theorem State.setPh_snapshot : (s.setPh k x).snapshot = s.snapshot := rfl
@[simp] theorem State.setPh_latched : (s.setPh k x).latched = s.latched := rfl
@[simp] theorem State.setPh_pwrE : (s.setPh k x).pwrE = s.pwrE := rfl
@[simp] theorem State.setPh_pwrSig : (s.setPh k x).pwrSig = s.pwrSig := rfl
@[simp] theorem State.setPh_cfgRec : (s.setPh k x).cfgRec = s.cfgRec := rfl
@[simp] theorem State.setPh_cfgPending : (s.setPh k x).cfgPending = s.cfgPending := rfl
@[simp] theorem State.setPh_idxL : (s.setPh k x).idxL = s.idxL := rfl
@[simp] theorem State.setPh_idxRseq : (s.setPh k x).idxRseq = s.idxRseq := rfl
@[simp] theorem State.setPh_idxLow : (s.setPh k x).idxLow = s.idxLow := rfl
@[simp] theorem State.setPh_mlog : (s.setPh k x).mlog = s.mlog := rfl
@[simp] theorem State.setPh_mAcc : (s.setPh k x).mAcc = s.mAcc := rfl
@[simp] theorem State.setPh_fwInfo : (s.setPh k x).fwInfo = s.fwInfo := rfl
@[simp] theorem State.setPh_quoteCmd : (s.setPh k x).quoteCmd = s.quoteCmd := rfl
@[simp] theorem State.setPh_hashReq : (s.setPh k x).hashReq = s.hashReq := rfl
@[simp] theorem State.setPh_recovery : (s.setPh k x).recovery = s.recovery := rfl
@[simp] theorem State.setPh_dbgData : (s.setPh k x).dbgData = s.dbgData := rfl
@[simp] theorem State.setPh_dbgBusy : (s.setPh k x).dbgBusy = s.dbgBusy := rfl
@[simp] theorem State.setPh_authBuf : (s.setPh k x).authBuf = s.authBuf := rfl
@[simp] theorem State.setPh_authBusy : (s.setPh k x).authBusy = s.authBusy := rfl
@[simp] theorem State.setPh_challengeNo : (s.setPh k x).challengeNo = s.challengeNo := rfl
@[simp] theorem State.setPh_tap : (s.setPh k x).tap = s.tap := rfl
@[simp] theorem State.setPh_free : (s.setPh k x).free = s.free := rfl
@[simp] theorem State.setPh_out : (s.setPh k x).out = s.out := rfl
@[simp] theorem State.setPh_pending : (s.setPh k x).pending = s.pending := rfl
end

section
variable (s : State) (k : Nat) (h : PhSrc → PhSrc)
@[simp] theorem State.updPh_regs : (s.updPh k h).regs = s.regs := rfl
@[simp] theorem State.updPh_shadow : (s.updPh k h).shadow = s.shadow := rfl
@[simp] theorem State.updPh_locked : (s.updPh k h).locked = s.locked := rfl
@[simp] theorem State.updPh_variant : (s.updPh k h).variant = s.variant := rfl
@[simp] theorem State.updPh_stepping : (s.updPh k h).stepping = s.stepping := rfl
@[simp] theorem State.updPh_lifecycle : (s.updPh k h).lifecycle = s.lifecycle := rfl
@[simp] theorem State.updPh_svnFloor : (s.updPh k h).svnFloor = s.svnFloor := rfl
@[simp] theorem State.updPh_fwKeyHash : (s.updPh k h).fwKeyHash = s.fwKeyHash := rfl
@[simp] theorem State.updPh_identityOk : (s.updPh k h).identityOk = s.identityOk := rfl
@[simp] theorem State.updPh_now : (s.updPh k h).now = s.now := rfl
@[simp] theorem State.updPh_dawn : (s.updPh k h).dawn = s.dawn := rfl
@[simp] theorem State.updPh_deviceHalted : (s.updPh k h).deviceHalted = s.deviceHalted := rfl
@[simp] theorem State.updPh_injectStop : (s.updPh k h).injectStop = s.injectStop := rfl
@[simp] theorem State.updPh_quiesceStep : (s.updPh k h).quiesceStep = s.quiesceStep := rfl
@[simp] theorem State.updPh_pins : (s.updPh k h).pins = s.pins := rfl
@[simp] theorem State.updPh_ctxs : (s.updPh k h).ctxs = s.ctxs := rfl
@[simp] theorem State.updPh_templates : (s.updPh k h).templates = s.templates := rfl
@[simp] theorem State.updPh_images : (s.updPh k h).images = s.images := rfl
@[simp] theorem State.updPh_stored : (s.updPh k h).stored = s.stored := rfl
@[simp] theorem State.updPh_gateTable : (s.updPh k h).gateTable = s.gateTable := rfl
@[simp] theorem State.updPh_pes : (s.updPh k h).pes = s.pes := rfl
@[simp] theorem State.updPh_clusters : (s.updPh k h).clusters = s.clusters := rfl
@[simp] theorem State.updPh_bus : (s.updPh k h).bus = s.bus := rfl
@[simp] theorem State.updPh_phQueue : (s.updPh k h).phQueue = s.phQueue := rfl
@[simp] theorem State.updPh_phNow : (s.updPh k h).phNow = s.phNow := rfl
@[simp] theorem State.updPh_phPast : (s.updPh k h).phPast = s.phPast := rfl
@[simp] theorem State.updPh_exportAt : (s.updPh k h).exportAt = s.exportAt := rfl
@[simp] theorem State.updPh_inputs : (s.updPh k h).inputs = s.inputs := rfl
@[simp] theorem State.updPh_held : (s.updPh k h).held = s.held := rfl
@[simp] theorem State.updPh_ports : (s.updPh k h).ports = s.ports := rfl
@[simp] theorem State.updPh_rings : (s.updPh k h).rings = s.rings := rfl
@[simp] theorem State.updPh_chans : (s.updPh k h).chans = s.chans := rfl
@[simp] theorem State.updPh_schedU : (s.updPh k h).schedU = s.schedU := rfl
@[simp] theorem State.updPh_schedAt : (s.updPh k h).schedAt = s.schedAt := rfl
@[simp] theorem State.updPh_activeCauses : (s.updPh k h).activeCauses = s.activeCauses := rfl
@[simp] theorem State.updPh_offPending : (s.updPh k h).offPending = s.offPending := rfl
@[simp] theorem State.updPh_abortCount : (s.updPh k h).abortCount = s.abortCount := rfl
@[simp] theorem State.updPh_heartbeatAt : (s.updPh k h).heartbeatAt = s.heartbeatAt := rfl
@[simp] theorem State.updPh_net : (s.updPh k h).net = s.net := rfl
@[simp] theorem State.updPh_stations : (s.updPh k h).stations = s.stations := rfl
@[simp] theorem State.updPh_epochAt : (s.updPh k h).epochAt = s.epochAt := rfl
@[simp] theorem State.updPh_spans : (s.updPh k h).spans = s.spans := rfl
@[simp] theorem State.updPh_spanTxns : (s.updPh k h).spanTxns = s.spanTxns := rfl
@[simp] theorem State.updPh_mem : (s.updPh k h).mem = s.mem := rfl
@[simp] theorem State.updPh_presence : (s.updPh k h).presence = s.presence := rfl
@[simp] theorem State.updPh_bad : (s.updPh k h).bad = s.bad := rfl
@[simp] theorem State.updPh_defers : (s.updPh k h).defers = s.defers := rfl
@[simp] theorem State.updPh_sweep : (s.updPh k h).sweep = s.sweep := rfl
@[simp] theorem State.updPh_locks : (s.updPh k h).locks = s.locks := rfl
@[simp] theorem State.updPh_flt : (s.updPh k h).flt = s.flt := rfl
@[simp] theorem State.updPh_wstart : (s.updPh k h).wstart = s.wstart := rfl
@[simp] theorem State.updPh_causeCnt : (s.updPh k h).causeCnt = s.causeCnt := rfl
@[simp] theorem State.updPh_causePersist : (s.updPh k h).causePersist = s.causePersist := rfl
@[simp] theorem State.updPh_census : (s.updPh k h).census = s.census := rfl
@[simp] theorem State.updPh_censusSeen : (s.updPh k h).censusSeen = s.censusSeen := rfl
@[simp] theorem State.updPh_lifetime : (s.updPh k h).lifetime = s.lifetime := rfl
@[simp] theorem State.updPh_retQueue : (s.updPh k h).retQueue = s.retQueue := rfl
@[simp] theorem State.updPh_running : (s.updPh k h).running = s.running := rfl
@[simp] theorem State.updPh_copied : (s.updPh k h).copied = s.copied := rfl
@[simp] theorem State.updPh_committed : (s.updPh k h).committed = s.committed := rfl
@[simp] theorem State.updPh_spareRows : (s.updPh k h).spareRows = s.spareRows := rfl
@[simp] theorem State.updPh_mapRecs : (s.updPh k h).mapRecs = s.mapRecs := rfl
@[simp] theorem State.updPh_queues : (s.updPh k h).queues = s.queues := rfl
@[simp] theorem State.updPh_sessions : (s.updPh k h).sessions = s.sessions := rfl
@[simp] theorem State.updPh_nextCmd : (s.updPh k h).nextCmd = s.nextCmd := rfl
@[simp] theorem State.updPh_msixMask : (s.updPh k h).msixMask = s.msixMask := rfl
@[simp] theorem State.updPh_fnState : (s.updPh k h).fnState = s.fnState := rfl
@[simp] theorem State.updPh_grants : (s.updPh k h).grants = s.grants := rfl
@[simp] theorem State.updPh_linkState : (s.updPh k h).linkState = s.linkState := rfl
@[simp] theorem State.updPh_crsWindow : (s.updPh k h).crsWindow = s.crsWindow := rfl
@[simp] theorem State.updPh_flrFns : (s.updPh k h).flrFns = s.flrFns := rfl
@[simp] theorem State.updPh_threads : (s.updPh k h).threads = s.threads := rfl
@[simp] theorem State.updPh_mats : (s.updPh k h).mats = s.mats := rfl
@[simp] theorem State.updPh_log : (s.updPh k h).log = s.log := rfl
@[simp] theorem State.updPh_doms : (s.updPh k h).doms = s.doms := rfl
@[simp] theorem State.updPh_ledger : (s.updPh k h).ledger = s.ledger := rfl
@[simp] theorem State.updPh_admitted : (s.updPh k h).admitted = s.admitted := rfl
@[simp] theorem State.updPh_opPhase : (s.updPh k h).opPhase = s.opPhase := rfl
@[simp] theorem State.updPh_ctrs : (s.updPh k h).ctrs = s.ctrs := rfl
@[simp] theorem State.updPh_snapStep : (s.updPh k h).snapStep = s.snapStep := rfl
@[simp] theorem State.updPh_snapAt : (s.updPh k h).snapAt = s.snapAt := rfl
@[simp] theorem State.updPh_snapshot : (s.updPh k h).snapshot = s.snapshot := rfl
@[simp] theorem State.updPh_latched : (s.updPh k h).latched = s.latched := rfl
@[simp] theorem State.updPh_pwrE : (s.updPh k h).pwrE = s.pwrE := rfl
@[simp] theorem State.updPh_pwrSig : (s.updPh k h).pwrSig = s.pwrSig := rfl
@[simp] theorem State.updPh_cfgRec : (s.updPh k h).cfgRec = s.cfgRec := rfl
@[simp] theorem State.updPh_cfgPending : (s.updPh k h).cfgPending = s.cfgPending := rfl
@[simp] theorem State.updPh_idxL : (s.updPh k h).idxL = s.idxL := rfl
@[simp] theorem State.updPh_idxRseq : (s.updPh k h).idxRseq = s.idxRseq := rfl
@[simp] theorem State.updPh_idxLow : (s.updPh k h).idxLow = s.idxLow := rfl
@[simp] theorem State.updPh_mlog : (s.updPh k h).mlog = s.mlog := rfl
@[simp] theorem State.updPh_mAcc : (s.updPh k h).mAcc = s.mAcc := rfl
@[simp] theorem State.updPh_fwInfo : (s.updPh k h).fwInfo = s.fwInfo := rfl
@[simp] theorem State.updPh_quoteCmd : (s.updPh k h).quoteCmd = s.quoteCmd := rfl
@[simp] theorem State.updPh_hashReq : (s.updPh k h).hashReq = s.hashReq := rfl
@[simp] theorem State.updPh_recovery : (s.updPh k h).recovery = s.recovery := rfl
@[simp] theorem State.updPh_dbgData : (s.updPh k h).dbgData = s.dbgData := rfl
@[simp] theorem State.updPh_dbgBusy : (s.updPh k h).dbgBusy = s.dbgBusy := rfl
@[simp] theorem State.updPh_authBuf : (s.updPh k h).authBuf = s.authBuf := rfl
@[simp] theorem State.updPh_authBusy : (s.updPh k h).authBusy = s.authBusy := rfl
@[simp] theorem State.updPh_challengeNo : (s.updPh k h).challengeNo = s.challengeNo := rfl
@[simp] theorem State.updPh_tap : (s.updPh k h).tap = s.tap := rfl
@[simp] theorem State.updPh_free : (s.updPh k h).free = s.free := rfl
@[simp] theorem State.updPh_out : (s.updPh k h).out = s.out := rfl
@[simp] theorem State.updPh_pending : (s.updPh k h).pending = s.pending := rfl
end

section
variable (s : State) (k : Nat) (x : BusSrc)
@[simp] theorem State.setBs_regs : (s.setBs k x).regs = s.regs := rfl
@[simp] theorem State.setBs_shadow : (s.setBs k x).shadow = s.shadow := rfl
@[simp] theorem State.setBs_locked : (s.setBs k x).locked = s.locked := rfl
@[simp] theorem State.setBs_variant : (s.setBs k x).variant = s.variant := rfl
@[simp] theorem State.setBs_stepping : (s.setBs k x).stepping = s.stepping := rfl
@[simp] theorem State.setBs_lifecycle : (s.setBs k x).lifecycle = s.lifecycle := rfl
@[simp] theorem State.setBs_svnFloor : (s.setBs k x).svnFloor = s.svnFloor := rfl
@[simp] theorem State.setBs_fwKeyHash : (s.setBs k x).fwKeyHash = s.fwKeyHash := rfl
@[simp] theorem State.setBs_identityOk : (s.setBs k x).identityOk = s.identityOk := rfl
@[simp] theorem State.setBs_now : (s.setBs k x).now = s.now := rfl
@[simp] theorem State.setBs_dawn : (s.setBs k x).dawn = s.dawn := rfl
@[simp] theorem State.setBs_deviceHalted : (s.setBs k x).deviceHalted = s.deviceHalted := rfl
@[simp] theorem State.setBs_injectStop : (s.setBs k x).injectStop = s.injectStop := rfl
@[simp] theorem State.setBs_quiesceStep : (s.setBs k x).quiesceStep = s.quiesceStep := rfl
@[simp] theorem State.setBs_pins : (s.setBs k x).pins = s.pins := rfl
@[simp] theorem State.setBs_ctxs : (s.setBs k x).ctxs = s.ctxs := rfl
@[simp] theorem State.setBs_templates : (s.setBs k x).templates = s.templates := rfl
@[simp] theorem State.setBs_images : (s.setBs k x).images = s.images := rfl
@[simp] theorem State.setBs_stored : (s.setBs k x).stored = s.stored := rfl
@[simp] theorem State.setBs_gateTable : (s.setBs k x).gateTable = s.gateTable := rfl
@[simp] theorem State.setBs_pes : (s.setBs k x).pes = s.pes := rfl
@[simp] theorem State.setBs_clusters : (s.setBs k x).clusters = s.clusters := rfl
@[simp] theorem State.setBs_phs : (s.setBs k x).phs = s.phs := rfl
@[simp] theorem State.setBs_phQueue : (s.setBs k x).phQueue = s.phQueue := rfl
@[simp] theorem State.setBs_phNow : (s.setBs k x).phNow = s.phNow := rfl
@[simp] theorem State.setBs_phPast : (s.setBs k x).phPast = s.phPast := rfl
@[simp] theorem State.setBs_exportAt : (s.setBs k x).exportAt = s.exportAt := rfl
@[simp] theorem State.setBs_inputs : (s.setBs k x).inputs = s.inputs := rfl
@[simp] theorem State.setBs_held : (s.setBs k x).held = s.held := rfl
@[simp] theorem State.setBs_ports : (s.setBs k x).ports = s.ports := rfl
@[simp] theorem State.setBs_rings : (s.setBs k x).rings = s.rings := rfl
@[simp] theorem State.setBs_chans : (s.setBs k x).chans = s.chans := rfl
@[simp] theorem State.setBs_schedU : (s.setBs k x).schedU = s.schedU := rfl
@[simp] theorem State.setBs_schedAt : (s.setBs k x).schedAt = s.schedAt := rfl
@[simp] theorem State.setBs_activeCauses : (s.setBs k x).activeCauses = s.activeCauses := rfl
@[simp] theorem State.setBs_offPending : (s.setBs k x).offPending = s.offPending := rfl
@[simp] theorem State.setBs_abortCount : (s.setBs k x).abortCount = s.abortCount := rfl
@[simp] theorem State.setBs_heartbeatAt : (s.setBs k x).heartbeatAt = s.heartbeatAt := rfl
@[simp] theorem State.setBs_net : (s.setBs k x).net = s.net := rfl
@[simp] theorem State.setBs_stations : (s.setBs k x).stations = s.stations := rfl
@[simp] theorem State.setBs_epochAt : (s.setBs k x).epochAt = s.epochAt := rfl
@[simp] theorem State.setBs_spans : (s.setBs k x).spans = s.spans := rfl
@[simp] theorem State.setBs_spanTxns : (s.setBs k x).spanTxns = s.spanTxns := rfl
@[simp] theorem State.setBs_mem : (s.setBs k x).mem = s.mem := rfl
@[simp] theorem State.setBs_presence : (s.setBs k x).presence = s.presence := rfl
@[simp] theorem State.setBs_bad : (s.setBs k x).bad = s.bad := rfl
@[simp] theorem State.setBs_defers : (s.setBs k x).defers = s.defers := rfl
@[simp] theorem State.setBs_sweep : (s.setBs k x).sweep = s.sweep := rfl
@[simp] theorem State.setBs_locks : (s.setBs k x).locks = s.locks := rfl
@[simp] theorem State.setBs_flt : (s.setBs k x).flt = s.flt := rfl
@[simp] theorem State.setBs_wstart : (s.setBs k x).wstart = s.wstart := rfl
@[simp] theorem State.setBs_causeCnt : (s.setBs k x).causeCnt = s.causeCnt := rfl
@[simp] theorem State.setBs_causePersist : (s.setBs k x).causePersist = s.causePersist := rfl
@[simp] theorem State.setBs_census : (s.setBs k x).census = s.census := rfl
@[simp] theorem State.setBs_censusSeen : (s.setBs k x).censusSeen = s.censusSeen := rfl
@[simp] theorem State.setBs_lifetime : (s.setBs k x).lifetime = s.lifetime := rfl
@[simp] theorem State.setBs_retQueue : (s.setBs k x).retQueue = s.retQueue := rfl
@[simp] theorem State.setBs_running : (s.setBs k x).running = s.running := rfl
@[simp] theorem State.setBs_copied : (s.setBs k x).copied = s.copied := rfl
@[simp] theorem State.setBs_committed : (s.setBs k x).committed = s.committed := rfl
@[simp] theorem State.setBs_spareRows : (s.setBs k x).spareRows = s.spareRows := rfl
@[simp] theorem State.setBs_mapRecs : (s.setBs k x).mapRecs = s.mapRecs := rfl
@[simp] theorem State.setBs_queues : (s.setBs k x).queues = s.queues := rfl
@[simp] theorem State.setBs_sessions : (s.setBs k x).sessions = s.sessions := rfl
@[simp] theorem State.setBs_nextCmd : (s.setBs k x).nextCmd = s.nextCmd := rfl
@[simp] theorem State.setBs_msixMask : (s.setBs k x).msixMask = s.msixMask := rfl
@[simp] theorem State.setBs_fnState : (s.setBs k x).fnState = s.fnState := rfl
@[simp] theorem State.setBs_grants : (s.setBs k x).grants = s.grants := rfl
@[simp] theorem State.setBs_linkState : (s.setBs k x).linkState = s.linkState := rfl
@[simp] theorem State.setBs_crsWindow : (s.setBs k x).crsWindow = s.crsWindow := rfl
@[simp] theorem State.setBs_flrFns : (s.setBs k x).flrFns = s.flrFns := rfl
@[simp] theorem State.setBs_threads : (s.setBs k x).threads = s.threads := rfl
@[simp] theorem State.setBs_mats : (s.setBs k x).mats = s.mats := rfl
@[simp] theorem State.setBs_log : (s.setBs k x).log = s.log := rfl
@[simp] theorem State.setBs_doms : (s.setBs k x).doms = s.doms := rfl
@[simp] theorem State.setBs_ledger : (s.setBs k x).ledger = s.ledger := rfl
@[simp] theorem State.setBs_admitted : (s.setBs k x).admitted = s.admitted := rfl
@[simp] theorem State.setBs_opPhase : (s.setBs k x).opPhase = s.opPhase := rfl
@[simp] theorem State.setBs_ctrs : (s.setBs k x).ctrs = s.ctrs := rfl
@[simp] theorem State.setBs_snapStep : (s.setBs k x).snapStep = s.snapStep := rfl
@[simp] theorem State.setBs_snapAt : (s.setBs k x).snapAt = s.snapAt := rfl
@[simp] theorem State.setBs_snapshot : (s.setBs k x).snapshot = s.snapshot := rfl
@[simp] theorem State.setBs_latched : (s.setBs k x).latched = s.latched := rfl
@[simp] theorem State.setBs_pwrE : (s.setBs k x).pwrE = s.pwrE := rfl
@[simp] theorem State.setBs_pwrSig : (s.setBs k x).pwrSig = s.pwrSig := rfl
@[simp] theorem State.setBs_cfgRec : (s.setBs k x).cfgRec = s.cfgRec := rfl
@[simp] theorem State.setBs_cfgPending : (s.setBs k x).cfgPending = s.cfgPending := rfl
@[simp] theorem State.setBs_idxL : (s.setBs k x).idxL = s.idxL := rfl
@[simp] theorem State.setBs_idxRseq : (s.setBs k x).idxRseq = s.idxRseq := rfl
@[simp] theorem State.setBs_idxLow : (s.setBs k x).idxLow = s.idxLow := rfl
@[simp] theorem State.setBs_mlog : (s.setBs k x).mlog = s.mlog := rfl
@[simp] theorem State.setBs_mAcc : (s.setBs k x).mAcc = s.mAcc := rfl
@[simp] theorem State.setBs_fwInfo : (s.setBs k x).fwInfo = s.fwInfo := rfl
@[simp] theorem State.setBs_quoteCmd : (s.setBs k x).quoteCmd = s.quoteCmd := rfl
@[simp] theorem State.setBs_hashReq : (s.setBs k x).hashReq = s.hashReq := rfl
@[simp] theorem State.setBs_recovery : (s.setBs k x).recovery = s.recovery := rfl
@[simp] theorem State.setBs_dbgData : (s.setBs k x).dbgData = s.dbgData := rfl
@[simp] theorem State.setBs_dbgBusy : (s.setBs k x).dbgBusy = s.dbgBusy := rfl
@[simp] theorem State.setBs_authBuf : (s.setBs k x).authBuf = s.authBuf := rfl
@[simp] theorem State.setBs_authBusy : (s.setBs k x).authBusy = s.authBusy := rfl
@[simp] theorem State.setBs_challengeNo : (s.setBs k x).challengeNo = s.challengeNo := rfl
@[simp] theorem State.setBs_tap : (s.setBs k x).tap = s.tap := rfl
@[simp] theorem State.setBs_free : (s.setBs k x).free = s.free := rfl
@[simp] theorem State.setBs_out : (s.setBs k x).out = s.out := rfl
@[simp] theorem State.setBs_pending : (s.setBs k x).pending = s.pending := rfl
end

section
variable (s : State) (k : Nat) (h : BusSrc → BusSrc)
@[simp] theorem State.updBs_regs : (s.updBs k h).regs = s.regs := rfl
@[simp] theorem State.updBs_shadow : (s.updBs k h).shadow = s.shadow := rfl
@[simp] theorem State.updBs_locked : (s.updBs k h).locked = s.locked := rfl
@[simp] theorem State.updBs_variant : (s.updBs k h).variant = s.variant := rfl
@[simp] theorem State.updBs_stepping : (s.updBs k h).stepping = s.stepping := rfl
@[simp] theorem State.updBs_lifecycle : (s.updBs k h).lifecycle = s.lifecycle := rfl
@[simp] theorem State.updBs_svnFloor : (s.updBs k h).svnFloor = s.svnFloor := rfl
@[simp] theorem State.updBs_fwKeyHash : (s.updBs k h).fwKeyHash = s.fwKeyHash := rfl
@[simp] theorem State.updBs_identityOk : (s.updBs k h).identityOk = s.identityOk := rfl
@[simp] theorem State.updBs_now : (s.updBs k h).now = s.now := rfl
@[simp] theorem State.updBs_dawn : (s.updBs k h).dawn = s.dawn := rfl
@[simp] theorem State.updBs_deviceHalted : (s.updBs k h).deviceHalted = s.deviceHalted := rfl
@[simp] theorem State.updBs_injectStop : (s.updBs k h).injectStop = s.injectStop := rfl
@[simp] theorem State.updBs_quiesceStep : (s.updBs k h).quiesceStep = s.quiesceStep := rfl
@[simp] theorem State.updBs_pins : (s.updBs k h).pins = s.pins := rfl
@[simp] theorem State.updBs_ctxs : (s.updBs k h).ctxs = s.ctxs := rfl
@[simp] theorem State.updBs_templates : (s.updBs k h).templates = s.templates := rfl
@[simp] theorem State.updBs_images : (s.updBs k h).images = s.images := rfl
@[simp] theorem State.updBs_stored : (s.updBs k h).stored = s.stored := rfl
@[simp] theorem State.updBs_gateTable : (s.updBs k h).gateTable = s.gateTable := rfl
@[simp] theorem State.updBs_pes : (s.updBs k h).pes = s.pes := rfl
@[simp] theorem State.updBs_clusters : (s.updBs k h).clusters = s.clusters := rfl
@[simp] theorem State.updBs_phs : (s.updBs k h).phs = s.phs := rfl
@[simp] theorem State.updBs_phQueue : (s.updBs k h).phQueue = s.phQueue := rfl
@[simp] theorem State.updBs_phNow : (s.updBs k h).phNow = s.phNow := rfl
@[simp] theorem State.updBs_phPast : (s.updBs k h).phPast = s.phPast := rfl
@[simp] theorem State.updBs_exportAt : (s.updBs k h).exportAt = s.exportAt := rfl
@[simp] theorem State.updBs_inputs : (s.updBs k h).inputs = s.inputs := rfl
@[simp] theorem State.updBs_held : (s.updBs k h).held = s.held := rfl
@[simp] theorem State.updBs_ports : (s.updBs k h).ports = s.ports := rfl
@[simp] theorem State.updBs_rings : (s.updBs k h).rings = s.rings := rfl
@[simp] theorem State.updBs_chans : (s.updBs k h).chans = s.chans := rfl
@[simp] theorem State.updBs_schedU : (s.updBs k h).schedU = s.schedU := rfl
@[simp] theorem State.updBs_schedAt : (s.updBs k h).schedAt = s.schedAt := rfl
@[simp] theorem State.updBs_activeCauses : (s.updBs k h).activeCauses = s.activeCauses := rfl
@[simp] theorem State.updBs_offPending : (s.updBs k h).offPending = s.offPending := rfl
@[simp] theorem State.updBs_abortCount : (s.updBs k h).abortCount = s.abortCount := rfl
@[simp] theorem State.updBs_heartbeatAt : (s.updBs k h).heartbeatAt = s.heartbeatAt := rfl
@[simp] theorem State.updBs_net : (s.updBs k h).net = s.net := rfl
@[simp] theorem State.updBs_stations : (s.updBs k h).stations = s.stations := rfl
@[simp] theorem State.updBs_epochAt : (s.updBs k h).epochAt = s.epochAt := rfl
@[simp] theorem State.updBs_spans : (s.updBs k h).spans = s.spans := rfl
@[simp] theorem State.updBs_spanTxns : (s.updBs k h).spanTxns = s.spanTxns := rfl
@[simp] theorem State.updBs_mem : (s.updBs k h).mem = s.mem := rfl
@[simp] theorem State.updBs_presence : (s.updBs k h).presence = s.presence := rfl
@[simp] theorem State.updBs_bad : (s.updBs k h).bad = s.bad := rfl
@[simp] theorem State.updBs_defers : (s.updBs k h).defers = s.defers := rfl
@[simp] theorem State.updBs_sweep : (s.updBs k h).sweep = s.sweep := rfl
@[simp] theorem State.updBs_locks : (s.updBs k h).locks = s.locks := rfl
@[simp] theorem State.updBs_flt : (s.updBs k h).flt = s.flt := rfl
@[simp] theorem State.updBs_wstart : (s.updBs k h).wstart = s.wstart := rfl
@[simp] theorem State.updBs_causeCnt : (s.updBs k h).causeCnt = s.causeCnt := rfl
@[simp] theorem State.updBs_causePersist : (s.updBs k h).causePersist = s.causePersist := rfl
@[simp] theorem State.updBs_census : (s.updBs k h).census = s.census := rfl
@[simp] theorem State.updBs_censusSeen : (s.updBs k h).censusSeen = s.censusSeen := rfl
@[simp] theorem State.updBs_lifetime : (s.updBs k h).lifetime = s.lifetime := rfl
@[simp] theorem State.updBs_retQueue : (s.updBs k h).retQueue = s.retQueue := rfl
@[simp] theorem State.updBs_running : (s.updBs k h).running = s.running := rfl
@[simp] theorem State.updBs_copied : (s.updBs k h).copied = s.copied := rfl
@[simp] theorem State.updBs_committed : (s.updBs k h).committed = s.committed := rfl
@[simp] theorem State.updBs_spareRows : (s.updBs k h).spareRows = s.spareRows := rfl
@[simp] theorem State.updBs_mapRecs : (s.updBs k h).mapRecs = s.mapRecs := rfl
@[simp] theorem State.updBs_queues : (s.updBs k h).queues = s.queues := rfl
@[simp] theorem State.updBs_sessions : (s.updBs k h).sessions = s.sessions := rfl
@[simp] theorem State.updBs_nextCmd : (s.updBs k h).nextCmd = s.nextCmd := rfl
@[simp] theorem State.updBs_msixMask : (s.updBs k h).msixMask = s.msixMask := rfl
@[simp] theorem State.updBs_fnState : (s.updBs k h).fnState = s.fnState := rfl
@[simp] theorem State.updBs_grants : (s.updBs k h).grants = s.grants := rfl
@[simp] theorem State.updBs_linkState : (s.updBs k h).linkState = s.linkState := rfl
@[simp] theorem State.updBs_crsWindow : (s.updBs k h).crsWindow = s.crsWindow := rfl
@[simp] theorem State.updBs_flrFns : (s.updBs k h).flrFns = s.flrFns := rfl
@[simp] theorem State.updBs_threads : (s.updBs k h).threads = s.threads := rfl
@[simp] theorem State.updBs_mats : (s.updBs k h).mats = s.mats := rfl
@[simp] theorem State.updBs_log : (s.updBs k h).log = s.log := rfl
@[simp] theorem State.updBs_doms : (s.updBs k h).doms = s.doms := rfl
@[simp] theorem State.updBs_ledger : (s.updBs k h).ledger = s.ledger := rfl
@[simp] theorem State.updBs_admitted : (s.updBs k h).admitted = s.admitted := rfl
@[simp] theorem State.updBs_opPhase : (s.updBs k h).opPhase = s.opPhase := rfl
@[simp] theorem State.updBs_ctrs : (s.updBs k h).ctrs = s.ctrs := rfl
@[simp] theorem State.updBs_snapStep : (s.updBs k h).snapStep = s.snapStep := rfl
@[simp] theorem State.updBs_snapAt : (s.updBs k h).snapAt = s.snapAt := rfl
@[simp] theorem State.updBs_snapshot : (s.updBs k h).snapshot = s.snapshot := rfl
@[simp] theorem State.updBs_latched : (s.updBs k h).latched = s.latched := rfl
@[simp] theorem State.updBs_pwrE : (s.updBs k h).pwrE = s.pwrE := rfl
@[simp] theorem State.updBs_pwrSig : (s.updBs k h).pwrSig = s.pwrSig := rfl
@[simp] theorem State.updBs_cfgRec : (s.updBs k h).cfgRec = s.cfgRec := rfl
@[simp] theorem State.updBs_cfgPending : (s.updBs k h).cfgPending = s.cfgPending := rfl
@[simp] theorem State.updBs_idxL : (s.updBs k h).idxL = s.idxL := rfl
@[simp] theorem State.updBs_idxRseq : (s.updBs k h).idxRseq = s.idxRseq := rfl
@[simp] theorem State.updBs_idxLow : (s.updBs k h).idxLow = s.idxLow := rfl
@[simp] theorem State.updBs_mlog : (s.updBs k h).mlog = s.mlog := rfl
@[simp] theorem State.updBs_mAcc : (s.updBs k h).mAcc = s.mAcc := rfl
@[simp] theorem State.updBs_fwInfo : (s.updBs k h).fwInfo = s.fwInfo := rfl
@[simp] theorem State.updBs_quoteCmd : (s.updBs k h).quoteCmd = s.quoteCmd := rfl
@[simp] theorem State.updBs_hashReq : (s.updBs k h).hashReq = s.hashReq := rfl
@[simp] theorem State.updBs_recovery : (s.updBs k h).recovery = s.recovery := rfl
@[simp] theorem State.updBs_dbgData : (s.updBs k h).dbgData = s.dbgData := rfl
@[simp] theorem State.updBs_dbgBusy : (s.updBs k h).dbgBusy = s.dbgBusy := rfl
@[simp] theorem State.updBs_authBuf : (s.updBs k h).authBuf = s.authBuf := rfl
@[simp] theorem State.updBs_authBusy : (s.updBs k h).authBusy = s.authBusy := rfl
@[simp] theorem State.updBs_challengeNo : (s.updBs k h).challengeNo = s.challengeNo := rfl
@[simp] theorem State.updBs_tap : (s.updBs k h).tap = s.tap := rfl
@[simp] theorem State.updBs_free : (s.updBs k h).free = s.free := rfl
@[simp] theorem State.updBs_out : (s.updBs k h).out = s.out := rfl
@[simp] theorem State.updBs_pending : (s.updBs k h).pending = s.pending := rfl
end

section
variable (s : State) (k : Nat) (x : Port)
@[simp] theorem State.setPort_regs : (s.setPort k x).regs = s.regs := rfl
@[simp] theorem State.setPort_shadow : (s.setPort k x).shadow = s.shadow := rfl
@[simp] theorem State.setPort_locked : (s.setPort k x).locked = s.locked := rfl
@[simp] theorem State.setPort_variant : (s.setPort k x).variant = s.variant := rfl
@[simp] theorem State.setPort_stepping : (s.setPort k x).stepping = s.stepping := rfl
@[simp] theorem State.setPort_lifecycle : (s.setPort k x).lifecycle = s.lifecycle := rfl
@[simp] theorem State.setPort_svnFloor : (s.setPort k x).svnFloor = s.svnFloor := rfl
@[simp] theorem State.setPort_fwKeyHash : (s.setPort k x).fwKeyHash = s.fwKeyHash := rfl
@[simp] theorem State.setPort_identityOk : (s.setPort k x).identityOk = s.identityOk := rfl
@[simp] theorem State.setPort_now : (s.setPort k x).now = s.now := rfl
@[simp] theorem State.setPort_dawn : (s.setPort k x).dawn = s.dawn := rfl
@[simp] theorem State.setPort_deviceHalted : (s.setPort k x).deviceHalted = s.deviceHalted := rfl
@[simp] theorem State.setPort_injectStop : (s.setPort k x).injectStop = s.injectStop := rfl
@[simp] theorem State.setPort_quiesceStep : (s.setPort k x).quiesceStep = s.quiesceStep := rfl
@[simp] theorem State.setPort_pins : (s.setPort k x).pins = s.pins := rfl
@[simp] theorem State.setPort_ctxs : (s.setPort k x).ctxs = s.ctxs := rfl
@[simp] theorem State.setPort_templates : (s.setPort k x).templates = s.templates := rfl
@[simp] theorem State.setPort_images : (s.setPort k x).images = s.images := rfl
@[simp] theorem State.setPort_stored : (s.setPort k x).stored = s.stored := rfl
@[simp] theorem State.setPort_gateTable : (s.setPort k x).gateTable = s.gateTable := rfl
@[simp] theorem State.setPort_pes : (s.setPort k x).pes = s.pes := rfl
@[simp] theorem State.setPort_clusters : (s.setPort k x).clusters = s.clusters := rfl
@[simp] theorem State.setPort_phs : (s.setPort k x).phs = s.phs := rfl
@[simp] theorem State.setPort_bus : (s.setPort k x).bus = s.bus := rfl
@[simp] theorem State.setPort_phQueue : (s.setPort k x).phQueue = s.phQueue := rfl
@[simp] theorem State.setPort_phNow : (s.setPort k x).phNow = s.phNow := rfl
@[simp] theorem State.setPort_phPast : (s.setPort k x).phPast = s.phPast := rfl
@[simp] theorem State.setPort_exportAt : (s.setPort k x).exportAt = s.exportAt := rfl
@[simp] theorem State.setPort_inputs : (s.setPort k x).inputs = s.inputs := rfl
@[simp] theorem State.setPort_held : (s.setPort k x).held = s.held := rfl
@[simp] theorem State.setPort_rings : (s.setPort k x).rings = s.rings := rfl
@[simp] theorem State.setPort_chans : (s.setPort k x).chans = s.chans := rfl
@[simp] theorem State.setPort_schedU : (s.setPort k x).schedU = s.schedU := rfl
@[simp] theorem State.setPort_schedAt : (s.setPort k x).schedAt = s.schedAt := rfl
@[simp] theorem State.setPort_activeCauses : (s.setPort k x).activeCauses = s.activeCauses := rfl
@[simp] theorem State.setPort_offPending : (s.setPort k x).offPending = s.offPending := rfl
@[simp] theorem State.setPort_abortCount : (s.setPort k x).abortCount = s.abortCount := rfl
@[simp] theorem State.setPort_heartbeatAt : (s.setPort k x).heartbeatAt = s.heartbeatAt := rfl
@[simp] theorem State.setPort_net : (s.setPort k x).net = s.net := rfl
@[simp] theorem State.setPort_stations : (s.setPort k x).stations = s.stations := rfl
@[simp] theorem State.setPort_epochAt : (s.setPort k x).epochAt = s.epochAt := rfl
@[simp] theorem State.setPort_spans : (s.setPort k x).spans = s.spans := rfl
@[simp] theorem State.setPort_spanTxns : (s.setPort k x).spanTxns = s.spanTxns := rfl
@[simp] theorem State.setPort_mem : (s.setPort k x).mem = s.mem := rfl
@[simp] theorem State.setPort_presence : (s.setPort k x).presence = s.presence := rfl
@[simp] theorem State.setPort_bad : (s.setPort k x).bad = s.bad := rfl
@[simp] theorem State.setPort_defers : (s.setPort k x).defers = s.defers := rfl
@[simp] theorem State.setPort_sweep : (s.setPort k x).sweep = s.sweep := rfl
@[simp] theorem State.setPort_locks : (s.setPort k x).locks = s.locks := rfl
@[simp] theorem State.setPort_flt : (s.setPort k x).flt = s.flt := rfl
@[simp] theorem State.setPort_wstart : (s.setPort k x).wstart = s.wstart := rfl
@[simp] theorem State.setPort_causeCnt : (s.setPort k x).causeCnt = s.causeCnt := rfl
@[simp] theorem State.setPort_causePersist : (s.setPort k x).causePersist = s.causePersist := rfl
@[simp] theorem State.setPort_census : (s.setPort k x).census = s.census := rfl
@[simp] theorem State.setPort_censusSeen : (s.setPort k x).censusSeen = s.censusSeen := rfl
@[simp] theorem State.setPort_lifetime : (s.setPort k x).lifetime = s.lifetime := rfl
@[simp] theorem State.setPort_retQueue : (s.setPort k x).retQueue = s.retQueue := rfl
@[simp] theorem State.setPort_running : (s.setPort k x).running = s.running := rfl
@[simp] theorem State.setPort_copied : (s.setPort k x).copied = s.copied := rfl
@[simp] theorem State.setPort_committed : (s.setPort k x).committed = s.committed := rfl
@[simp] theorem State.setPort_spareRows : (s.setPort k x).spareRows = s.spareRows := rfl
@[simp] theorem State.setPort_mapRecs : (s.setPort k x).mapRecs = s.mapRecs := rfl
@[simp] theorem State.setPort_queues : (s.setPort k x).queues = s.queues := rfl
@[simp] theorem State.setPort_sessions : (s.setPort k x).sessions = s.sessions := rfl
@[simp] theorem State.setPort_nextCmd : (s.setPort k x).nextCmd = s.nextCmd := rfl
@[simp] theorem State.setPort_msixMask : (s.setPort k x).msixMask = s.msixMask := rfl
@[simp] theorem State.setPort_fnState : (s.setPort k x).fnState = s.fnState := rfl
@[simp] theorem State.setPort_grants : (s.setPort k x).grants = s.grants := rfl
@[simp] theorem State.setPort_linkState : (s.setPort k x).linkState = s.linkState := rfl
@[simp] theorem State.setPort_crsWindow : (s.setPort k x).crsWindow = s.crsWindow := rfl
@[simp] theorem State.setPort_flrFns : (s.setPort k x).flrFns = s.flrFns := rfl
@[simp] theorem State.setPort_threads : (s.setPort k x).threads = s.threads := rfl
@[simp] theorem State.setPort_mats : (s.setPort k x).mats = s.mats := rfl
@[simp] theorem State.setPort_log : (s.setPort k x).log = s.log := rfl
@[simp] theorem State.setPort_doms : (s.setPort k x).doms = s.doms := rfl
@[simp] theorem State.setPort_ledger : (s.setPort k x).ledger = s.ledger := rfl
@[simp] theorem State.setPort_admitted : (s.setPort k x).admitted = s.admitted := rfl
@[simp] theorem State.setPort_opPhase : (s.setPort k x).opPhase = s.opPhase := rfl
@[simp] theorem State.setPort_ctrs : (s.setPort k x).ctrs = s.ctrs := rfl
@[simp] theorem State.setPort_snapStep : (s.setPort k x).snapStep = s.snapStep := rfl
@[simp] theorem State.setPort_snapAt : (s.setPort k x).snapAt = s.snapAt := rfl
@[simp] theorem State.setPort_snapshot : (s.setPort k x).snapshot = s.snapshot := rfl
@[simp] theorem State.setPort_latched : (s.setPort k x).latched = s.latched := rfl
@[simp] theorem State.setPort_pwrE : (s.setPort k x).pwrE = s.pwrE := rfl
@[simp] theorem State.setPort_pwrSig : (s.setPort k x).pwrSig = s.pwrSig := rfl
@[simp] theorem State.setPort_cfgRec : (s.setPort k x).cfgRec = s.cfgRec := rfl
@[simp] theorem State.setPort_cfgPending : (s.setPort k x).cfgPending = s.cfgPending := rfl
@[simp] theorem State.setPort_idxL : (s.setPort k x).idxL = s.idxL := rfl
@[simp] theorem State.setPort_idxRseq : (s.setPort k x).idxRseq = s.idxRseq := rfl
@[simp] theorem State.setPort_idxLow : (s.setPort k x).idxLow = s.idxLow := rfl
@[simp] theorem State.setPort_mlog : (s.setPort k x).mlog = s.mlog := rfl
@[simp] theorem State.setPort_mAcc : (s.setPort k x).mAcc = s.mAcc := rfl
@[simp] theorem State.setPort_fwInfo : (s.setPort k x).fwInfo = s.fwInfo := rfl
@[simp] theorem State.setPort_quoteCmd : (s.setPort k x).quoteCmd = s.quoteCmd := rfl
@[simp] theorem State.setPort_hashReq : (s.setPort k x).hashReq = s.hashReq := rfl
@[simp] theorem State.setPort_recovery : (s.setPort k x).recovery = s.recovery := rfl
@[simp] theorem State.setPort_dbgData : (s.setPort k x).dbgData = s.dbgData := rfl
@[simp] theorem State.setPort_dbgBusy : (s.setPort k x).dbgBusy = s.dbgBusy := rfl
@[simp] theorem State.setPort_authBuf : (s.setPort k x).authBuf = s.authBuf := rfl
@[simp] theorem State.setPort_authBusy : (s.setPort k x).authBusy = s.authBusy := rfl
@[simp] theorem State.setPort_challengeNo : (s.setPort k x).challengeNo = s.challengeNo := rfl
@[simp] theorem State.setPort_tap : (s.setPort k x).tap = s.tap := rfl
@[simp] theorem State.setPort_free : (s.setPort k x).free = s.free := rfl
@[simp] theorem State.setPort_out : (s.setPort k x).out = s.out := rfl
@[simp] theorem State.setPort_pending : (s.setPort k x).pending = s.pending := rfl
end

section
variable (s : State) (k : Nat) (h : Port → Port)
@[simp] theorem State.updPort_regs : (s.updPort k h).regs = s.regs := rfl
@[simp] theorem State.updPort_shadow : (s.updPort k h).shadow = s.shadow := rfl
@[simp] theorem State.updPort_locked : (s.updPort k h).locked = s.locked := rfl
@[simp] theorem State.updPort_variant : (s.updPort k h).variant = s.variant := rfl
@[simp] theorem State.updPort_stepping : (s.updPort k h).stepping = s.stepping := rfl
@[simp] theorem State.updPort_lifecycle : (s.updPort k h).lifecycle = s.lifecycle := rfl
@[simp] theorem State.updPort_svnFloor : (s.updPort k h).svnFloor = s.svnFloor := rfl
@[simp] theorem State.updPort_fwKeyHash : (s.updPort k h).fwKeyHash = s.fwKeyHash := rfl
@[simp] theorem State.updPort_identityOk : (s.updPort k h).identityOk = s.identityOk := rfl
@[simp] theorem State.updPort_now : (s.updPort k h).now = s.now := rfl
@[simp] theorem State.updPort_dawn : (s.updPort k h).dawn = s.dawn := rfl
@[simp] theorem State.updPort_deviceHalted : (s.updPort k h).deviceHalted = s.deviceHalted := rfl
@[simp] theorem State.updPort_injectStop : (s.updPort k h).injectStop = s.injectStop := rfl
@[simp] theorem State.updPort_quiesceStep : (s.updPort k h).quiesceStep = s.quiesceStep := rfl
@[simp] theorem State.updPort_pins : (s.updPort k h).pins = s.pins := rfl
@[simp] theorem State.updPort_ctxs : (s.updPort k h).ctxs = s.ctxs := rfl
@[simp] theorem State.updPort_templates : (s.updPort k h).templates = s.templates := rfl
@[simp] theorem State.updPort_images : (s.updPort k h).images = s.images := rfl
@[simp] theorem State.updPort_stored : (s.updPort k h).stored = s.stored := rfl
@[simp] theorem State.updPort_gateTable : (s.updPort k h).gateTable = s.gateTable := rfl
@[simp] theorem State.updPort_pes : (s.updPort k h).pes = s.pes := rfl
@[simp] theorem State.updPort_clusters : (s.updPort k h).clusters = s.clusters := rfl
@[simp] theorem State.updPort_phs : (s.updPort k h).phs = s.phs := rfl
@[simp] theorem State.updPort_bus : (s.updPort k h).bus = s.bus := rfl
@[simp] theorem State.updPort_phQueue : (s.updPort k h).phQueue = s.phQueue := rfl
@[simp] theorem State.updPort_phNow : (s.updPort k h).phNow = s.phNow := rfl
@[simp] theorem State.updPort_phPast : (s.updPort k h).phPast = s.phPast := rfl
@[simp] theorem State.updPort_exportAt : (s.updPort k h).exportAt = s.exportAt := rfl
@[simp] theorem State.updPort_inputs : (s.updPort k h).inputs = s.inputs := rfl
@[simp] theorem State.updPort_held : (s.updPort k h).held = s.held := rfl
@[simp] theorem State.updPort_rings : (s.updPort k h).rings = s.rings := rfl
@[simp] theorem State.updPort_chans : (s.updPort k h).chans = s.chans := rfl
@[simp] theorem State.updPort_schedU : (s.updPort k h).schedU = s.schedU := rfl
@[simp] theorem State.updPort_schedAt : (s.updPort k h).schedAt = s.schedAt := rfl
@[simp] theorem State.updPort_activeCauses : (s.updPort k h).activeCauses = s.activeCauses := rfl
@[simp] theorem State.updPort_offPending : (s.updPort k h).offPending = s.offPending := rfl
@[simp] theorem State.updPort_abortCount : (s.updPort k h).abortCount = s.abortCount := rfl
@[simp] theorem State.updPort_heartbeatAt : (s.updPort k h).heartbeatAt = s.heartbeatAt := rfl
@[simp] theorem State.updPort_net : (s.updPort k h).net = s.net := rfl
@[simp] theorem State.updPort_stations : (s.updPort k h).stations = s.stations := rfl
@[simp] theorem State.updPort_epochAt : (s.updPort k h).epochAt = s.epochAt := rfl
@[simp] theorem State.updPort_spans : (s.updPort k h).spans = s.spans := rfl
@[simp] theorem State.updPort_spanTxns : (s.updPort k h).spanTxns = s.spanTxns := rfl
@[simp] theorem State.updPort_mem : (s.updPort k h).mem = s.mem := rfl
@[simp] theorem State.updPort_presence : (s.updPort k h).presence = s.presence := rfl
@[simp] theorem State.updPort_bad : (s.updPort k h).bad = s.bad := rfl
@[simp] theorem State.updPort_defers : (s.updPort k h).defers = s.defers := rfl
@[simp] theorem State.updPort_sweep : (s.updPort k h).sweep = s.sweep := rfl
@[simp] theorem State.updPort_locks : (s.updPort k h).locks = s.locks := rfl
@[simp] theorem State.updPort_flt : (s.updPort k h).flt = s.flt := rfl
@[simp] theorem State.updPort_wstart : (s.updPort k h).wstart = s.wstart := rfl
@[simp] theorem State.updPort_causeCnt : (s.updPort k h).causeCnt = s.causeCnt := rfl
@[simp] theorem State.updPort_causePersist : (s.updPort k h).causePersist = s.causePersist := rfl
@[simp] theorem State.updPort_census : (s.updPort k h).census = s.census := rfl
@[simp] theorem State.updPort_censusSeen : (s.updPort k h).censusSeen = s.censusSeen := rfl
@[simp] theorem State.updPort_lifetime : (s.updPort k h).lifetime = s.lifetime := rfl
@[simp] theorem State.updPort_retQueue : (s.updPort k h).retQueue = s.retQueue := rfl
@[simp] theorem State.updPort_running : (s.updPort k h).running = s.running := rfl
@[simp] theorem State.updPort_copied : (s.updPort k h).copied = s.copied := rfl
@[simp] theorem State.updPort_committed : (s.updPort k h).committed = s.committed := rfl
@[simp] theorem State.updPort_spareRows : (s.updPort k h).spareRows = s.spareRows := rfl
@[simp] theorem State.updPort_mapRecs : (s.updPort k h).mapRecs = s.mapRecs := rfl
@[simp] theorem State.updPort_queues : (s.updPort k h).queues = s.queues := rfl
@[simp] theorem State.updPort_sessions : (s.updPort k h).sessions = s.sessions := rfl
@[simp] theorem State.updPort_nextCmd : (s.updPort k h).nextCmd = s.nextCmd := rfl
@[simp] theorem State.updPort_msixMask : (s.updPort k h).msixMask = s.msixMask := rfl
@[simp] theorem State.updPort_fnState : (s.updPort k h).fnState = s.fnState := rfl
@[simp] theorem State.updPort_grants : (s.updPort k h).grants = s.grants := rfl
@[simp] theorem State.updPort_linkState : (s.updPort k h).linkState = s.linkState := rfl
@[simp] theorem State.updPort_crsWindow : (s.updPort k h).crsWindow = s.crsWindow := rfl
@[simp] theorem State.updPort_flrFns : (s.updPort k h).flrFns = s.flrFns := rfl
@[simp] theorem State.updPort_threads : (s.updPort k h).threads = s.threads := rfl
@[simp] theorem State.updPort_mats : (s.updPort k h).mats = s.mats := rfl
@[simp] theorem State.updPort_log : (s.updPort k h).log = s.log := rfl
@[simp] theorem State.updPort_doms : (s.updPort k h).doms = s.doms := rfl
@[simp] theorem State.updPort_ledger : (s.updPort k h).ledger = s.ledger := rfl
@[simp] theorem State.updPort_admitted : (s.updPort k h).admitted = s.admitted := rfl
@[simp] theorem State.updPort_opPhase : (s.updPort k h).opPhase = s.opPhase := rfl
@[simp] theorem State.updPort_ctrs : (s.updPort k h).ctrs = s.ctrs := rfl
@[simp] theorem State.updPort_snapStep : (s.updPort k h).snapStep = s.snapStep := rfl
@[simp] theorem State.updPort_snapAt : (s.updPort k h).snapAt = s.snapAt := rfl
@[simp] theorem State.updPort_snapshot : (s.updPort k h).snapshot = s.snapshot := rfl
@[simp] theorem State.updPort_latched : (s.updPort k h).latched = s.latched := rfl
@[simp] theorem State.updPort_pwrE : (s.updPort k h).pwrE = s.pwrE := rfl
@[simp] theorem State.updPort_pwrSig : (s.updPort k h).pwrSig = s.pwrSig := rfl
@[simp] theorem State.updPort_cfgRec : (s.updPort k h).cfgRec = s.cfgRec := rfl
@[simp] theorem State.updPort_cfgPending : (s.updPort k h).cfgPending = s.cfgPending := rfl
@[simp] theorem State.updPort_idxL : (s.updPort k h).idxL = s.idxL := rfl
@[simp] theorem State.updPort_idxRseq : (s.updPort k h).idxRseq = s.idxRseq := rfl
@[simp] theorem State.updPort_idxLow : (s.updPort k h).idxLow = s.idxLow := rfl
@[simp] theorem State.updPort_mlog : (s.updPort k h).mlog = s.mlog := rfl
@[simp] theorem State.updPort_mAcc : (s.updPort k h).mAcc = s.mAcc := rfl
@[simp] theorem State.updPort_fwInfo : (s.updPort k h).fwInfo = s.fwInfo := rfl
@[simp] theorem State.updPort_quoteCmd : (s.updPort k h).quoteCmd = s.quoteCmd := rfl
@[simp] theorem State.updPort_hashReq : (s.updPort k h).hashReq = s.hashReq := rfl
@[simp] theorem State.updPort_recovery : (s.updPort k h).recovery = s.recovery := rfl
@[simp] theorem State.updPort_dbgData : (s.updPort k h).dbgData = s.dbgData := rfl
@[simp] theorem State.updPort_dbgBusy : (s.updPort k h).dbgBusy = s.dbgBusy := rfl
@[simp] theorem State.updPort_authBuf : (s.updPort k h).authBuf = s.authBuf := rfl
@[simp] theorem State.updPort_authBusy : (s.updPort k h).authBusy = s.authBusy := rfl
@[simp] theorem State.updPort_challengeNo : (s.updPort k h).challengeNo = s.challengeNo := rfl
@[simp] theorem State.updPort_tap : (s.updPort k h).tap = s.tap := rfl
@[simp] theorem State.updPort_free : (s.updPort k h).free = s.free := rfl
@[simp] theorem State.updPort_out : (s.updPort k h).out = s.out := rfl
@[simp] theorem State.updPort_pending : (s.updPort k h).pending = s.pending := rfl
end

section
variable (s : State) (k : Nat) (x : Ring)
@[simp] theorem State.setRing_regs : (s.setRing k x).regs = s.regs := rfl
@[simp] theorem State.setRing_shadow : (s.setRing k x).shadow = s.shadow := rfl
@[simp] theorem State.setRing_locked : (s.setRing k x).locked = s.locked := rfl
@[simp] theorem State.setRing_variant : (s.setRing k x).variant = s.variant := rfl
@[simp] theorem State.setRing_stepping : (s.setRing k x).stepping = s.stepping := rfl
@[simp] theorem State.setRing_lifecycle : (s.setRing k x).lifecycle = s.lifecycle := rfl
@[simp] theorem State.setRing_svnFloor : (s.setRing k x).svnFloor = s.svnFloor := rfl
@[simp] theorem State.setRing_fwKeyHash : (s.setRing k x).fwKeyHash = s.fwKeyHash := rfl
@[simp] theorem State.setRing_identityOk : (s.setRing k x).identityOk = s.identityOk := rfl
@[simp] theorem State.setRing_now : (s.setRing k x).now = s.now := rfl
@[simp] theorem State.setRing_dawn : (s.setRing k x).dawn = s.dawn := rfl
@[simp] theorem State.setRing_deviceHalted : (s.setRing k x).deviceHalted = s.deviceHalted := rfl
@[simp] theorem State.setRing_injectStop : (s.setRing k x).injectStop = s.injectStop := rfl
@[simp] theorem State.setRing_quiesceStep : (s.setRing k x).quiesceStep = s.quiesceStep := rfl
@[simp] theorem State.setRing_pins : (s.setRing k x).pins = s.pins := rfl
@[simp] theorem State.setRing_ctxs : (s.setRing k x).ctxs = s.ctxs := rfl
@[simp] theorem State.setRing_templates : (s.setRing k x).templates = s.templates := rfl
@[simp] theorem State.setRing_images : (s.setRing k x).images = s.images := rfl
@[simp] theorem State.setRing_stored : (s.setRing k x).stored = s.stored := rfl
@[simp] theorem State.setRing_gateTable : (s.setRing k x).gateTable = s.gateTable := rfl
@[simp] theorem State.setRing_pes : (s.setRing k x).pes = s.pes := rfl
@[simp] theorem State.setRing_clusters : (s.setRing k x).clusters = s.clusters := rfl
@[simp] theorem State.setRing_phs : (s.setRing k x).phs = s.phs := rfl
@[simp] theorem State.setRing_bus : (s.setRing k x).bus = s.bus := rfl
@[simp] theorem State.setRing_phQueue : (s.setRing k x).phQueue = s.phQueue := rfl
@[simp] theorem State.setRing_phNow : (s.setRing k x).phNow = s.phNow := rfl
@[simp] theorem State.setRing_phPast : (s.setRing k x).phPast = s.phPast := rfl
@[simp] theorem State.setRing_exportAt : (s.setRing k x).exportAt = s.exportAt := rfl
@[simp] theorem State.setRing_inputs : (s.setRing k x).inputs = s.inputs := rfl
@[simp] theorem State.setRing_held : (s.setRing k x).held = s.held := rfl
@[simp] theorem State.setRing_ports : (s.setRing k x).ports = s.ports := rfl
@[simp] theorem State.setRing_chans : (s.setRing k x).chans = s.chans := rfl
@[simp] theorem State.setRing_schedU : (s.setRing k x).schedU = s.schedU := rfl
@[simp] theorem State.setRing_schedAt : (s.setRing k x).schedAt = s.schedAt := rfl
@[simp] theorem State.setRing_activeCauses : (s.setRing k x).activeCauses = s.activeCauses := rfl
@[simp] theorem State.setRing_offPending : (s.setRing k x).offPending = s.offPending := rfl
@[simp] theorem State.setRing_abortCount : (s.setRing k x).abortCount = s.abortCount := rfl
@[simp] theorem State.setRing_heartbeatAt : (s.setRing k x).heartbeatAt = s.heartbeatAt := rfl
@[simp] theorem State.setRing_net : (s.setRing k x).net = s.net := rfl
@[simp] theorem State.setRing_stations : (s.setRing k x).stations = s.stations := rfl
@[simp] theorem State.setRing_epochAt : (s.setRing k x).epochAt = s.epochAt := rfl
@[simp] theorem State.setRing_spans : (s.setRing k x).spans = s.spans := rfl
@[simp] theorem State.setRing_spanTxns : (s.setRing k x).spanTxns = s.spanTxns := rfl
@[simp] theorem State.setRing_mem : (s.setRing k x).mem = s.mem := rfl
@[simp] theorem State.setRing_presence : (s.setRing k x).presence = s.presence := rfl
@[simp] theorem State.setRing_bad : (s.setRing k x).bad = s.bad := rfl
@[simp] theorem State.setRing_defers : (s.setRing k x).defers = s.defers := rfl
@[simp] theorem State.setRing_sweep : (s.setRing k x).sweep = s.sweep := rfl
@[simp] theorem State.setRing_locks : (s.setRing k x).locks = s.locks := rfl
@[simp] theorem State.setRing_flt : (s.setRing k x).flt = s.flt := rfl
@[simp] theorem State.setRing_wstart : (s.setRing k x).wstart = s.wstart := rfl
@[simp] theorem State.setRing_causeCnt : (s.setRing k x).causeCnt = s.causeCnt := rfl
@[simp] theorem State.setRing_causePersist : (s.setRing k x).causePersist = s.causePersist := rfl
@[simp] theorem State.setRing_census : (s.setRing k x).census = s.census := rfl
@[simp] theorem State.setRing_censusSeen : (s.setRing k x).censusSeen = s.censusSeen := rfl
@[simp] theorem State.setRing_lifetime : (s.setRing k x).lifetime = s.lifetime := rfl
@[simp] theorem State.setRing_retQueue : (s.setRing k x).retQueue = s.retQueue := rfl
@[simp] theorem State.setRing_running : (s.setRing k x).running = s.running := rfl
@[simp] theorem State.setRing_copied : (s.setRing k x).copied = s.copied := rfl
@[simp] theorem State.setRing_committed : (s.setRing k x).committed = s.committed := rfl
@[simp] theorem State.setRing_spareRows : (s.setRing k x).spareRows = s.spareRows := rfl
@[simp] theorem State.setRing_mapRecs : (s.setRing k x).mapRecs = s.mapRecs := rfl
@[simp] theorem State.setRing_queues : (s.setRing k x).queues = s.queues := rfl
@[simp] theorem State.setRing_sessions : (s.setRing k x).sessions = s.sessions := rfl
@[simp] theorem State.setRing_nextCmd : (s.setRing k x).nextCmd = s.nextCmd := rfl
@[simp] theorem State.setRing_msixMask : (s.setRing k x).msixMask = s.msixMask := rfl
@[simp] theorem State.setRing_fnState : (s.setRing k x).fnState = s.fnState := rfl
@[simp] theorem State.setRing_grants : (s.setRing k x).grants = s.grants := rfl
@[simp] theorem State.setRing_linkState : (s.setRing k x).linkState = s.linkState := rfl
@[simp] theorem State.setRing_crsWindow : (s.setRing k x).crsWindow = s.crsWindow := rfl
@[simp] theorem State.setRing_flrFns : (s.setRing k x).flrFns = s.flrFns := rfl
@[simp] theorem State.setRing_threads : (s.setRing k x).threads = s.threads := rfl
@[simp] theorem State.setRing_mats : (s.setRing k x).mats = s.mats := rfl
@[simp] theorem State.setRing_log : (s.setRing k x).log = s.log := rfl
@[simp] theorem State.setRing_doms : (s.setRing k x).doms = s.doms := rfl
@[simp] theorem State.setRing_ledger : (s.setRing k x).ledger = s.ledger := rfl
@[simp] theorem State.setRing_admitted : (s.setRing k x).admitted = s.admitted := rfl
@[simp] theorem State.setRing_opPhase : (s.setRing k x).opPhase = s.opPhase := rfl
@[simp] theorem State.setRing_ctrs : (s.setRing k x).ctrs = s.ctrs := rfl
@[simp] theorem State.setRing_snapStep : (s.setRing k x).snapStep = s.snapStep := rfl
@[simp] theorem State.setRing_snapAt : (s.setRing k x).snapAt = s.snapAt := rfl
@[simp] theorem State.setRing_snapshot : (s.setRing k x).snapshot = s.snapshot := rfl
@[simp] theorem State.setRing_latched : (s.setRing k x).latched = s.latched := rfl
@[simp] theorem State.setRing_pwrE : (s.setRing k x).pwrE = s.pwrE := rfl
@[simp] theorem State.setRing_pwrSig : (s.setRing k x).pwrSig = s.pwrSig := rfl
@[simp] theorem State.setRing_cfgRec : (s.setRing k x).cfgRec = s.cfgRec := rfl
@[simp] theorem State.setRing_cfgPending : (s.setRing k x).cfgPending = s.cfgPending := rfl
@[simp] theorem State.setRing_idxL : (s.setRing k x).idxL = s.idxL := rfl
@[simp] theorem State.setRing_idxRseq : (s.setRing k x).idxRseq = s.idxRseq := rfl
@[simp] theorem State.setRing_idxLow : (s.setRing k x).idxLow = s.idxLow := rfl
@[simp] theorem State.setRing_mlog : (s.setRing k x).mlog = s.mlog := rfl
@[simp] theorem State.setRing_mAcc : (s.setRing k x).mAcc = s.mAcc := rfl
@[simp] theorem State.setRing_fwInfo : (s.setRing k x).fwInfo = s.fwInfo := rfl
@[simp] theorem State.setRing_quoteCmd : (s.setRing k x).quoteCmd = s.quoteCmd := rfl
@[simp] theorem State.setRing_hashReq : (s.setRing k x).hashReq = s.hashReq := rfl
@[simp] theorem State.setRing_recovery : (s.setRing k x).recovery = s.recovery := rfl
@[simp] theorem State.setRing_dbgData : (s.setRing k x).dbgData = s.dbgData := rfl
@[simp] theorem State.setRing_dbgBusy : (s.setRing k x).dbgBusy = s.dbgBusy := rfl
@[simp] theorem State.setRing_authBuf : (s.setRing k x).authBuf = s.authBuf := rfl
@[simp] theorem State.setRing_authBusy : (s.setRing k x).authBusy = s.authBusy := rfl
@[simp] theorem State.setRing_challengeNo : (s.setRing k x).challengeNo = s.challengeNo := rfl
@[simp] theorem State.setRing_tap : (s.setRing k x).tap = s.tap := rfl
@[simp] theorem State.setRing_free : (s.setRing k x).free = s.free := rfl
@[simp] theorem State.setRing_out : (s.setRing k x).out = s.out := rfl
@[simp] theorem State.setRing_pending : (s.setRing k x).pending = s.pending := rfl
end

section
variable (s : State) (k : Nat) (h : Ring → Ring)
@[simp] theorem State.updRing_regs : (s.updRing k h).regs = s.regs := rfl
@[simp] theorem State.updRing_shadow : (s.updRing k h).shadow = s.shadow := rfl
@[simp] theorem State.updRing_locked : (s.updRing k h).locked = s.locked := rfl
@[simp] theorem State.updRing_variant : (s.updRing k h).variant = s.variant := rfl
@[simp] theorem State.updRing_stepping : (s.updRing k h).stepping = s.stepping := rfl
@[simp] theorem State.updRing_lifecycle : (s.updRing k h).lifecycle = s.lifecycle := rfl
@[simp] theorem State.updRing_svnFloor : (s.updRing k h).svnFloor = s.svnFloor := rfl
@[simp] theorem State.updRing_fwKeyHash : (s.updRing k h).fwKeyHash = s.fwKeyHash := rfl
@[simp] theorem State.updRing_identityOk : (s.updRing k h).identityOk = s.identityOk := rfl
@[simp] theorem State.updRing_now : (s.updRing k h).now = s.now := rfl
@[simp] theorem State.updRing_dawn : (s.updRing k h).dawn = s.dawn := rfl
@[simp] theorem State.updRing_deviceHalted : (s.updRing k h).deviceHalted = s.deviceHalted := rfl
@[simp] theorem State.updRing_injectStop : (s.updRing k h).injectStop = s.injectStop := rfl
@[simp] theorem State.updRing_quiesceStep : (s.updRing k h).quiesceStep = s.quiesceStep := rfl
@[simp] theorem State.updRing_pins : (s.updRing k h).pins = s.pins := rfl
@[simp] theorem State.updRing_ctxs : (s.updRing k h).ctxs = s.ctxs := rfl
@[simp] theorem State.updRing_templates : (s.updRing k h).templates = s.templates := rfl
@[simp] theorem State.updRing_images : (s.updRing k h).images = s.images := rfl
@[simp] theorem State.updRing_stored : (s.updRing k h).stored = s.stored := rfl
@[simp] theorem State.updRing_gateTable : (s.updRing k h).gateTable = s.gateTable := rfl
@[simp] theorem State.updRing_pes : (s.updRing k h).pes = s.pes := rfl
@[simp] theorem State.updRing_clusters : (s.updRing k h).clusters = s.clusters := rfl
@[simp] theorem State.updRing_phs : (s.updRing k h).phs = s.phs := rfl
@[simp] theorem State.updRing_bus : (s.updRing k h).bus = s.bus := rfl
@[simp] theorem State.updRing_phQueue : (s.updRing k h).phQueue = s.phQueue := rfl
@[simp] theorem State.updRing_phNow : (s.updRing k h).phNow = s.phNow := rfl
@[simp] theorem State.updRing_phPast : (s.updRing k h).phPast = s.phPast := rfl
@[simp] theorem State.updRing_exportAt : (s.updRing k h).exportAt = s.exportAt := rfl
@[simp] theorem State.updRing_inputs : (s.updRing k h).inputs = s.inputs := rfl
@[simp] theorem State.updRing_held : (s.updRing k h).held = s.held := rfl
@[simp] theorem State.updRing_ports : (s.updRing k h).ports = s.ports := rfl
@[simp] theorem State.updRing_chans : (s.updRing k h).chans = s.chans := rfl
@[simp] theorem State.updRing_schedU : (s.updRing k h).schedU = s.schedU := rfl
@[simp] theorem State.updRing_schedAt : (s.updRing k h).schedAt = s.schedAt := rfl
@[simp] theorem State.updRing_activeCauses : (s.updRing k h).activeCauses = s.activeCauses := rfl
@[simp] theorem State.updRing_offPending : (s.updRing k h).offPending = s.offPending := rfl
@[simp] theorem State.updRing_abortCount : (s.updRing k h).abortCount = s.abortCount := rfl
@[simp] theorem State.updRing_heartbeatAt : (s.updRing k h).heartbeatAt = s.heartbeatAt := rfl
@[simp] theorem State.updRing_net : (s.updRing k h).net = s.net := rfl
@[simp] theorem State.updRing_stations : (s.updRing k h).stations = s.stations := rfl
@[simp] theorem State.updRing_epochAt : (s.updRing k h).epochAt = s.epochAt := rfl
@[simp] theorem State.updRing_spans : (s.updRing k h).spans = s.spans := rfl
@[simp] theorem State.updRing_spanTxns : (s.updRing k h).spanTxns = s.spanTxns := rfl
@[simp] theorem State.updRing_mem : (s.updRing k h).mem = s.mem := rfl
@[simp] theorem State.updRing_presence : (s.updRing k h).presence = s.presence := rfl
@[simp] theorem State.updRing_bad : (s.updRing k h).bad = s.bad := rfl
@[simp] theorem State.updRing_defers : (s.updRing k h).defers = s.defers := rfl
@[simp] theorem State.updRing_sweep : (s.updRing k h).sweep = s.sweep := rfl
@[simp] theorem State.updRing_locks : (s.updRing k h).locks = s.locks := rfl
@[simp] theorem State.updRing_flt : (s.updRing k h).flt = s.flt := rfl
@[simp] theorem State.updRing_wstart : (s.updRing k h).wstart = s.wstart := rfl
@[simp] theorem State.updRing_causeCnt : (s.updRing k h).causeCnt = s.causeCnt := rfl
@[simp] theorem State.updRing_causePersist : (s.updRing k h).causePersist = s.causePersist := rfl
@[simp] theorem State.updRing_census : (s.updRing k h).census = s.census := rfl
@[simp] theorem State.updRing_censusSeen : (s.updRing k h).censusSeen = s.censusSeen := rfl
@[simp] theorem State.updRing_lifetime : (s.updRing k h).lifetime = s.lifetime := rfl
@[simp] theorem State.updRing_retQueue : (s.updRing k h).retQueue = s.retQueue := rfl
@[simp] theorem State.updRing_running : (s.updRing k h).running = s.running := rfl
@[simp] theorem State.updRing_copied : (s.updRing k h).copied = s.copied := rfl
@[simp] theorem State.updRing_committed : (s.updRing k h).committed = s.committed := rfl
@[simp] theorem State.updRing_spareRows : (s.updRing k h).spareRows = s.spareRows := rfl
@[simp] theorem State.updRing_mapRecs : (s.updRing k h).mapRecs = s.mapRecs := rfl
@[simp] theorem State.updRing_queues : (s.updRing k h).queues = s.queues := rfl
@[simp] theorem State.updRing_sessions : (s.updRing k h).sessions = s.sessions := rfl
@[simp] theorem State.updRing_nextCmd : (s.updRing k h).nextCmd = s.nextCmd := rfl
@[simp] theorem State.updRing_msixMask : (s.updRing k h).msixMask = s.msixMask := rfl
@[simp] theorem State.updRing_fnState : (s.updRing k h).fnState = s.fnState := rfl
@[simp] theorem State.updRing_grants : (s.updRing k h).grants = s.grants := rfl
@[simp] theorem State.updRing_linkState : (s.updRing k h).linkState = s.linkState := rfl
@[simp] theorem State.updRing_crsWindow : (s.updRing k h).crsWindow = s.crsWindow := rfl
@[simp] theorem State.updRing_flrFns : (s.updRing k h).flrFns = s.flrFns := rfl
@[simp] theorem State.updRing_threads : (s.updRing k h).threads = s.threads := rfl
@[simp] theorem State.updRing_mats : (s.updRing k h).mats = s.mats := rfl
@[simp] theorem State.updRing_log : (s.updRing k h).log = s.log := rfl
@[simp] theorem State.updRing_doms : (s.updRing k h).doms = s.doms := rfl
@[simp] theorem State.updRing_ledger : (s.updRing k h).ledger = s.ledger := rfl
@[simp] theorem State.updRing_admitted : (s.updRing k h).admitted = s.admitted := rfl
@[simp] theorem State.updRing_opPhase : (s.updRing k h).opPhase = s.opPhase := rfl
@[simp] theorem State.updRing_ctrs : (s.updRing k h).ctrs = s.ctrs := rfl
@[simp] theorem State.updRing_snapStep : (s.updRing k h).snapStep = s.snapStep := rfl
@[simp] theorem State.updRing_snapAt : (s.updRing k h).snapAt = s.snapAt := rfl
@[simp] theorem State.updRing_snapshot : (s.updRing k h).snapshot = s.snapshot := rfl
@[simp] theorem State.updRing_latched : (s.updRing k h).latched = s.latched := rfl
@[simp] theorem State.updRing_pwrE : (s.updRing k h).pwrE = s.pwrE := rfl
@[simp] theorem State.updRing_pwrSig : (s.updRing k h).pwrSig = s.pwrSig := rfl
@[simp] theorem State.updRing_cfgRec : (s.updRing k h).cfgRec = s.cfgRec := rfl
@[simp] theorem State.updRing_cfgPending : (s.updRing k h).cfgPending = s.cfgPending := rfl
@[simp] theorem State.updRing_idxL : (s.updRing k h).idxL = s.idxL := rfl
@[simp] theorem State.updRing_idxRseq : (s.updRing k h).idxRseq = s.idxRseq := rfl
@[simp] theorem State.updRing_idxLow : (s.updRing k h).idxLow = s.idxLow := rfl
@[simp] theorem State.updRing_mlog : (s.updRing k h).mlog = s.mlog := rfl
@[simp] theorem State.updRing_mAcc : (s.updRing k h).mAcc = s.mAcc := rfl
@[simp] theorem State.updRing_fwInfo : (s.updRing k h).fwInfo = s.fwInfo := rfl
@[simp] theorem State.updRing_quoteCmd : (s.updRing k h).quoteCmd = s.quoteCmd := rfl
@[simp] theorem State.updRing_hashReq : (s.updRing k h).hashReq = s.hashReq := rfl
@[simp] theorem State.updRing_recovery : (s.updRing k h).recovery = s.recovery := rfl
@[simp] theorem State.updRing_dbgData : (s.updRing k h).dbgData = s.dbgData := rfl
@[simp] theorem State.updRing_dbgBusy : (s.updRing k h).dbgBusy = s.dbgBusy := rfl
@[simp] theorem State.updRing_authBuf : (s.updRing k h).authBuf = s.authBuf := rfl
@[simp] theorem State.updRing_authBusy : (s.updRing k h).authBusy = s.authBusy := rfl
@[simp] theorem State.updRing_challengeNo : (s.updRing k h).challengeNo = s.challengeNo := rfl
@[simp] theorem State.updRing_tap : (s.updRing k h).tap = s.tap := rfl
@[simp] theorem State.updRing_free : (s.updRing k h).free = s.free := rfl
@[simp] theorem State.updRing_out : (s.updRing k h).out = s.out := rfl
@[simp] theorem State.updRing_pending : (s.updRing k h).pending = s.pending := rfl
end

section
variable (s : State) (k : Nat) (x : Chan)
@[simp] theorem State.setChan_regs : (s.setChan k x).regs = s.regs := rfl
@[simp] theorem State.setChan_shadow : (s.setChan k x).shadow = s.shadow := rfl
@[simp] theorem State.setChan_locked : (s.setChan k x).locked = s.locked := rfl
@[simp] theorem State.setChan_variant : (s.setChan k x).variant = s.variant := rfl
@[simp] theorem State.setChan_stepping : (s.setChan k x).stepping = s.stepping := rfl
@[simp] theorem State.setChan_lifecycle : (s.setChan k x).lifecycle = s.lifecycle := rfl
@[simp] theorem State.setChan_svnFloor : (s.setChan k x).svnFloor = s.svnFloor := rfl
@[simp] theorem State.setChan_fwKeyHash : (s.setChan k x).fwKeyHash = s.fwKeyHash := rfl
@[simp] theorem State.setChan_identityOk : (s.setChan k x).identityOk = s.identityOk := rfl
@[simp] theorem State.setChan_now : (s.setChan k x).now = s.now := rfl
@[simp] theorem State.setChan_dawn : (s.setChan k x).dawn = s.dawn := rfl
@[simp] theorem State.setChan_deviceHalted : (s.setChan k x).deviceHalted = s.deviceHalted := rfl
@[simp] theorem State.setChan_injectStop : (s.setChan k x).injectStop = s.injectStop := rfl
@[simp] theorem State.setChan_quiesceStep : (s.setChan k x).quiesceStep = s.quiesceStep := rfl
@[simp] theorem State.setChan_pins : (s.setChan k x).pins = s.pins := rfl
@[simp] theorem State.setChan_ctxs : (s.setChan k x).ctxs = s.ctxs := rfl
@[simp] theorem State.setChan_templates : (s.setChan k x).templates = s.templates := rfl
@[simp] theorem State.setChan_images : (s.setChan k x).images = s.images := rfl
@[simp] theorem State.setChan_stored : (s.setChan k x).stored = s.stored := rfl
@[simp] theorem State.setChan_gateTable : (s.setChan k x).gateTable = s.gateTable := rfl
@[simp] theorem State.setChan_pes : (s.setChan k x).pes = s.pes := rfl
@[simp] theorem State.setChan_clusters : (s.setChan k x).clusters = s.clusters := rfl
@[simp] theorem State.setChan_phs : (s.setChan k x).phs = s.phs := rfl
@[simp] theorem State.setChan_bus : (s.setChan k x).bus = s.bus := rfl
@[simp] theorem State.setChan_phQueue : (s.setChan k x).phQueue = s.phQueue := rfl
@[simp] theorem State.setChan_phNow : (s.setChan k x).phNow = s.phNow := rfl
@[simp] theorem State.setChan_phPast : (s.setChan k x).phPast = s.phPast := rfl
@[simp] theorem State.setChan_exportAt : (s.setChan k x).exportAt = s.exportAt := rfl
@[simp] theorem State.setChan_inputs : (s.setChan k x).inputs = s.inputs := rfl
@[simp] theorem State.setChan_held : (s.setChan k x).held = s.held := rfl
@[simp] theorem State.setChan_ports : (s.setChan k x).ports = s.ports := rfl
@[simp] theorem State.setChan_rings : (s.setChan k x).rings = s.rings := rfl
@[simp] theorem State.setChan_schedU : (s.setChan k x).schedU = s.schedU := rfl
@[simp] theorem State.setChan_schedAt : (s.setChan k x).schedAt = s.schedAt := rfl
@[simp] theorem State.setChan_activeCauses : (s.setChan k x).activeCauses = s.activeCauses := rfl
@[simp] theorem State.setChan_offPending : (s.setChan k x).offPending = s.offPending := rfl
@[simp] theorem State.setChan_abortCount : (s.setChan k x).abortCount = s.abortCount := rfl
@[simp] theorem State.setChan_heartbeatAt : (s.setChan k x).heartbeatAt = s.heartbeatAt := rfl
@[simp] theorem State.setChan_net : (s.setChan k x).net = s.net := rfl
@[simp] theorem State.setChan_stations : (s.setChan k x).stations = s.stations := rfl
@[simp] theorem State.setChan_epochAt : (s.setChan k x).epochAt = s.epochAt := rfl
@[simp] theorem State.setChan_spans : (s.setChan k x).spans = s.spans := rfl
@[simp] theorem State.setChan_spanTxns : (s.setChan k x).spanTxns = s.spanTxns := rfl
@[simp] theorem State.setChan_mem : (s.setChan k x).mem = s.mem := rfl
@[simp] theorem State.setChan_presence : (s.setChan k x).presence = s.presence := rfl
@[simp] theorem State.setChan_bad : (s.setChan k x).bad = s.bad := rfl
@[simp] theorem State.setChan_defers : (s.setChan k x).defers = s.defers := rfl
@[simp] theorem State.setChan_sweep : (s.setChan k x).sweep = s.sweep := rfl
@[simp] theorem State.setChan_locks : (s.setChan k x).locks = s.locks := rfl
@[simp] theorem State.setChan_flt : (s.setChan k x).flt = s.flt := rfl
@[simp] theorem State.setChan_wstart : (s.setChan k x).wstart = s.wstart := rfl
@[simp] theorem State.setChan_causeCnt : (s.setChan k x).causeCnt = s.causeCnt := rfl
@[simp] theorem State.setChan_causePersist : (s.setChan k x).causePersist = s.causePersist := rfl
@[simp] theorem State.setChan_census : (s.setChan k x).census = s.census := rfl
@[simp] theorem State.setChan_censusSeen : (s.setChan k x).censusSeen = s.censusSeen := rfl
@[simp] theorem State.setChan_lifetime : (s.setChan k x).lifetime = s.lifetime := rfl
@[simp] theorem State.setChan_retQueue : (s.setChan k x).retQueue = s.retQueue := rfl
@[simp] theorem State.setChan_running : (s.setChan k x).running = s.running := rfl
@[simp] theorem State.setChan_copied : (s.setChan k x).copied = s.copied := rfl
@[simp] theorem State.setChan_committed : (s.setChan k x).committed = s.committed := rfl
@[simp] theorem State.setChan_spareRows : (s.setChan k x).spareRows = s.spareRows := rfl
@[simp] theorem State.setChan_mapRecs : (s.setChan k x).mapRecs = s.mapRecs := rfl
@[simp] theorem State.setChan_queues : (s.setChan k x).queues = s.queues := rfl
@[simp] theorem State.setChan_sessions : (s.setChan k x).sessions = s.sessions := rfl
@[simp] theorem State.setChan_nextCmd : (s.setChan k x).nextCmd = s.nextCmd := rfl
@[simp] theorem State.setChan_msixMask : (s.setChan k x).msixMask = s.msixMask := rfl
@[simp] theorem State.setChan_fnState : (s.setChan k x).fnState = s.fnState := rfl
@[simp] theorem State.setChan_grants : (s.setChan k x).grants = s.grants := rfl
@[simp] theorem State.setChan_linkState : (s.setChan k x).linkState = s.linkState := rfl
@[simp] theorem State.setChan_crsWindow : (s.setChan k x).crsWindow = s.crsWindow := rfl
@[simp] theorem State.setChan_flrFns : (s.setChan k x).flrFns = s.flrFns := rfl
@[simp] theorem State.setChan_threads : (s.setChan k x).threads = s.threads := rfl
@[simp] theorem State.setChan_mats : (s.setChan k x).mats = s.mats := rfl
@[simp] theorem State.setChan_log : (s.setChan k x).log = s.log := rfl
@[simp] theorem State.setChan_doms : (s.setChan k x).doms = s.doms := rfl
@[simp] theorem State.setChan_ledger : (s.setChan k x).ledger = s.ledger := rfl
@[simp] theorem State.setChan_admitted : (s.setChan k x).admitted = s.admitted := rfl
@[simp] theorem State.setChan_opPhase : (s.setChan k x).opPhase = s.opPhase := rfl
@[simp] theorem State.setChan_ctrs : (s.setChan k x).ctrs = s.ctrs := rfl
@[simp] theorem State.setChan_snapStep : (s.setChan k x).snapStep = s.snapStep := rfl
@[simp] theorem State.setChan_snapAt : (s.setChan k x).snapAt = s.snapAt := rfl
@[simp] theorem State.setChan_snapshot : (s.setChan k x).snapshot = s.snapshot := rfl
@[simp] theorem State.setChan_latched : (s.setChan k x).latched = s.latched := rfl
@[simp] theorem State.setChan_pwrE : (s.setChan k x).pwrE = s.pwrE := rfl
@[simp] theorem State.setChan_pwrSig : (s.setChan k x).pwrSig = s.pwrSig := rfl
@[simp] theorem State.setChan_cfgRec : (s.setChan k x).cfgRec = s.cfgRec := rfl
@[simp] theorem State.setChan_cfgPending : (s.setChan k x).cfgPending = s.cfgPending := rfl
@[simp] theorem State.setChan_idxL : (s.setChan k x).idxL = s.idxL := rfl
@[simp] theorem State.setChan_idxRseq : (s.setChan k x).idxRseq = s.idxRseq := rfl
@[simp] theorem State.setChan_idxLow : (s.setChan k x).idxLow = s.idxLow := rfl
@[simp] theorem State.setChan_mlog : (s.setChan k x).mlog = s.mlog := rfl
@[simp] theorem State.setChan_mAcc : (s.setChan k x).mAcc = s.mAcc := rfl
@[simp] theorem State.setChan_fwInfo : (s.setChan k x).fwInfo = s.fwInfo := rfl
@[simp] theorem State.setChan_quoteCmd : (s.setChan k x).quoteCmd = s.quoteCmd := rfl
@[simp] theorem State.setChan_hashReq : (s.setChan k x).hashReq = s.hashReq := rfl
@[simp] theorem State.setChan_recovery : (s.setChan k x).recovery = s.recovery := rfl
@[simp] theorem State.setChan_dbgData : (s.setChan k x).dbgData = s.dbgData := rfl
@[simp] theorem State.setChan_dbgBusy : (s.setChan k x).dbgBusy = s.dbgBusy := rfl
@[simp] theorem State.setChan_authBuf : (s.setChan k x).authBuf = s.authBuf := rfl
@[simp] theorem State.setChan_authBusy : (s.setChan k x).authBusy = s.authBusy := rfl
@[simp] theorem State.setChan_challengeNo : (s.setChan k x).challengeNo = s.challengeNo := rfl
@[simp] theorem State.setChan_tap : (s.setChan k x).tap = s.tap := rfl
@[simp] theorem State.setChan_free : (s.setChan k x).free = s.free := rfl
@[simp] theorem State.setChan_out : (s.setChan k x).out = s.out := rfl
@[simp] theorem State.setChan_pending : (s.setChan k x).pending = s.pending := rfl
end

section
variable (s : State) (k : Nat) (h : Chan → Chan)
@[simp] theorem State.updChan_regs : (s.updChan k h).regs = s.regs := rfl
@[simp] theorem State.updChan_shadow : (s.updChan k h).shadow = s.shadow := rfl
@[simp] theorem State.updChan_locked : (s.updChan k h).locked = s.locked := rfl
@[simp] theorem State.updChan_variant : (s.updChan k h).variant = s.variant := rfl
@[simp] theorem State.updChan_stepping : (s.updChan k h).stepping = s.stepping := rfl
@[simp] theorem State.updChan_lifecycle : (s.updChan k h).lifecycle = s.lifecycle := rfl
@[simp] theorem State.updChan_svnFloor : (s.updChan k h).svnFloor = s.svnFloor := rfl
@[simp] theorem State.updChan_fwKeyHash : (s.updChan k h).fwKeyHash = s.fwKeyHash := rfl
@[simp] theorem State.updChan_identityOk : (s.updChan k h).identityOk = s.identityOk := rfl
@[simp] theorem State.updChan_now : (s.updChan k h).now = s.now := rfl
@[simp] theorem State.updChan_dawn : (s.updChan k h).dawn = s.dawn := rfl
@[simp] theorem State.updChan_deviceHalted : (s.updChan k h).deviceHalted = s.deviceHalted := rfl
@[simp] theorem State.updChan_injectStop : (s.updChan k h).injectStop = s.injectStop := rfl
@[simp] theorem State.updChan_quiesceStep : (s.updChan k h).quiesceStep = s.quiesceStep := rfl
@[simp] theorem State.updChan_pins : (s.updChan k h).pins = s.pins := rfl
@[simp] theorem State.updChan_ctxs : (s.updChan k h).ctxs = s.ctxs := rfl
@[simp] theorem State.updChan_templates : (s.updChan k h).templates = s.templates := rfl
@[simp] theorem State.updChan_images : (s.updChan k h).images = s.images := rfl
@[simp] theorem State.updChan_stored : (s.updChan k h).stored = s.stored := rfl
@[simp] theorem State.updChan_gateTable : (s.updChan k h).gateTable = s.gateTable := rfl
@[simp] theorem State.updChan_pes : (s.updChan k h).pes = s.pes := rfl
@[simp] theorem State.updChan_clusters : (s.updChan k h).clusters = s.clusters := rfl
@[simp] theorem State.updChan_phs : (s.updChan k h).phs = s.phs := rfl
@[simp] theorem State.updChan_bus : (s.updChan k h).bus = s.bus := rfl
@[simp] theorem State.updChan_phQueue : (s.updChan k h).phQueue = s.phQueue := rfl
@[simp] theorem State.updChan_phNow : (s.updChan k h).phNow = s.phNow := rfl
@[simp] theorem State.updChan_phPast : (s.updChan k h).phPast = s.phPast := rfl
@[simp] theorem State.updChan_exportAt : (s.updChan k h).exportAt = s.exportAt := rfl
@[simp] theorem State.updChan_inputs : (s.updChan k h).inputs = s.inputs := rfl
@[simp] theorem State.updChan_held : (s.updChan k h).held = s.held := rfl
@[simp] theorem State.updChan_ports : (s.updChan k h).ports = s.ports := rfl
@[simp] theorem State.updChan_rings : (s.updChan k h).rings = s.rings := rfl
@[simp] theorem State.updChan_schedU : (s.updChan k h).schedU = s.schedU := rfl
@[simp] theorem State.updChan_schedAt : (s.updChan k h).schedAt = s.schedAt := rfl
@[simp] theorem State.updChan_activeCauses : (s.updChan k h).activeCauses = s.activeCauses := rfl
@[simp] theorem State.updChan_offPending : (s.updChan k h).offPending = s.offPending := rfl
@[simp] theorem State.updChan_abortCount : (s.updChan k h).abortCount = s.abortCount := rfl
@[simp] theorem State.updChan_heartbeatAt : (s.updChan k h).heartbeatAt = s.heartbeatAt := rfl
@[simp] theorem State.updChan_net : (s.updChan k h).net = s.net := rfl
@[simp] theorem State.updChan_stations : (s.updChan k h).stations = s.stations := rfl
@[simp] theorem State.updChan_epochAt : (s.updChan k h).epochAt = s.epochAt := rfl
@[simp] theorem State.updChan_spans : (s.updChan k h).spans = s.spans := rfl
@[simp] theorem State.updChan_spanTxns : (s.updChan k h).spanTxns = s.spanTxns := rfl
@[simp] theorem State.updChan_mem : (s.updChan k h).mem = s.mem := rfl
@[simp] theorem State.updChan_presence : (s.updChan k h).presence = s.presence := rfl
@[simp] theorem State.updChan_bad : (s.updChan k h).bad = s.bad := rfl
@[simp] theorem State.updChan_defers : (s.updChan k h).defers = s.defers := rfl
@[simp] theorem State.updChan_sweep : (s.updChan k h).sweep = s.sweep := rfl
@[simp] theorem State.updChan_locks : (s.updChan k h).locks = s.locks := rfl
@[simp] theorem State.updChan_flt : (s.updChan k h).flt = s.flt := rfl
@[simp] theorem State.updChan_wstart : (s.updChan k h).wstart = s.wstart := rfl
@[simp] theorem State.updChan_causeCnt : (s.updChan k h).causeCnt = s.causeCnt := rfl
@[simp] theorem State.updChan_causePersist : (s.updChan k h).causePersist = s.causePersist := rfl
@[simp] theorem State.updChan_census : (s.updChan k h).census = s.census := rfl
@[simp] theorem State.updChan_censusSeen : (s.updChan k h).censusSeen = s.censusSeen := rfl
@[simp] theorem State.updChan_lifetime : (s.updChan k h).lifetime = s.lifetime := rfl
@[simp] theorem State.updChan_retQueue : (s.updChan k h).retQueue = s.retQueue := rfl
@[simp] theorem State.updChan_running : (s.updChan k h).running = s.running := rfl
@[simp] theorem State.updChan_copied : (s.updChan k h).copied = s.copied := rfl
@[simp] theorem State.updChan_committed : (s.updChan k h).committed = s.committed := rfl
@[simp] theorem State.updChan_spareRows : (s.updChan k h).spareRows = s.spareRows := rfl
@[simp] theorem State.updChan_mapRecs : (s.updChan k h).mapRecs = s.mapRecs := rfl
@[simp] theorem State.updChan_queues : (s.updChan k h).queues = s.queues := rfl
@[simp] theorem State.updChan_sessions : (s.updChan k h).sessions = s.sessions := rfl
@[simp] theorem State.updChan_nextCmd : (s.updChan k h).nextCmd = s.nextCmd := rfl
@[simp] theorem State.updChan_msixMask : (s.updChan k h).msixMask = s.msixMask := rfl
@[simp] theorem State.updChan_fnState : (s.updChan k h).fnState = s.fnState := rfl
@[simp] theorem State.updChan_grants : (s.updChan k h).grants = s.grants := rfl
@[simp] theorem State.updChan_linkState : (s.updChan k h).linkState = s.linkState := rfl
@[simp] theorem State.updChan_crsWindow : (s.updChan k h).crsWindow = s.crsWindow := rfl
@[simp] theorem State.updChan_flrFns : (s.updChan k h).flrFns = s.flrFns := rfl
@[simp] theorem State.updChan_threads : (s.updChan k h).threads = s.threads := rfl
@[simp] theorem State.updChan_mats : (s.updChan k h).mats = s.mats := rfl
@[simp] theorem State.updChan_log : (s.updChan k h).log = s.log := rfl
@[simp] theorem State.updChan_doms : (s.updChan k h).doms = s.doms := rfl
@[simp] theorem State.updChan_ledger : (s.updChan k h).ledger = s.ledger := rfl
@[simp] theorem State.updChan_admitted : (s.updChan k h).admitted = s.admitted := rfl
@[simp] theorem State.updChan_opPhase : (s.updChan k h).opPhase = s.opPhase := rfl
@[simp] theorem State.updChan_ctrs : (s.updChan k h).ctrs = s.ctrs := rfl
@[simp] theorem State.updChan_snapStep : (s.updChan k h).snapStep = s.snapStep := rfl
@[simp] theorem State.updChan_snapAt : (s.updChan k h).snapAt = s.snapAt := rfl
@[simp] theorem State.updChan_snapshot : (s.updChan k h).snapshot = s.snapshot := rfl
@[simp] theorem State.updChan_latched : (s.updChan k h).latched = s.latched := rfl
@[simp] theorem State.updChan_pwrE : (s.updChan k h).pwrE = s.pwrE := rfl
@[simp] theorem State.updChan_pwrSig : (s.updChan k h).pwrSig = s.pwrSig := rfl
@[simp] theorem State.updChan_cfgRec : (s.updChan k h).cfgRec = s.cfgRec := rfl
@[simp] theorem State.updChan_cfgPending : (s.updChan k h).cfgPending = s.cfgPending := rfl
@[simp] theorem State.updChan_idxL : (s.updChan k h).idxL = s.idxL := rfl
@[simp] theorem State.updChan_idxRseq : (s.updChan k h).idxRseq = s.idxRseq := rfl
@[simp] theorem State.updChan_idxLow : (s.updChan k h).idxLow = s.idxLow := rfl
@[simp] theorem State.updChan_mlog : (s.updChan k h).mlog = s.mlog := rfl
@[simp] theorem State.updChan_mAcc : (s.updChan k h).mAcc = s.mAcc := rfl
@[simp] theorem State.updChan_fwInfo : (s.updChan k h).fwInfo = s.fwInfo := rfl
@[simp] theorem State.updChan_quoteCmd : (s.updChan k h).quoteCmd = s.quoteCmd := rfl
@[simp] theorem State.updChan_hashReq : (s.updChan k h).hashReq = s.hashReq := rfl
@[simp] theorem State.updChan_recovery : (s.updChan k h).recovery = s.recovery := rfl
@[simp] theorem State.updChan_dbgData : (s.updChan k h).dbgData = s.dbgData := rfl
@[simp] theorem State.updChan_dbgBusy : (s.updChan k h).dbgBusy = s.dbgBusy := rfl
@[simp] theorem State.updChan_authBuf : (s.updChan k h).authBuf = s.authBuf := rfl
@[simp] theorem State.updChan_authBusy : (s.updChan k h).authBusy = s.authBusy := rfl
@[simp] theorem State.updChan_challengeNo : (s.updChan k h).challengeNo = s.challengeNo := rfl
@[simp] theorem State.updChan_tap : (s.updChan k h).tap = s.tap := rfl
@[simp] theorem State.updChan_free : (s.updChan k h).free = s.free := rfl
@[simp] theorem State.updChan_out : (s.updChan k h).out = s.out := rfl
@[simp] theorem State.updChan_pending : (s.updChan k h).pending = s.pending := rfl
end

section
variable (s : State) (k : Nat) (x : Station)
@[simp] theorem State.setStn_regs : (s.setStn k x).regs = s.regs := rfl
@[simp] theorem State.setStn_shadow : (s.setStn k x).shadow = s.shadow := rfl
@[simp] theorem State.setStn_locked : (s.setStn k x).locked = s.locked := rfl
@[simp] theorem State.setStn_variant : (s.setStn k x).variant = s.variant := rfl
@[simp] theorem State.setStn_stepping : (s.setStn k x).stepping = s.stepping := rfl
@[simp] theorem State.setStn_lifecycle : (s.setStn k x).lifecycle = s.lifecycle := rfl
@[simp] theorem State.setStn_svnFloor : (s.setStn k x).svnFloor = s.svnFloor := rfl
@[simp] theorem State.setStn_fwKeyHash : (s.setStn k x).fwKeyHash = s.fwKeyHash := rfl
@[simp] theorem State.setStn_identityOk : (s.setStn k x).identityOk = s.identityOk := rfl
@[simp] theorem State.setStn_now : (s.setStn k x).now = s.now := rfl
@[simp] theorem State.setStn_dawn : (s.setStn k x).dawn = s.dawn := rfl
@[simp] theorem State.setStn_deviceHalted : (s.setStn k x).deviceHalted = s.deviceHalted := rfl
@[simp] theorem State.setStn_injectStop : (s.setStn k x).injectStop = s.injectStop := rfl
@[simp] theorem State.setStn_quiesceStep : (s.setStn k x).quiesceStep = s.quiesceStep := rfl
@[simp] theorem State.setStn_pins : (s.setStn k x).pins = s.pins := rfl
@[simp] theorem State.setStn_ctxs : (s.setStn k x).ctxs = s.ctxs := rfl
@[simp] theorem State.setStn_templates : (s.setStn k x).templates = s.templates := rfl
@[simp] theorem State.setStn_images : (s.setStn k x).images = s.images := rfl
@[simp] theorem State.setStn_stored : (s.setStn k x).stored = s.stored := rfl
@[simp] theorem State.setStn_gateTable : (s.setStn k x).gateTable = s.gateTable := rfl
@[simp] theorem State.setStn_pes : (s.setStn k x).pes = s.pes := rfl
@[simp] theorem State.setStn_clusters : (s.setStn k x).clusters = s.clusters := rfl
@[simp] theorem State.setStn_phs : (s.setStn k x).phs = s.phs := rfl
@[simp] theorem State.setStn_bus : (s.setStn k x).bus = s.bus := rfl
@[simp] theorem State.setStn_phQueue : (s.setStn k x).phQueue = s.phQueue := rfl
@[simp] theorem State.setStn_phNow : (s.setStn k x).phNow = s.phNow := rfl
@[simp] theorem State.setStn_phPast : (s.setStn k x).phPast = s.phPast := rfl
@[simp] theorem State.setStn_exportAt : (s.setStn k x).exportAt = s.exportAt := rfl
@[simp] theorem State.setStn_inputs : (s.setStn k x).inputs = s.inputs := rfl
@[simp] theorem State.setStn_held : (s.setStn k x).held = s.held := rfl
@[simp] theorem State.setStn_ports : (s.setStn k x).ports = s.ports := rfl
@[simp] theorem State.setStn_rings : (s.setStn k x).rings = s.rings := rfl
@[simp] theorem State.setStn_chans : (s.setStn k x).chans = s.chans := rfl
@[simp] theorem State.setStn_schedU : (s.setStn k x).schedU = s.schedU := rfl
@[simp] theorem State.setStn_schedAt : (s.setStn k x).schedAt = s.schedAt := rfl
@[simp] theorem State.setStn_activeCauses : (s.setStn k x).activeCauses = s.activeCauses := rfl
@[simp] theorem State.setStn_offPending : (s.setStn k x).offPending = s.offPending := rfl
@[simp] theorem State.setStn_abortCount : (s.setStn k x).abortCount = s.abortCount := rfl
@[simp] theorem State.setStn_heartbeatAt : (s.setStn k x).heartbeatAt = s.heartbeatAt := rfl
@[simp] theorem State.setStn_net : (s.setStn k x).net = s.net := rfl
@[simp] theorem State.setStn_epochAt : (s.setStn k x).epochAt = s.epochAt := rfl
@[simp] theorem State.setStn_spans : (s.setStn k x).spans = s.spans := rfl
@[simp] theorem State.setStn_spanTxns : (s.setStn k x).spanTxns = s.spanTxns := rfl
@[simp] theorem State.setStn_mem : (s.setStn k x).mem = s.mem := rfl
@[simp] theorem State.setStn_presence : (s.setStn k x).presence = s.presence := rfl
@[simp] theorem State.setStn_bad : (s.setStn k x).bad = s.bad := rfl
@[simp] theorem State.setStn_defers : (s.setStn k x).defers = s.defers := rfl
@[simp] theorem State.setStn_sweep : (s.setStn k x).sweep = s.sweep := rfl
@[simp] theorem State.setStn_locks : (s.setStn k x).locks = s.locks := rfl
@[simp] theorem State.setStn_flt : (s.setStn k x).flt = s.flt := rfl
@[simp] theorem State.setStn_wstart : (s.setStn k x).wstart = s.wstart := rfl
@[simp] theorem State.setStn_causeCnt : (s.setStn k x).causeCnt = s.causeCnt := rfl
@[simp] theorem State.setStn_causePersist : (s.setStn k x).causePersist = s.causePersist := rfl
@[simp] theorem State.setStn_census : (s.setStn k x).census = s.census := rfl
@[simp] theorem State.setStn_censusSeen : (s.setStn k x).censusSeen = s.censusSeen := rfl
@[simp] theorem State.setStn_lifetime : (s.setStn k x).lifetime = s.lifetime := rfl
@[simp] theorem State.setStn_retQueue : (s.setStn k x).retQueue = s.retQueue := rfl
@[simp] theorem State.setStn_running : (s.setStn k x).running = s.running := rfl
@[simp] theorem State.setStn_copied : (s.setStn k x).copied = s.copied := rfl
@[simp] theorem State.setStn_committed : (s.setStn k x).committed = s.committed := rfl
@[simp] theorem State.setStn_spareRows : (s.setStn k x).spareRows = s.spareRows := rfl
@[simp] theorem State.setStn_mapRecs : (s.setStn k x).mapRecs = s.mapRecs := rfl
@[simp] theorem State.setStn_queues : (s.setStn k x).queues = s.queues := rfl
@[simp] theorem State.setStn_sessions : (s.setStn k x).sessions = s.sessions := rfl
@[simp] theorem State.setStn_nextCmd : (s.setStn k x).nextCmd = s.nextCmd := rfl
@[simp] theorem State.setStn_msixMask : (s.setStn k x).msixMask = s.msixMask := rfl
@[simp] theorem State.setStn_fnState : (s.setStn k x).fnState = s.fnState := rfl
@[simp] theorem State.setStn_grants : (s.setStn k x).grants = s.grants := rfl
@[simp] theorem State.setStn_linkState : (s.setStn k x).linkState = s.linkState := rfl
@[simp] theorem State.setStn_crsWindow : (s.setStn k x).crsWindow = s.crsWindow := rfl
@[simp] theorem State.setStn_flrFns : (s.setStn k x).flrFns = s.flrFns := rfl
@[simp] theorem State.setStn_threads : (s.setStn k x).threads = s.threads := rfl
@[simp] theorem State.setStn_mats : (s.setStn k x).mats = s.mats := rfl
@[simp] theorem State.setStn_log : (s.setStn k x).log = s.log := rfl
@[simp] theorem State.setStn_doms : (s.setStn k x).doms = s.doms := rfl
@[simp] theorem State.setStn_ledger : (s.setStn k x).ledger = s.ledger := rfl
@[simp] theorem State.setStn_admitted : (s.setStn k x).admitted = s.admitted := rfl
@[simp] theorem State.setStn_opPhase : (s.setStn k x).opPhase = s.opPhase := rfl
@[simp] theorem State.setStn_ctrs : (s.setStn k x).ctrs = s.ctrs := rfl
@[simp] theorem State.setStn_snapStep : (s.setStn k x).snapStep = s.snapStep := rfl
@[simp] theorem State.setStn_snapAt : (s.setStn k x).snapAt = s.snapAt := rfl
@[simp] theorem State.setStn_snapshot : (s.setStn k x).snapshot = s.snapshot := rfl
@[simp] theorem State.setStn_latched : (s.setStn k x).latched = s.latched := rfl
@[simp] theorem State.setStn_pwrE : (s.setStn k x).pwrE = s.pwrE := rfl
@[simp] theorem State.setStn_pwrSig : (s.setStn k x).pwrSig = s.pwrSig := rfl
@[simp] theorem State.setStn_cfgRec : (s.setStn k x).cfgRec = s.cfgRec := rfl
@[simp] theorem State.setStn_cfgPending : (s.setStn k x).cfgPending = s.cfgPending := rfl
@[simp] theorem State.setStn_idxL : (s.setStn k x).idxL = s.idxL := rfl
@[simp] theorem State.setStn_idxRseq : (s.setStn k x).idxRseq = s.idxRseq := rfl
@[simp] theorem State.setStn_idxLow : (s.setStn k x).idxLow = s.idxLow := rfl
@[simp] theorem State.setStn_mlog : (s.setStn k x).mlog = s.mlog := rfl
@[simp] theorem State.setStn_mAcc : (s.setStn k x).mAcc = s.mAcc := rfl
@[simp] theorem State.setStn_fwInfo : (s.setStn k x).fwInfo = s.fwInfo := rfl
@[simp] theorem State.setStn_quoteCmd : (s.setStn k x).quoteCmd = s.quoteCmd := rfl
@[simp] theorem State.setStn_hashReq : (s.setStn k x).hashReq = s.hashReq := rfl
@[simp] theorem State.setStn_recovery : (s.setStn k x).recovery = s.recovery := rfl
@[simp] theorem State.setStn_dbgData : (s.setStn k x).dbgData = s.dbgData := rfl
@[simp] theorem State.setStn_dbgBusy : (s.setStn k x).dbgBusy = s.dbgBusy := rfl
@[simp] theorem State.setStn_authBuf : (s.setStn k x).authBuf = s.authBuf := rfl
@[simp] theorem State.setStn_authBusy : (s.setStn k x).authBusy = s.authBusy := rfl
@[simp] theorem State.setStn_challengeNo : (s.setStn k x).challengeNo = s.challengeNo := rfl
@[simp] theorem State.setStn_tap : (s.setStn k x).tap = s.tap := rfl
@[simp] theorem State.setStn_free : (s.setStn k x).free = s.free := rfl
@[simp] theorem State.setStn_out : (s.setStn k x).out = s.out := rfl
@[simp] theorem State.setStn_pending : (s.setStn k x).pending = s.pending := rfl
end

section
variable (s : State) (k : Nat) (h : Station → Station)
@[simp] theorem State.updStn_regs : (s.updStn k h).regs = s.regs := rfl
@[simp] theorem State.updStn_shadow : (s.updStn k h).shadow = s.shadow := rfl
@[simp] theorem State.updStn_locked : (s.updStn k h).locked = s.locked := rfl
@[simp] theorem State.updStn_variant : (s.updStn k h).variant = s.variant := rfl
@[simp] theorem State.updStn_stepping : (s.updStn k h).stepping = s.stepping := rfl
@[simp] theorem State.updStn_lifecycle : (s.updStn k h).lifecycle = s.lifecycle := rfl
@[simp] theorem State.updStn_svnFloor : (s.updStn k h).svnFloor = s.svnFloor := rfl
@[simp] theorem State.updStn_fwKeyHash : (s.updStn k h).fwKeyHash = s.fwKeyHash := rfl
@[simp] theorem State.updStn_identityOk : (s.updStn k h).identityOk = s.identityOk := rfl
@[simp] theorem State.updStn_now : (s.updStn k h).now = s.now := rfl
@[simp] theorem State.updStn_dawn : (s.updStn k h).dawn = s.dawn := rfl
@[simp] theorem State.updStn_deviceHalted : (s.updStn k h).deviceHalted = s.deviceHalted := rfl
@[simp] theorem State.updStn_injectStop : (s.updStn k h).injectStop = s.injectStop := rfl
@[simp] theorem State.updStn_quiesceStep : (s.updStn k h).quiesceStep = s.quiesceStep := rfl
@[simp] theorem State.updStn_pins : (s.updStn k h).pins = s.pins := rfl
@[simp] theorem State.updStn_ctxs : (s.updStn k h).ctxs = s.ctxs := rfl
@[simp] theorem State.updStn_templates : (s.updStn k h).templates = s.templates := rfl
@[simp] theorem State.updStn_images : (s.updStn k h).images = s.images := rfl
@[simp] theorem State.updStn_stored : (s.updStn k h).stored = s.stored := rfl
@[simp] theorem State.updStn_gateTable : (s.updStn k h).gateTable = s.gateTable := rfl
@[simp] theorem State.updStn_pes : (s.updStn k h).pes = s.pes := rfl
@[simp] theorem State.updStn_clusters : (s.updStn k h).clusters = s.clusters := rfl
@[simp] theorem State.updStn_phs : (s.updStn k h).phs = s.phs := rfl
@[simp] theorem State.updStn_bus : (s.updStn k h).bus = s.bus := rfl
@[simp] theorem State.updStn_phQueue : (s.updStn k h).phQueue = s.phQueue := rfl
@[simp] theorem State.updStn_phNow : (s.updStn k h).phNow = s.phNow := rfl
@[simp] theorem State.updStn_phPast : (s.updStn k h).phPast = s.phPast := rfl
@[simp] theorem State.updStn_exportAt : (s.updStn k h).exportAt = s.exportAt := rfl
@[simp] theorem State.updStn_inputs : (s.updStn k h).inputs = s.inputs := rfl
@[simp] theorem State.updStn_held : (s.updStn k h).held = s.held := rfl
@[simp] theorem State.updStn_ports : (s.updStn k h).ports = s.ports := rfl
@[simp] theorem State.updStn_rings : (s.updStn k h).rings = s.rings := rfl
@[simp] theorem State.updStn_chans : (s.updStn k h).chans = s.chans := rfl
@[simp] theorem State.updStn_schedU : (s.updStn k h).schedU = s.schedU := rfl
@[simp] theorem State.updStn_schedAt : (s.updStn k h).schedAt = s.schedAt := rfl
@[simp] theorem State.updStn_activeCauses : (s.updStn k h).activeCauses = s.activeCauses := rfl
@[simp] theorem State.updStn_offPending : (s.updStn k h).offPending = s.offPending := rfl
@[simp] theorem State.updStn_abortCount : (s.updStn k h).abortCount = s.abortCount := rfl
@[simp] theorem State.updStn_heartbeatAt : (s.updStn k h).heartbeatAt = s.heartbeatAt := rfl
@[simp] theorem State.updStn_net : (s.updStn k h).net = s.net := rfl
@[simp] theorem State.updStn_epochAt : (s.updStn k h).epochAt = s.epochAt := rfl
@[simp] theorem State.updStn_spans : (s.updStn k h).spans = s.spans := rfl
@[simp] theorem State.updStn_spanTxns : (s.updStn k h).spanTxns = s.spanTxns := rfl
@[simp] theorem State.updStn_mem : (s.updStn k h).mem = s.mem := rfl
@[simp] theorem State.updStn_presence : (s.updStn k h).presence = s.presence := rfl
@[simp] theorem State.updStn_bad : (s.updStn k h).bad = s.bad := rfl
@[simp] theorem State.updStn_defers : (s.updStn k h).defers = s.defers := rfl
@[simp] theorem State.updStn_sweep : (s.updStn k h).sweep = s.sweep := rfl
@[simp] theorem State.updStn_locks : (s.updStn k h).locks = s.locks := rfl
@[simp] theorem State.updStn_flt : (s.updStn k h).flt = s.flt := rfl
@[simp] theorem State.updStn_wstart : (s.updStn k h).wstart = s.wstart := rfl
@[simp] theorem State.updStn_causeCnt : (s.updStn k h).causeCnt = s.causeCnt := rfl
@[simp] theorem State.updStn_causePersist : (s.updStn k h).causePersist = s.causePersist := rfl
@[simp] theorem State.updStn_census : (s.updStn k h).census = s.census := rfl
@[simp] theorem State.updStn_censusSeen : (s.updStn k h).censusSeen = s.censusSeen := rfl
@[simp] theorem State.updStn_lifetime : (s.updStn k h).lifetime = s.lifetime := rfl
@[simp] theorem State.updStn_retQueue : (s.updStn k h).retQueue = s.retQueue := rfl
@[simp] theorem State.updStn_running : (s.updStn k h).running = s.running := rfl
@[simp] theorem State.updStn_copied : (s.updStn k h).copied = s.copied := rfl
@[simp] theorem State.updStn_committed : (s.updStn k h).committed = s.committed := rfl
@[simp] theorem State.updStn_spareRows : (s.updStn k h).spareRows = s.spareRows := rfl
@[simp] theorem State.updStn_mapRecs : (s.updStn k h).mapRecs = s.mapRecs := rfl
@[simp] theorem State.updStn_queues : (s.updStn k h).queues = s.queues := rfl
@[simp] theorem State.updStn_sessions : (s.updStn k h).sessions = s.sessions := rfl
@[simp] theorem State.updStn_nextCmd : (s.updStn k h).nextCmd = s.nextCmd := rfl
@[simp] theorem State.updStn_msixMask : (s.updStn k h).msixMask = s.msixMask := rfl
@[simp] theorem State.updStn_fnState : (s.updStn k h).fnState = s.fnState := rfl
@[simp] theorem State.updStn_grants : (s.updStn k h).grants = s.grants := rfl
@[simp] theorem State.updStn_linkState : (s.updStn k h).linkState = s.linkState := rfl
@[simp] theorem State.updStn_crsWindow : (s.updStn k h).crsWindow = s.crsWindow := rfl
@[simp] theorem State.updStn_flrFns : (s.updStn k h).flrFns = s.flrFns := rfl
@[simp] theorem State.updStn_threads : (s.updStn k h).threads = s.threads := rfl
@[simp] theorem State.updStn_mats : (s.updStn k h).mats = s.mats := rfl
@[simp] theorem State.updStn_log : (s.updStn k h).log = s.log := rfl
@[simp] theorem State.updStn_doms : (s.updStn k h).doms = s.doms := rfl
@[simp] theorem State.updStn_ledger : (s.updStn k h).ledger = s.ledger := rfl
@[simp] theorem State.updStn_admitted : (s.updStn k h).admitted = s.admitted := rfl
@[simp] theorem State.updStn_opPhase : (s.updStn k h).opPhase = s.opPhase := rfl
@[simp] theorem State.updStn_ctrs : (s.updStn k h).ctrs = s.ctrs := rfl
@[simp] theorem State.updStn_snapStep : (s.updStn k h).snapStep = s.snapStep := rfl
@[simp] theorem State.updStn_snapAt : (s.updStn k h).snapAt = s.snapAt := rfl
@[simp] theorem State.updStn_snapshot : (s.updStn k h).snapshot = s.snapshot := rfl
@[simp] theorem State.updStn_latched : (s.updStn k h).latched = s.latched := rfl
@[simp] theorem State.updStn_pwrE : (s.updStn k h).pwrE = s.pwrE := rfl
@[simp] theorem State.updStn_pwrSig : (s.updStn k h).pwrSig = s.pwrSig := rfl
@[simp] theorem State.updStn_cfgRec : (s.updStn k h).cfgRec = s.cfgRec := rfl
@[simp] theorem State.updStn_cfgPending : (s.updStn k h).cfgPending = s.cfgPending := rfl
@[simp] theorem State.updStn_idxL : (s.updStn k h).idxL = s.idxL := rfl
@[simp] theorem State.updStn_idxRseq : (s.updStn k h).idxRseq = s.idxRseq := rfl
@[simp] theorem State.updStn_idxLow : (s.updStn k h).idxLow = s.idxLow := rfl
@[simp] theorem State.updStn_mlog : (s.updStn k h).mlog = s.mlog := rfl
@[simp] theorem State.updStn_mAcc : (s.updStn k h).mAcc = s.mAcc := rfl
@[simp] theorem State.updStn_fwInfo : (s.updStn k h).fwInfo = s.fwInfo := rfl
@[simp] theorem State.updStn_quoteCmd : (s.updStn k h).quoteCmd = s.quoteCmd := rfl
@[simp] theorem State.updStn_hashReq : (s.updStn k h).hashReq = s.hashReq := rfl
@[simp] theorem State.updStn_recovery : (s.updStn k h).recovery = s.recovery := rfl
@[simp] theorem State.updStn_dbgData : (s.updStn k h).dbgData = s.dbgData := rfl
@[simp] theorem State.updStn_dbgBusy : (s.updStn k h).dbgBusy = s.dbgBusy := rfl
@[simp] theorem State.updStn_authBuf : (s.updStn k h).authBuf = s.authBuf := rfl
@[simp] theorem State.updStn_authBusy : (s.updStn k h).authBusy = s.authBusy := rfl
@[simp] theorem State.updStn_challengeNo : (s.updStn k h).challengeNo = s.challengeNo := rfl
@[simp] theorem State.updStn_tap : (s.updStn k h).tap = s.tap := rfl
@[simp] theorem State.updStn_free : (s.updStn k h).free = s.free := rfl
@[simp] theorem State.updStn_out : (s.updStn k h).out = s.out := rfl
@[simp] theorem State.updStn_pending : (s.updStn k h).pending = s.pending := rfl
end

section
variable (s : State) (k : Nat) (x : Span)
@[simp] theorem State.setSpan_regs : (s.setSpan k x).regs = s.regs := rfl
@[simp] theorem State.setSpan_shadow : (s.setSpan k x).shadow = s.shadow := rfl
@[simp] theorem State.setSpan_locked : (s.setSpan k x).locked = s.locked := rfl
@[simp] theorem State.setSpan_variant : (s.setSpan k x).variant = s.variant := rfl
@[simp] theorem State.setSpan_stepping : (s.setSpan k x).stepping = s.stepping := rfl
@[simp] theorem State.setSpan_lifecycle : (s.setSpan k x).lifecycle = s.lifecycle := rfl
@[simp] theorem State.setSpan_svnFloor : (s.setSpan k x).svnFloor = s.svnFloor := rfl
@[simp] theorem State.setSpan_fwKeyHash : (s.setSpan k x).fwKeyHash = s.fwKeyHash := rfl
@[simp] theorem State.setSpan_identityOk : (s.setSpan k x).identityOk = s.identityOk := rfl
@[simp] theorem State.setSpan_now : (s.setSpan k x).now = s.now := rfl
@[simp] theorem State.setSpan_dawn : (s.setSpan k x).dawn = s.dawn := rfl
@[simp] theorem State.setSpan_deviceHalted : (s.setSpan k x).deviceHalted = s.deviceHalted := rfl
@[simp] theorem State.setSpan_injectStop : (s.setSpan k x).injectStop = s.injectStop := rfl
@[simp] theorem State.setSpan_quiesceStep : (s.setSpan k x).quiesceStep = s.quiesceStep := rfl
@[simp] theorem State.setSpan_pins : (s.setSpan k x).pins = s.pins := rfl
@[simp] theorem State.setSpan_ctxs : (s.setSpan k x).ctxs = s.ctxs := rfl
@[simp] theorem State.setSpan_templates : (s.setSpan k x).templates = s.templates := rfl
@[simp] theorem State.setSpan_images : (s.setSpan k x).images = s.images := rfl
@[simp] theorem State.setSpan_stored : (s.setSpan k x).stored = s.stored := rfl
@[simp] theorem State.setSpan_gateTable : (s.setSpan k x).gateTable = s.gateTable := rfl
@[simp] theorem State.setSpan_pes : (s.setSpan k x).pes = s.pes := rfl
@[simp] theorem State.setSpan_clusters : (s.setSpan k x).clusters = s.clusters := rfl
@[simp] theorem State.setSpan_phs : (s.setSpan k x).phs = s.phs := rfl
@[simp] theorem State.setSpan_bus : (s.setSpan k x).bus = s.bus := rfl
@[simp] theorem State.setSpan_phQueue : (s.setSpan k x).phQueue = s.phQueue := rfl
@[simp] theorem State.setSpan_phNow : (s.setSpan k x).phNow = s.phNow := rfl
@[simp] theorem State.setSpan_phPast : (s.setSpan k x).phPast = s.phPast := rfl
@[simp] theorem State.setSpan_exportAt : (s.setSpan k x).exportAt = s.exportAt := rfl
@[simp] theorem State.setSpan_inputs : (s.setSpan k x).inputs = s.inputs := rfl
@[simp] theorem State.setSpan_held : (s.setSpan k x).held = s.held := rfl
@[simp] theorem State.setSpan_ports : (s.setSpan k x).ports = s.ports := rfl
@[simp] theorem State.setSpan_rings : (s.setSpan k x).rings = s.rings := rfl
@[simp] theorem State.setSpan_chans : (s.setSpan k x).chans = s.chans := rfl
@[simp] theorem State.setSpan_schedU : (s.setSpan k x).schedU = s.schedU := rfl
@[simp] theorem State.setSpan_schedAt : (s.setSpan k x).schedAt = s.schedAt := rfl
@[simp] theorem State.setSpan_activeCauses : (s.setSpan k x).activeCauses = s.activeCauses := rfl
@[simp] theorem State.setSpan_offPending : (s.setSpan k x).offPending = s.offPending := rfl
@[simp] theorem State.setSpan_abortCount : (s.setSpan k x).abortCount = s.abortCount := rfl
@[simp] theorem State.setSpan_heartbeatAt : (s.setSpan k x).heartbeatAt = s.heartbeatAt := rfl
@[simp] theorem State.setSpan_net : (s.setSpan k x).net = s.net := rfl
@[simp] theorem State.setSpan_stations : (s.setSpan k x).stations = s.stations := rfl
@[simp] theorem State.setSpan_epochAt : (s.setSpan k x).epochAt = s.epochAt := rfl
@[simp] theorem State.setSpan_spanTxns : (s.setSpan k x).spanTxns = s.spanTxns := rfl
@[simp] theorem State.setSpan_mem : (s.setSpan k x).mem = s.mem := rfl
@[simp] theorem State.setSpan_presence : (s.setSpan k x).presence = s.presence := rfl
@[simp] theorem State.setSpan_bad : (s.setSpan k x).bad = s.bad := rfl
@[simp] theorem State.setSpan_defers : (s.setSpan k x).defers = s.defers := rfl
@[simp] theorem State.setSpan_sweep : (s.setSpan k x).sweep = s.sweep := rfl
@[simp] theorem State.setSpan_locks : (s.setSpan k x).locks = s.locks := rfl
@[simp] theorem State.setSpan_flt : (s.setSpan k x).flt = s.flt := rfl
@[simp] theorem State.setSpan_wstart : (s.setSpan k x).wstart = s.wstart := rfl
@[simp] theorem State.setSpan_causeCnt : (s.setSpan k x).causeCnt = s.causeCnt := rfl
@[simp] theorem State.setSpan_causePersist : (s.setSpan k x).causePersist = s.causePersist := rfl
@[simp] theorem State.setSpan_census : (s.setSpan k x).census = s.census := rfl
@[simp] theorem State.setSpan_censusSeen : (s.setSpan k x).censusSeen = s.censusSeen := rfl
@[simp] theorem State.setSpan_lifetime : (s.setSpan k x).lifetime = s.lifetime := rfl
@[simp] theorem State.setSpan_retQueue : (s.setSpan k x).retQueue = s.retQueue := rfl
@[simp] theorem State.setSpan_running : (s.setSpan k x).running = s.running := rfl
@[simp] theorem State.setSpan_copied : (s.setSpan k x).copied = s.copied := rfl
@[simp] theorem State.setSpan_committed : (s.setSpan k x).committed = s.committed := rfl
@[simp] theorem State.setSpan_spareRows : (s.setSpan k x).spareRows = s.spareRows := rfl
@[simp] theorem State.setSpan_mapRecs : (s.setSpan k x).mapRecs = s.mapRecs := rfl
@[simp] theorem State.setSpan_queues : (s.setSpan k x).queues = s.queues := rfl
@[simp] theorem State.setSpan_sessions : (s.setSpan k x).sessions = s.sessions := rfl
@[simp] theorem State.setSpan_nextCmd : (s.setSpan k x).nextCmd = s.nextCmd := rfl
@[simp] theorem State.setSpan_msixMask : (s.setSpan k x).msixMask = s.msixMask := rfl
@[simp] theorem State.setSpan_fnState : (s.setSpan k x).fnState = s.fnState := rfl
@[simp] theorem State.setSpan_grants : (s.setSpan k x).grants = s.grants := rfl
@[simp] theorem State.setSpan_linkState : (s.setSpan k x).linkState = s.linkState := rfl
@[simp] theorem State.setSpan_crsWindow : (s.setSpan k x).crsWindow = s.crsWindow := rfl
@[simp] theorem State.setSpan_flrFns : (s.setSpan k x).flrFns = s.flrFns := rfl
@[simp] theorem State.setSpan_threads : (s.setSpan k x).threads = s.threads := rfl
@[simp] theorem State.setSpan_mats : (s.setSpan k x).mats = s.mats := rfl
@[simp] theorem State.setSpan_log : (s.setSpan k x).log = s.log := rfl
@[simp] theorem State.setSpan_doms : (s.setSpan k x).doms = s.doms := rfl
@[simp] theorem State.setSpan_ledger : (s.setSpan k x).ledger = s.ledger := rfl
@[simp] theorem State.setSpan_admitted : (s.setSpan k x).admitted = s.admitted := rfl
@[simp] theorem State.setSpan_opPhase : (s.setSpan k x).opPhase = s.opPhase := rfl
@[simp] theorem State.setSpan_ctrs : (s.setSpan k x).ctrs = s.ctrs := rfl
@[simp] theorem State.setSpan_snapStep : (s.setSpan k x).snapStep = s.snapStep := rfl
@[simp] theorem State.setSpan_snapAt : (s.setSpan k x).snapAt = s.snapAt := rfl
@[simp] theorem State.setSpan_snapshot : (s.setSpan k x).snapshot = s.snapshot := rfl
@[simp] theorem State.setSpan_latched : (s.setSpan k x).latched = s.latched := rfl
@[simp] theorem State.setSpan_pwrE : (s.setSpan k x).pwrE = s.pwrE := rfl
@[simp] theorem State.setSpan_pwrSig : (s.setSpan k x).pwrSig = s.pwrSig := rfl
@[simp] theorem State.setSpan_cfgRec : (s.setSpan k x).cfgRec = s.cfgRec := rfl
@[simp] theorem State.setSpan_cfgPending : (s.setSpan k x).cfgPending = s.cfgPending := rfl
@[simp] theorem State.setSpan_idxL : (s.setSpan k x).idxL = s.idxL := rfl
@[simp] theorem State.setSpan_idxRseq : (s.setSpan k x).idxRseq = s.idxRseq := rfl
@[simp] theorem State.setSpan_idxLow : (s.setSpan k x).idxLow = s.idxLow := rfl
@[simp] theorem State.setSpan_mlog : (s.setSpan k x).mlog = s.mlog := rfl
@[simp] theorem State.setSpan_mAcc : (s.setSpan k x).mAcc = s.mAcc := rfl
@[simp] theorem State.setSpan_fwInfo : (s.setSpan k x).fwInfo = s.fwInfo := rfl
@[simp] theorem State.setSpan_quoteCmd : (s.setSpan k x).quoteCmd = s.quoteCmd := rfl
@[simp] theorem State.setSpan_hashReq : (s.setSpan k x).hashReq = s.hashReq := rfl
@[simp] theorem State.setSpan_recovery : (s.setSpan k x).recovery = s.recovery := rfl
@[simp] theorem State.setSpan_dbgData : (s.setSpan k x).dbgData = s.dbgData := rfl
@[simp] theorem State.setSpan_dbgBusy : (s.setSpan k x).dbgBusy = s.dbgBusy := rfl
@[simp] theorem State.setSpan_authBuf : (s.setSpan k x).authBuf = s.authBuf := rfl
@[simp] theorem State.setSpan_authBusy : (s.setSpan k x).authBusy = s.authBusy := rfl
@[simp] theorem State.setSpan_challengeNo : (s.setSpan k x).challengeNo = s.challengeNo := rfl
@[simp] theorem State.setSpan_tap : (s.setSpan k x).tap = s.tap := rfl
@[simp] theorem State.setSpan_free : (s.setSpan k x).free = s.free := rfl
@[simp] theorem State.setSpan_out : (s.setSpan k x).out = s.out := rfl
@[simp] theorem State.setSpan_pending : (s.setSpan k x).pending = s.pending := rfl
end

section
variable (s : State) (k : Nat) (h : Span → Span)
@[simp] theorem State.updSpan_regs : (s.updSpan k h).regs = s.regs := rfl
@[simp] theorem State.updSpan_shadow : (s.updSpan k h).shadow = s.shadow := rfl
@[simp] theorem State.updSpan_locked : (s.updSpan k h).locked = s.locked := rfl
@[simp] theorem State.updSpan_variant : (s.updSpan k h).variant = s.variant := rfl
@[simp] theorem State.updSpan_stepping : (s.updSpan k h).stepping = s.stepping := rfl
@[simp] theorem State.updSpan_lifecycle : (s.updSpan k h).lifecycle = s.lifecycle := rfl
@[simp] theorem State.updSpan_svnFloor : (s.updSpan k h).svnFloor = s.svnFloor := rfl
@[simp] theorem State.updSpan_fwKeyHash : (s.updSpan k h).fwKeyHash = s.fwKeyHash := rfl
@[simp] theorem State.updSpan_identityOk : (s.updSpan k h).identityOk = s.identityOk := rfl
@[simp] theorem State.updSpan_now : (s.updSpan k h).now = s.now := rfl
@[simp] theorem State.updSpan_dawn : (s.updSpan k h).dawn = s.dawn := rfl
@[simp] theorem State.updSpan_deviceHalted : (s.updSpan k h).deviceHalted = s.deviceHalted := rfl
@[simp] theorem State.updSpan_injectStop : (s.updSpan k h).injectStop = s.injectStop := rfl
@[simp] theorem State.updSpan_quiesceStep : (s.updSpan k h).quiesceStep = s.quiesceStep := rfl
@[simp] theorem State.updSpan_pins : (s.updSpan k h).pins = s.pins := rfl
@[simp] theorem State.updSpan_ctxs : (s.updSpan k h).ctxs = s.ctxs := rfl
@[simp] theorem State.updSpan_templates : (s.updSpan k h).templates = s.templates := rfl
@[simp] theorem State.updSpan_images : (s.updSpan k h).images = s.images := rfl
@[simp] theorem State.updSpan_stored : (s.updSpan k h).stored = s.stored := rfl
@[simp] theorem State.updSpan_gateTable : (s.updSpan k h).gateTable = s.gateTable := rfl
@[simp] theorem State.updSpan_pes : (s.updSpan k h).pes = s.pes := rfl
@[simp] theorem State.updSpan_clusters : (s.updSpan k h).clusters = s.clusters := rfl
@[simp] theorem State.updSpan_phs : (s.updSpan k h).phs = s.phs := rfl
@[simp] theorem State.updSpan_bus : (s.updSpan k h).bus = s.bus := rfl
@[simp] theorem State.updSpan_phQueue : (s.updSpan k h).phQueue = s.phQueue := rfl
@[simp] theorem State.updSpan_phNow : (s.updSpan k h).phNow = s.phNow := rfl
@[simp] theorem State.updSpan_phPast : (s.updSpan k h).phPast = s.phPast := rfl
@[simp] theorem State.updSpan_exportAt : (s.updSpan k h).exportAt = s.exportAt := rfl
@[simp] theorem State.updSpan_inputs : (s.updSpan k h).inputs = s.inputs := rfl
@[simp] theorem State.updSpan_held : (s.updSpan k h).held = s.held := rfl
@[simp] theorem State.updSpan_ports : (s.updSpan k h).ports = s.ports := rfl
@[simp] theorem State.updSpan_rings : (s.updSpan k h).rings = s.rings := rfl
@[simp] theorem State.updSpan_chans : (s.updSpan k h).chans = s.chans := rfl
@[simp] theorem State.updSpan_schedU : (s.updSpan k h).schedU = s.schedU := rfl
@[simp] theorem State.updSpan_schedAt : (s.updSpan k h).schedAt = s.schedAt := rfl
@[simp] theorem State.updSpan_activeCauses : (s.updSpan k h).activeCauses = s.activeCauses := rfl
@[simp] theorem State.updSpan_offPending : (s.updSpan k h).offPending = s.offPending := rfl
@[simp] theorem State.updSpan_abortCount : (s.updSpan k h).abortCount = s.abortCount := rfl
@[simp] theorem State.updSpan_heartbeatAt : (s.updSpan k h).heartbeatAt = s.heartbeatAt := rfl
@[simp] theorem State.updSpan_net : (s.updSpan k h).net = s.net := rfl
@[simp] theorem State.updSpan_stations : (s.updSpan k h).stations = s.stations := rfl
@[simp] theorem State.updSpan_epochAt : (s.updSpan k h).epochAt = s.epochAt := rfl
@[simp] theorem State.updSpan_spanTxns : (s.updSpan k h).spanTxns = s.spanTxns := rfl
@[simp] theorem State.updSpan_mem : (s.updSpan k h).mem = s.mem := rfl
@[simp] theorem State.updSpan_presence : (s.updSpan k h).presence = s.presence := rfl
@[simp] theorem State.updSpan_bad : (s.updSpan k h).bad = s.bad := rfl
@[simp] theorem State.updSpan_defers : (s.updSpan k h).defers = s.defers := rfl
@[simp] theorem State.updSpan_sweep : (s.updSpan k h).sweep = s.sweep := rfl
@[simp] theorem State.updSpan_locks : (s.updSpan k h).locks = s.locks := rfl
@[simp] theorem State.updSpan_flt : (s.updSpan k h).flt = s.flt := rfl
@[simp] theorem State.updSpan_wstart : (s.updSpan k h).wstart = s.wstart := rfl
@[simp] theorem State.updSpan_causeCnt : (s.updSpan k h).causeCnt = s.causeCnt := rfl
@[simp] theorem State.updSpan_causePersist : (s.updSpan k h).causePersist = s.causePersist := rfl
@[simp] theorem State.updSpan_census : (s.updSpan k h).census = s.census := rfl
@[simp] theorem State.updSpan_censusSeen : (s.updSpan k h).censusSeen = s.censusSeen := rfl
@[simp] theorem State.updSpan_lifetime : (s.updSpan k h).lifetime = s.lifetime := rfl
@[simp] theorem State.updSpan_retQueue : (s.updSpan k h).retQueue = s.retQueue := rfl
@[simp] theorem State.updSpan_running : (s.updSpan k h).running = s.running := rfl
@[simp] theorem State.updSpan_copied : (s.updSpan k h).copied = s.copied := rfl
@[simp] theorem State.updSpan_committed : (s.updSpan k h).committed = s.committed := rfl
@[simp] theorem State.updSpan_spareRows : (s.updSpan k h).spareRows = s.spareRows := rfl
@[simp] theorem State.updSpan_mapRecs : (s.updSpan k h).mapRecs = s.mapRecs := rfl
@[simp] theorem State.updSpan_queues : (s.updSpan k h).queues = s.queues := rfl
@[simp] theorem State.updSpan_sessions : (s.updSpan k h).sessions = s.sessions := rfl
@[simp] theorem State.updSpan_nextCmd : (s.updSpan k h).nextCmd = s.nextCmd := rfl
@[simp] theorem State.updSpan_msixMask : (s.updSpan k h).msixMask = s.msixMask := rfl
@[simp] theorem State.updSpan_fnState : (s.updSpan k h).fnState = s.fnState := rfl
@[simp] theorem State.updSpan_grants : (s.updSpan k h).grants = s.grants := rfl
@[simp] theorem State.updSpan_linkState : (s.updSpan k h).linkState = s.linkState := rfl
@[simp] theorem State.updSpan_crsWindow : (s.updSpan k h).crsWindow = s.crsWindow := rfl
@[simp] theorem State.updSpan_flrFns : (s.updSpan k h).flrFns = s.flrFns := rfl
@[simp] theorem State.updSpan_threads : (s.updSpan k h).threads = s.threads := rfl
@[simp] theorem State.updSpan_mats : (s.updSpan k h).mats = s.mats := rfl
@[simp] theorem State.updSpan_log : (s.updSpan k h).log = s.log := rfl
@[simp] theorem State.updSpan_doms : (s.updSpan k h).doms = s.doms := rfl
@[simp] theorem State.updSpan_ledger : (s.updSpan k h).ledger = s.ledger := rfl
@[simp] theorem State.updSpan_admitted : (s.updSpan k h).admitted = s.admitted := rfl
@[simp] theorem State.updSpan_opPhase : (s.updSpan k h).opPhase = s.opPhase := rfl
@[simp] theorem State.updSpan_ctrs : (s.updSpan k h).ctrs = s.ctrs := rfl
@[simp] theorem State.updSpan_snapStep : (s.updSpan k h).snapStep = s.snapStep := rfl
@[simp] theorem State.updSpan_snapAt : (s.updSpan k h).snapAt = s.snapAt := rfl
@[simp] theorem State.updSpan_snapshot : (s.updSpan k h).snapshot = s.snapshot := rfl
@[simp] theorem State.updSpan_latched : (s.updSpan k h).latched = s.latched := rfl
@[simp] theorem State.updSpan_pwrE : (s.updSpan k h).pwrE = s.pwrE := rfl
@[simp] theorem State.updSpan_pwrSig : (s.updSpan k h).pwrSig = s.pwrSig := rfl
@[simp] theorem State.updSpan_cfgRec : (s.updSpan k h).cfgRec = s.cfgRec := rfl
@[simp] theorem State.updSpan_cfgPending : (s.updSpan k h).cfgPending = s.cfgPending := rfl
@[simp] theorem State.updSpan_idxL : (s.updSpan k h).idxL = s.idxL := rfl
@[simp] theorem State.updSpan_idxRseq : (s.updSpan k h).idxRseq = s.idxRseq := rfl
@[simp] theorem State.updSpan_idxLow : (s.updSpan k h).idxLow = s.idxLow := rfl
@[simp] theorem State.updSpan_mlog : (s.updSpan k h).mlog = s.mlog := rfl
@[simp] theorem State.updSpan_mAcc : (s.updSpan k h).mAcc = s.mAcc := rfl
@[simp] theorem State.updSpan_fwInfo : (s.updSpan k h).fwInfo = s.fwInfo := rfl
@[simp] theorem State.updSpan_quoteCmd : (s.updSpan k h).quoteCmd = s.quoteCmd := rfl
@[simp] theorem State.updSpan_hashReq : (s.updSpan k h).hashReq = s.hashReq := rfl
@[simp] theorem State.updSpan_recovery : (s.updSpan k h).recovery = s.recovery := rfl
@[simp] theorem State.updSpan_dbgData : (s.updSpan k h).dbgData = s.dbgData := rfl
@[simp] theorem State.updSpan_dbgBusy : (s.updSpan k h).dbgBusy = s.dbgBusy := rfl
@[simp] theorem State.updSpan_authBuf : (s.updSpan k h).authBuf = s.authBuf := rfl
@[simp] theorem State.updSpan_authBusy : (s.updSpan k h).authBusy = s.authBusy := rfl
@[simp] theorem State.updSpan_challengeNo : (s.updSpan k h).challengeNo = s.challengeNo := rfl
@[simp] theorem State.updSpan_tap : (s.updSpan k h).tap = s.tap := rfl
@[simp] theorem State.updSpan_free : (s.updSpan k h).free = s.free := rfl
@[simp] theorem State.updSpan_out : (s.updSpan k h).out = s.out := rfl
@[simp] theorem State.updSpan_pending : (s.updSpan k h).pending = s.pending := rfl
end

section
variable (s : State) (k : Nat) (x : Lock)
@[simp] theorem State.setLock_regs : (s.setLock k x).regs = s.regs := rfl
@[simp] theorem State.setLock_shadow : (s.setLock k x).shadow = s.shadow := rfl
@[simp] theorem State.setLock_locked : (s.setLock k x).locked = s.locked := rfl
@[simp] theorem State.setLock_variant : (s.setLock k x).variant = s.variant := rfl
@[simp] theorem State.setLock_stepping : (s.setLock k x).stepping = s.stepping := rfl
@[simp] theorem State.setLock_lifecycle : (s.setLock k x).lifecycle = s.lifecycle := rfl
@[simp] theorem State.setLock_svnFloor : (s.setLock k x).svnFloor = s.svnFloor := rfl
@[simp] theorem State.setLock_fwKeyHash : (s.setLock k x).fwKeyHash = s.fwKeyHash := rfl
@[simp] theorem State.setLock_identityOk : (s.setLock k x).identityOk = s.identityOk := rfl
@[simp] theorem State.setLock_now : (s.setLock k x).now = s.now := rfl
@[simp] theorem State.setLock_dawn : (s.setLock k x).dawn = s.dawn := rfl
@[simp] theorem State.setLock_deviceHalted : (s.setLock k x).deviceHalted = s.deviceHalted := rfl
@[simp] theorem State.setLock_injectStop : (s.setLock k x).injectStop = s.injectStop := rfl
@[simp] theorem State.setLock_quiesceStep : (s.setLock k x).quiesceStep = s.quiesceStep := rfl
@[simp] theorem State.setLock_pins : (s.setLock k x).pins = s.pins := rfl
@[simp] theorem State.setLock_ctxs : (s.setLock k x).ctxs = s.ctxs := rfl
@[simp] theorem State.setLock_templates : (s.setLock k x).templates = s.templates := rfl
@[simp] theorem State.setLock_images : (s.setLock k x).images = s.images := rfl
@[simp] theorem State.setLock_stored : (s.setLock k x).stored = s.stored := rfl
@[simp] theorem State.setLock_gateTable : (s.setLock k x).gateTable = s.gateTable := rfl
@[simp] theorem State.setLock_pes : (s.setLock k x).pes = s.pes := rfl
@[simp] theorem State.setLock_clusters : (s.setLock k x).clusters = s.clusters := rfl
@[simp] theorem State.setLock_phs : (s.setLock k x).phs = s.phs := rfl
@[simp] theorem State.setLock_bus : (s.setLock k x).bus = s.bus := rfl
@[simp] theorem State.setLock_phQueue : (s.setLock k x).phQueue = s.phQueue := rfl
@[simp] theorem State.setLock_phNow : (s.setLock k x).phNow = s.phNow := rfl
@[simp] theorem State.setLock_phPast : (s.setLock k x).phPast = s.phPast := rfl
@[simp] theorem State.setLock_exportAt : (s.setLock k x).exportAt = s.exportAt := rfl
@[simp] theorem State.setLock_inputs : (s.setLock k x).inputs = s.inputs := rfl
@[simp] theorem State.setLock_held : (s.setLock k x).held = s.held := rfl
@[simp] theorem State.setLock_ports : (s.setLock k x).ports = s.ports := rfl
@[simp] theorem State.setLock_rings : (s.setLock k x).rings = s.rings := rfl
@[simp] theorem State.setLock_chans : (s.setLock k x).chans = s.chans := rfl
@[simp] theorem State.setLock_schedU : (s.setLock k x).schedU = s.schedU := rfl
@[simp] theorem State.setLock_schedAt : (s.setLock k x).schedAt = s.schedAt := rfl
@[simp] theorem State.setLock_activeCauses : (s.setLock k x).activeCauses = s.activeCauses := rfl
@[simp] theorem State.setLock_offPending : (s.setLock k x).offPending = s.offPending := rfl
@[simp] theorem State.setLock_abortCount : (s.setLock k x).abortCount = s.abortCount := rfl
@[simp] theorem State.setLock_heartbeatAt : (s.setLock k x).heartbeatAt = s.heartbeatAt := rfl
@[simp] theorem State.setLock_net : (s.setLock k x).net = s.net := rfl
@[simp] theorem State.setLock_stations : (s.setLock k x).stations = s.stations := rfl
@[simp] theorem State.setLock_epochAt : (s.setLock k x).epochAt = s.epochAt := rfl
@[simp] theorem State.setLock_spans : (s.setLock k x).spans = s.spans := rfl
@[simp] theorem State.setLock_spanTxns : (s.setLock k x).spanTxns = s.spanTxns := rfl
@[simp] theorem State.setLock_mem : (s.setLock k x).mem = s.mem := rfl
@[simp] theorem State.setLock_presence : (s.setLock k x).presence = s.presence := rfl
@[simp] theorem State.setLock_bad : (s.setLock k x).bad = s.bad := rfl
@[simp] theorem State.setLock_defers : (s.setLock k x).defers = s.defers := rfl
@[simp] theorem State.setLock_sweep : (s.setLock k x).sweep = s.sweep := rfl
@[simp] theorem State.setLock_flt : (s.setLock k x).flt = s.flt := rfl
@[simp] theorem State.setLock_wstart : (s.setLock k x).wstart = s.wstart := rfl
@[simp] theorem State.setLock_causeCnt : (s.setLock k x).causeCnt = s.causeCnt := rfl
@[simp] theorem State.setLock_causePersist : (s.setLock k x).causePersist = s.causePersist := rfl
@[simp] theorem State.setLock_census : (s.setLock k x).census = s.census := rfl
@[simp] theorem State.setLock_censusSeen : (s.setLock k x).censusSeen = s.censusSeen := rfl
@[simp] theorem State.setLock_lifetime : (s.setLock k x).lifetime = s.lifetime := rfl
@[simp] theorem State.setLock_retQueue : (s.setLock k x).retQueue = s.retQueue := rfl
@[simp] theorem State.setLock_running : (s.setLock k x).running = s.running := rfl
@[simp] theorem State.setLock_copied : (s.setLock k x).copied = s.copied := rfl
@[simp] theorem State.setLock_committed : (s.setLock k x).committed = s.committed := rfl
@[simp] theorem State.setLock_spareRows : (s.setLock k x).spareRows = s.spareRows := rfl
@[simp] theorem State.setLock_mapRecs : (s.setLock k x).mapRecs = s.mapRecs := rfl
@[simp] theorem State.setLock_queues : (s.setLock k x).queues = s.queues := rfl
@[simp] theorem State.setLock_sessions : (s.setLock k x).sessions = s.sessions := rfl
@[simp] theorem State.setLock_nextCmd : (s.setLock k x).nextCmd = s.nextCmd := rfl
@[simp] theorem State.setLock_msixMask : (s.setLock k x).msixMask = s.msixMask := rfl
@[simp] theorem State.setLock_fnState : (s.setLock k x).fnState = s.fnState := rfl
@[simp] theorem State.setLock_grants : (s.setLock k x).grants = s.grants := rfl
@[simp] theorem State.setLock_linkState : (s.setLock k x).linkState = s.linkState := rfl
@[simp] theorem State.setLock_crsWindow : (s.setLock k x).crsWindow = s.crsWindow := rfl
@[simp] theorem State.setLock_flrFns : (s.setLock k x).flrFns = s.flrFns := rfl
@[simp] theorem State.setLock_threads : (s.setLock k x).threads = s.threads := rfl
@[simp] theorem State.setLock_mats : (s.setLock k x).mats = s.mats := rfl
@[simp] theorem State.setLock_log : (s.setLock k x).log = s.log := rfl
@[simp] theorem State.setLock_doms : (s.setLock k x).doms = s.doms := rfl
@[simp] theorem State.setLock_ledger : (s.setLock k x).ledger = s.ledger := rfl
@[simp] theorem State.setLock_admitted : (s.setLock k x).admitted = s.admitted := rfl
@[simp] theorem State.setLock_opPhase : (s.setLock k x).opPhase = s.opPhase := rfl
@[simp] theorem State.setLock_ctrs : (s.setLock k x).ctrs = s.ctrs := rfl
@[simp] theorem State.setLock_snapStep : (s.setLock k x).snapStep = s.snapStep := rfl
@[simp] theorem State.setLock_snapAt : (s.setLock k x).snapAt = s.snapAt := rfl
@[simp] theorem State.setLock_snapshot : (s.setLock k x).snapshot = s.snapshot := rfl
@[simp] theorem State.setLock_latched : (s.setLock k x).latched = s.latched := rfl
@[simp] theorem State.setLock_pwrE : (s.setLock k x).pwrE = s.pwrE := rfl
@[simp] theorem State.setLock_pwrSig : (s.setLock k x).pwrSig = s.pwrSig := rfl
@[simp] theorem State.setLock_cfgRec : (s.setLock k x).cfgRec = s.cfgRec := rfl
@[simp] theorem State.setLock_cfgPending : (s.setLock k x).cfgPending = s.cfgPending := rfl
@[simp] theorem State.setLock_idxL : (s.setLock k x).idxL = s.idxL := rfl
@[simp] theorem State.setLock_idxRseq : (s.setLock k x).idxRseq = s.idxRseq := rfl
@[simp] theorem State.setLock_idxLow : (s.setLock k x).idxLow = s.idxLow := rfl
@[simp] theorem State.setLock_mlog : (s.setLock k x).mlog = s.mlog := rfl
@[simp] theorem State.setLock_mAcc : (s.setLock k x).mAcc = s.mAcc := rfl
@[simp] theorem State.setLock_fwInfo : (s.setLock k x).fwInfo = s.fwInfo := rfl
@[simp] theorem State.setLock_quoteCmd : (s.setLock k x).quoteCmd = s.quoteCmd := rfl
@[simp] theorem State.setLock_hashReq : (s.setLock k x).hashReq = s.hashReq := rfl
@[simp] theorem State.setLock_recovery : (s.setLock k x).recovery = s.recovery := rfl
@[simp] theorem State.setLock_dbgData : (s.setLock k x).dbgData = s.dbgData := rfl
@[simp] theorem State.setLock_dbgBusy : (s.setLock k x).dbgBusy = s.dbgBusy := rfl
@[simp] theorem State.setLock_authBuf : (s.setLock k x).authBuf = s.authBuf := rfl
@[simp] theorem State.setLock_authBusy : (s.setLock k x).authBusy = s.authBusy := rfl
@[simp] theorem State.setLock_challengeNo : (s.setLock k x).challengeNo = s.challengeNo := rfl
@[simp] theorem State.setLock_tap : (s.setLock k x).tap = s.tap := rfl
@[simp] theorem State.setLock_free : (s.setLock k x).free = s.free := rfl
@[simp] theorem State.setLock_out : (s.setLock k x).out = s.out := rfl
@[simp] theorem State.setLock_pending : (s.setLock k x).pending = s.pending := rfl
end

section
variable (s : State) (k : Nat) (h : Lock → Lock)
@[simp] theorem State.updLock_regs : (s.updLock k h).regs = s.regs := rfl
@[simp] theorem State.updLock_shadow : (s.updLock k h).shadow = s.shadow := rfl
@[simp] theorem State.updLock_locked : (s.updLock k h).locked = s.locked := rfl
@[simp] theorem State.updLock_variant : (s.updLock k h).variant = s.variant := rfl
@[simp] theorem State.updLock_stepping : (s.updLock k h).stepping = s.stepping := rfl
@[simp] theorem State.updLock_lifecycle : (s.updLock k h).lifecycle = s.lifecycle := rfl
@[simp] theorem State.updLock_svnFloor : (s.updLock k h).svnFloor = s.svnFloor := rfl
@[simp] theorem State.updLock_fwKeyHash : (s.updLock k h).fwKeyHash = s.fwKeyHash := rfl
@[simp] theorem State.updLock_identityOk : (s.updLock k h).identityOk = s.identityOk := rfl
@[simp] theorem State.updLock_now : (s.updLock k h).now = s.now := rfl
@[simp] theorem State.updLock_dawn : (s.updLock k h).dawn = s.dawn := rfl
@[simp] theorem State.updLock_deviceHalted : (s.updLock k h).deviceHalted = s.deviceHalted := rfl
@[simp] theorem State.updLock_injectStop : (s.updLock k h).injectStop = s.injectStop := rfl
@[simp] theorem State.updLock_quiesceStep : (s.updLock k h).quiesceStep = s.quiesceStep := rfl
@[simp] theorem State.updLock_pins : (s.updLock k h).pins = s.pins := rfl
@[simp] theorem State.updLock_ctxs : (s.updLock k h).ctxs = s.ctxs := rfl
@[simp] theorem State.updLock_templates : (s.updLock k h).templates = s.templates := rfl
@[simp] theorem State.updLock_images : (s.updLock k h).images = s.images := rfl
@[simp] theorem State.updLock_stored : (s.updLock k h).stored = s.stored := rfl
@[simp] theorem State.updLock_gateTable : (s.updLock k h).gateTable = s.gateTable := rfl
@[simp] theorem State.updLock_pes : (s.updLock k h).pes = s.pes := rfl
@[simp] theorem State.updLock_clusters : (s.updLock k h).clusters = s.clusters := rfl
@[simp] theorem State.updLock_phs : (s.updLock k h).phs = s.phs := rfl
@[simp] theorem State.updLock_bus : (s.updLock k h).bus = s.bus := rfl
@[simp] theorem State.updLock_phQueue : (s.updLock k h).phQueue = s.phQueue := rfl
@[simp] theorem State.updLock_phNow : (s.updLock k h).phNow = s.phNow := rfl
@[simp] theorem State.updLock_phPast : (s.updLock k h).phPast = s.phPast := rfl
@[simp] theorem State.updLock_exportAt : (s.updLock k h).exportAt = s.exportAt := rfl
@[simp] theorem State.updLock_inputs : (s.updLock k h).inputs = s.inputs := rfl
@[simp] theorem State.updLock_held : (s.updLock k h).held = s.held := rfl
@[simp] theorem State.updLock_ports : (s.updLock k h).ports = s.ports := rfl
@[simp] theorem State.updLock_rings : (s.updLock k h).rings = s.rings := rfl
@[simp] theorem State.updLock_chans : (s.updLock k h).chans = s.chans := rfl
@[simp] theorem State.updLock_schedU : (s.updLock k h).schedU = s.schedU := rfl
@[simp] theorem State.updLock_schedAt : (s.updLock k h).schedAt = s.schedAt := rfl
@[simp] theorem State.updLock_activeCauses : (s.updLock k h).activeCauses = s.activeCauses := rfl
@[simp] theorem State.updLock_offPending : (s.updLock k h).offPending = s.offPending := rfl
@[simp] theorem State.updLock_abortCount : (s.updLock k h).abortCount = s.abortCount := rfl
@[simp] theorem State.updLock_heartbeatAt : (s.updLock k h).heartbeatAt = s.heartbeatAt := rfl
@[simp] theorem State.updLock_net : (s.updLock k h).net = s.net := rfl
@[simp] theorem State.updLock_stations : (s.updLock k h).stations = s.stations := rfl
@[simp] theorem State.updLock_epochAt : (s.updLock k h).epochAt = s.epochAt := rfl
@[simp] theorem State.updLock_spans : (s.updLock k h).spans = s.spans := rfl
@[simp] theorem State.updLock_spanTxns : (s.updLock k h).spanTxns = s.spanTxns := rfl
@[simp] theorem State.updLock_mem : (s.updLock k h).mem = s.mem := rfl
@[simp] theorem State.updLock_presence : (s.updLock k h).presence = s.presence := rfl
@[simp] theorem State.updLock_bad : (s.updLock k h).bad = s.bad := rfl
@[simp] theorem State.updLock_defers : (s.updLock k h).defers = s.defers := rfl
@[simp] theorem State.updLock_sweep : (s.updLock k h).sweep = s.sweep := rfl
@[simp] theorem State.updLock_flt : (s.updLock k h).flt = s.flt := rfl
@[simp] theorem State.updLock_wstart : (s.updLock k h).wstart = s.wstart := rfl
@[simp] theorem State.updLock_causeCnt : (s.updLock k h).causeCnt = s.causeCnt := rfl
@[simp] theorem State.updLock_causePersist : (s.updLock k h).causePersist = s.causePersist := rfl
@[simp] theorem State.updLock_census : (s.updLock k h).census = s.census := rfl
@[simp] theorem State.updLock_censusSeen : (s.updLock k h).censusSeen = s.censusSeen := rfl
@[simp] theorem State.updLock_lifetime : (s.updLock k h).lifetime = s.lifetime := rfl
@[simp] theorem State.updLock_retQueue : (s.updLock k h).retQueue = s.retQueue := rfl
@[simp] theorem State.updLock_running : (s.updLock k h).running = s.running := rfl
@[simp] theorem State.updLock_copied : (s.updLock k h).copied = s.copied := rfl
@[simp] theorem State.updLock_committed : (s.updLock k h).committed = s.committed := rfl
@[simp] theorem State.updLock_spareRows : (s.updLock k h).spareRows = s.spareRows := rfl
@[simp] theorem State.updLock_mapRecs : (s.updLock k h).mapRecs = s.mapRecs := rfl
@[simp] theorem State.updLock_queues : (s.updLock k h).queues = s.queues := rfl
@[simp] theorem State.updLock_sessions : (s.updLock k h).sessions = s.sessions := rfl
@[simp] theorem State.updLock_nextCmd : (s.updLock k h).nextCmd = s.nextCmd := rfl
@[simp] theorem State.updLock_msixMask : (s.updLock k h).msixMask = s.msixMask := rfl
@[simp] theorem State.updLock_fnState : (s.updLock k h).fnState = s.fnState := rfl
@[simp] theorem State.updLock_grants : (s.updLock k h).grants = s.grants := rfl
@[simp] theorem State.updLock_linkState : (s.updLock k h).linkState = s.linkState := rfl
@[simp] theorem State.updLock_crsWindow : (s.updLock k h).crsWindow = s.crsWindow := rfl
@[simp] theorem State.updLock_flrFns : (s.updLock k h).flrFns = s.flrFns := rfl
@[simp] theorem State.updLock_threads : (s.updLock k h).threads = s.threads := rfl
@[simp] theorem State.updLock_mats : (s.updLock k h).mats = s.mats := rfl
@[simp] theorem State.updLock_log : (s.updLock k h).log = s.log := rfl
@[simp] theorem State.updLock_doms : (s.updLock k h).doms = s.doms := rfl
@[simp] theorem State.updLock_ledger : (s.updLock k h).ledger = s.ledger := rfl
@[simp] theorem State.updLock_admitted : (s.updLock k h).admitted = s.admitted := rfl
@[simp] theorem State.updLock_opPhase : (s.updLock k h).opPhase = s.opPhase := rfl
@[simp] theorem State.updLock_ctrs : (s.updLock k h).ctrs = s.ctrs := rfl
@[simp] theorem State.updLock_snapStep : (s.updLock k h).snapStep = s.snapStep := rfl
@[simp] theorem State.updLock_snapAt : (s.updLock k h).snapAt = s.snapAt := rfl
@[simp] theorem State.updLock_snapshot : (s.updLock k h).snapshot = s.snapshot := rfl
@[simp] theorem State.updLock_latched : (s.updLock k h).latched = s.latched := rfl
@[simp] theorem State.updLock_pwrE : (s.updLock k h).pwrE = s.pwrE := rfl
@[simp] theorem State.updLock_pwrSig : (s.updLock k h).pwrSig = s.pwrSig := rfl
@[simp] theorem State.updLock_cfgRec : (s.updLock k h).cfgRec = s.cfgRec := rfl
@[simp] theorem State.updLock_cfgPending : (s.updLock k h).cfgPending = s.cfgPending := rfl
@[simp] theorem State.updLock_idxL : (s.updLock k h).idxL = s.idxL := rfl
@[simp] theorem State.updLock_idxRseq : (s.updLock k h).idxRseq = s.idxRseq := rfl
@[simp] theorem State.updLock_idxLow : (s.updLock k h).idxLow = s.idxLow := rfl
@[simp] theorem State.updLock_mlog : (s.updLock k h).mlog = s.mlog := rfl
@[simp] theorem State.updLock_mAcc : (s.updLock k h).mAcc = s.mAcc := rfl
@[simp] theorem State.updLock_fwInfo : (s.updLock k h).fwInfo = s.fwInfo := rfl
@[simp] theorem State.updLock_quoteCmd : (s.updLock k h).quoteCmd = s.quoteCmd := rfl
@[simp] theorem State.updLock_hashReq : (s.updLock k h).hashReq = s.hashReq := rfl
@[simp] theorem State.updLock_recovery : (s.updLock k h).recovery = s.recovery := rfl
@[simp] theorem State.updLock_dbgData : (s.updLock k h).dbgData = s.dbgData := rfl
@[simp] theorem State.updLock_dbgBusy : (s.updLock k h).dbgBusy = s.dbgBusy := rfl
@[simp] theorem State.updLock_authBuf : (s.updLock k h).authBuf = s.authBuf := rfl
@[simp] theorem State.updLock_authBusy : (s.updLock k h).authBusy = s.authBusy := rfl
@[simp] theorem State.updLock_challengeNo : (s.updLock k h).challengeNo = s.challengeNo := rfl
@[simp] theorem State.updLock_tap : (s.updLock k h).tap = s.tap := rfl
@[simp] theorem State.updLock_free : (s.updLock k h).free = s.free := rfl
@[simp] theorem State.updLock_out : (s.updLock k h).out = s.out := rfl
@[simp] theorem State.updLock_pending : (s.updLock k h).pending = s.pending := rfl
end

section
variable (s : State) (k : Nat) (x : Queue)
@[simp] theorem State.setQueue_regs : (s.setQueue k x).regs = s.regs := rfl
@[simp] theorem State.setQueue_shadow : (s.setQueue k x).shadow = s.shadow := rfl
@[simp] theorem State.setQueue_locked : (s.setQueue k x).locked = s.locked := rfl
@[simp] theorem State.setQueue_variant : (s.setQueue k x).variant = s.variant := rfl
@[simp] theorem State.setQueue_stepping : (s.setQueue k x).stepping = s.stepping := rfl
@[simp] theorem State.setQueue_lifecycle : (s.setQueue k x).lifecycle = s.lifecycle := rfl
@[simp] theorem State.setQueue_svnFloor : (s.setQueue k x).svnFloor = s.svnFloor := rfl
@[simp] theorem State.setQueue_fwKeyHash : (s.setQueue k x).fwKeyHash = s.fwKeyHash := rfl
@[simp] theorem State.setQueue_identityOk : (s.setQueue k x).identityOk = s.identityOk := rfl
@[simp] theorem State.setQueue_now : (s.setQueue k x).now = s.now := rfl
@[simp] theorem State.setQueue_dawn : (s.setQueue k x).dawn = s.dawn := rfl
@[simp] theorem State.setQueue_deviceHalted : (s.setQueue k x).deviceHalted = s.deviceHalted := rfl
@[simp] theorem State.setQueue_injectStop : (s.setQueue k x).injectStop = s.injectStop := rfl
@[simp] theorem State.setQueue_quiesceStep : (s.setQueue k x).quiesceStep = s.quiesceStep := rfl
@[simp] theorem State.setQueue_pins : (s.setQueue k x).pins = s.pins := rfl
@[simp] theorem State.setQueue_ctxs : (s.setQueue k x).ctxs = s.ctxs := rfl
@[simp] theorem State.setQueue_templates : (s.setQueue k x).templates = s.templates := rfl
@[simp] theorem State.setQueue_images : (s.setQueue k x).images = s.images := rfl
@[simp] theorem State.setQueue_stored : (s.setQueue k x).stored = s.stored := rfl
@[simp] theorem State.setQueue_gateTable : (s.setQueue k x).gateTable = s.gateTable := rfl
@[simp] theorem State.setQueue_pes : (s.setQueue k x).pes = s.pes := rfl
@[simp] theorem State.setQueue_clusters : (s.setQueue k x).clusters = s.clusters := rfl
@[simp] theorem State.setQueue_phs : (s.setQueue k x).phs = s.phs := rfl
@[simp] theorem State.setQueue_bus : (s.setQueue k x).bus = s.bus := rfl
@[simp] theorem State.setQueue_phQueue : (s.setQueue k x).phQueue = s.phQueue := rfl
@[simp] theorem State.setQueue_phNow : (s.setQueue k x).phNow = s.phNow := rfl
@[simp] theorem State.setQueue_phPast : (s.setQueue k x).phPast = s.phPast := rfl
@[simp] theorem State.setQueue_exportAt : (s.setQueue k x).exportAt = s.exportAt := rfl
@[simp] theorem State.setQueue_inputs : (s.setQueue k x).inputs = s.inputs := rfl
@[simp] theorem State.setQueue_held : (s.setQueue k x).held = s.held := rfl
@[simp] theorem State.setQueue_ports : (s.setQueue k x).ports = s.ports := rfl
@[simp] theorem State.setQueue_rings : (s.setQueue k x).rings = s.rings := rfl
@[simp] theorem State.setQueue_chans : (s.setQueue k x).chans = s.chans := rfl
@[simp] theorem State.setQueue_schedU : (s.setQueue k x).schedU = s.schedU := rfl
@[simp] theorem State.setQueue_schedAt : (s.setQueue k x).schedAt = s.schedAt := rfl
@[simp] theorem State.setQueue_activeCauses : (s.setQueue k x).activeCauses = s.activeCauses := rfl
@[simp] theorem State.setQueue_offPending : (s.setQueue k x).offPending = s.offPending := rfl
@[simp] theorem State.setQueue_abortCount : (s.setQueue k x).abortCount = s.abortCount := rfl
@[simp] theorem State.setQueue_heartbeatAt : (s.setQueue k x).heartbeatAt = s.heartbeatAt := rfl
@[simp] theorem State.setQueue_net : (s.setQueue k x).net = s.net := rfl
@[simp] theorem State.setQueue_stations : (s.setQueue k x).stations = s.stations := rfl
@[simp] theorem State.setQueue_epochAt : (s.setQueue k x).epochAt = s.epochAt := rfl
@[simp] theorem State.setQueue_spans : (s.setQueue k x).spans = s.spans := rfl
@[simp] theorem State.setQueue_spanTxns : (s.setQueue k x).spanTxns = s.spanTxns := rfl
@[simp] theorem State.setQueue_mem : (s.setQueue k x).mem = s.mem := rfl
@[simp] theorem State.setQueue_presence : (s.setQueue k x).presence = s.presence := rfl
@[simp] theorem State.setQueue_bad : (s.setQueue k x).bad = s.bad := rfl
@[simp] theorem State.setQueue_defers : (s.setQueue k x).defers = s.defers := rfl
@[simp] theorem State.setQueue_sweep : (s.setQueue k x).sweep = s.sweep := rfl
@[simp] theorem State.setQueue_locks : (s.setQueue k x).locks = s.locks := rfl
@[simp] theorem State.setQueue_flt : (s.setQueue k x).flt = s.flt := rfl
@[simp] theorem State.setQueue_wstart : (s.setQueue k x).wstart = s.wstart := rfl
@[simp] theorem State.setQueue_causeCnt : (s.setQueue k x).causeCnt = s.causeCnt := rfl
@[simp] theorem State.setQueue_causePersist : (s.setQueue k x).causePersist = s.causePersist := rfl
@[simp] theorem State.setQueue_census : (s.setQueue k x).census = s.census := rfl
@[simp] theorem State.setQueue_censusSeen : (s.setQueue k x).censusSeen = s.censusSeen := rfl
@[simp] theorem State.setQueue_lifetime : (s.setQueue k x).lifetime = s.lifetime := rfl
@[simp] theorem State.setQueue_retQueue : (s.setQueue k x).retQueue = s.retQueue := rfl
@[simp] theorem State.setQueue_running : (s.setQueue k x).running = s.running := rfl
@[simp] theorem State.setQueue_copied : (s.setQueue k x).copied = s.copied := rfl
@[simp] theorem State.setQueue_committed : (s.setQueue k x).committed = s.committed := rfl
@[simp] theorem State.setQueue_spareRows : (s.setQueue k x).spareRows = s.spareRows := rfl
@[simp] theorem State.setQueue_mapRecs : (s.setQueue k x).mapRecs = s.mapRecs := rfl
@[simp] theorem State.setQueue_sessions : (s.setQueue k x).sessions = s.sessions := rfl
@[simp] theorem State.setQueue_nextCmd : (s.setQueue k x).nextCmd = s.nextCmd := rfl
@[simp] theorem State.setQueue_msixMask : (s.setQueue k x).msixMask = s.msixMask := rfl
@[simp] theorem State.setQueue_fnState : (s.setQueue k x).fnState = s.fnState := rfl
@[simp] theorem State.setQueue_grants : (s.setQueue k x).grants = s.grants := rfl
@[simp] theorem State.setQueue_linkState : (s.setQueue k x).linkState = s.linkState := rfl
@[simp] theorem State.setQueue_crsWindow : (s.setQueue k x).crsWindow = s.crsWindow := rfl
@[simp] theorem State.setQueue_flrFns : (s.setQueue k x).flrFns = s.flrFns := rfl
@[simp] theorem State.setQueue_threads : (s.setQueue k x).threads = s.threads := rfl
@[simp] theorem State.setQueue_mats : (s.setQueue k x).mats = s.mats := rfl
@[simp] theorem State.setQueue_log : (s.setQueue k x).log = s.log := rfl
@[simp] theorem State.setQueue_doms : (s.setQueue k x).doms = s.doms := rfl
@[simp] theorem State.setQueue_ledger : (s.setQueue k x).ledger = s.ledger := rfl
@[simp] theorem State.setQueue_admitted : (s.setQueue k x).admitted = s.admitted := rfl
@[simp] theorem State.setQueue_opPhase : (s.setQueue k x).opPhase = s.opPhase := rfl
@[simp] theorem State.setQueue_ctrs : (s.setQueue k x).ctrs = s.ctrs := rfl
@[simp] theorem State.setQueue_snapStep : (s.setQueue k x).snapStep = s.snapStep := rfl
@[simp] theorem State.setQueue_snapAt : (s.setQueue k x).snapAt = s.snapAt := rfl
@[simp] theorem State.setQueue_snapshot : (s.setQueue k x).snapshot = s.snapshot := rfl
@[simp] theorem State.setQueue_latched : (s.setQueue k x).latched = s.latched := rfl
@[simp] theorem State.setQueue_pwrE : (s.setQueue k x).pwrE = s.pwrE := rfl
@[simp] theorem State.setQueue_pwrSig : (s.setQueue k x).pwrSig = s.pwrSig := rfl
@[simp] theorem State.setQueue_cfgRec : (s.setQueue k x).cfgRec = s.cfgRec := rfl
@[simp] theorem State.setQueue_cfgPending : (s.setQueue k x).cfgPending = s.cfgPending := rfl
@[simp] theorem State.setQueue_idxL : (s.setQueue k x).idxL = s.idxL := rfl
@[simp] theorem State.setQueue_idxRseq : (s.setQueue k x).idxRseq = s.idxRseq := rfl
@[simp] theorem State.setQueue_idxLow : (s.setQueue k x).idxLow = s.idxLow := rfl
@[simp] theorem State.setQueue_mlog : (s.setQueue k x).mlog = s.mlog := rfl
@[simp] theorem State.setQueue_mAcc : (s.setQueue k x).mAcc = s.mAcc := rfl
@[simp] theorem State.setQueue_fwInfo : (s.setQueue k x).fwInfo = s.fwInfo := rfl
@[simp] theorem State.setQueue_quoteCmd : (s.setQueue k x).quoteCmd = s.quoteCmd := rfl
@[simp] theorem State.setQueue_hashReq : (s.setQueue k x).hashReq = s.hashReq := rfl
@[simp] theorem State.setQueue_recovery : (s.setQueue k x).recovery = s.recovery := rfl
@[simp] theorem State.setQueue_dbgData : (s.setQueue k x).dbgData = s.dbgData := rfl
@[simp] theorem State.setQueue_dbgBusy : (s.setQueue k x).dbgBusy = s.dbgBusy := rfl
@[simp] theorem State.setQueue_authBuf : (s.setQueue k x).authBuf = s.authBuf := rfl
@[simp] theorem State.setQueue_authBusy : (s.setQueue k x).authBusy = s.authBusy := rfl
@[simp] theorem State.setQueue_challengeNo : (s.setQueue k x).challengeNo = s.challengeNo := rfl
@[simp] theorem State.setQueue_tap : (s.setQueue k x).tap = s.tap := rfl
@[simp] theorem State.setQueue_free : (s.setQueue k x).free = s.free := rfl
@[simp] theorem State.setQueue_out : (s.setQueue k x).out = s.out := rfl
@[simp] theorem State.setQueue_pending : (s.setQueue k x).pending = s.pending := rfl
end

section
variable (s : State) (k : Nat) (h : Queue → Queue)
@[simp] theorem State.updQueue_regs : (s.updQueue k h).regs = s.regs := rfl
@[simp] theorem State.updQueue_shadow : (s.updQueue k h).shadow = s.shadow := rfl
@[simp] theorem State.updQueue_locked : (s.updQueue k h).locked = s.locked := rfl
@[simp] theorem State.updQueue_variant : (s.updQueue k h).variant = s.variant := rfl
@[simp] theorem State.updQueue_stepping : (s.updQueue k h).stepping = s.stepping := rfl
@[simp] theorem State.updQueue_lifecycle : (s.updQueue k h).lifecycle = s.lifecycle := rfl
@[simp] theorem State.updQueue_svnFloor : (s.updQueue k h).svnFloor = s.svnFloor := rfl
@[simp] theorem State.updQueue_fwKeyHash : (s.updQueue k h).fwKeyHash = s.fwKeyHash := rfl
@[simp] theorem State.updQueue_identityOk : (s.updQueue k h).identityOk = s.identityOk := rfl
@[simp] theorem State.updQueue_now : (s.updQueue k h).now = s.now := rfl
@[simp] theorem State.updQueue_dawn : (s.updQueue k h).dawn = s.dawn := rfl
@[simp] theorem State.updQueue_deviceHalted : (s.updQueue k h).deviceHalted = s.deviceHalted := rfl
@[simp] theorem State.updQueue_injectStop : (s.updQueue k h).injectStop = s.injectStop := rfl
@[simp] theorem State.updQueue_quiesceStep : (s.updQueue k h).quiesceStep = s.quiesceStep := rfl
@[simp] theorem State.updQueue_pins : (s.updQueue k h).pins = s.pins := rfl
@[simp] theorem State.updQueue_ctxs : (s.updQueue k h).ctxs = s.ctxs := rfl
@[simp] theorem State.updQueue_templates : (s.updQueue k h).templates = s.templates := rfl
@[simp] theorem State.updQueue_images : (s.updQueue k h).images = s.images := rfl
@[simp] theorem State.updQueue_stored : (s.updQueue k h).stored = s.stored := rfl
@[simp] theorem State.updQueue_gateTable : (s.updQueue k h).gateTable = s.gateTable := rfl
@[simp] theorem State.updQueue_pes : (s.updQueue k h).pes = s.pes := rfl
@[simp] theorem State.updQueue_clusters : (s.updQueue k h).clusters = s.clusters := rfl
@[simp] theorem State.updQueue_phs : (s.updQueue k h).phs = s.phs := rfl
@[simp] theorem State.updQueue_bus : (s.updQueue k h).bus = s.bus := rfl
@[simp] theorem State.updQueue_phQueue : (s.updQueue k h).phQueue = s.phQueue := rfl
@[simp] theorem State.updQueue_phNow : (s.updQueue k h).phNow = s.phNow := rfl
@[simp] theorem State.updQueue_phPast : (s.updQueue k h).phPast = s.phPast := rfl
@[simp] theorem State.updQueue_exportAt : (s.updQueue k h).exportAt = s.exportAt := rfl
@[simp] theorem State.updQueue_inputs : (s.updQueue k h).inputs = s.inputs := rfl
@[simp] theorem State.updQueue_held : (s.updQueue k h).held = s.held := rfl
@[simp] theorem State.updQueue_ports : (s.updQueue k h).ports = s.ports := rfl
@[simp] theorem State.updQueue_rings : (s.updQueue k h).rings = s.rings := rfl
@[simp] theorem State.updQueue_chans : (s.updQueue k h).chans = s.chans := rfl
@[simp] theorem State.updQueue_schedU : (s.updQueue k h).schedU = s.schedU := rfl
@[simp] theorem State.updQueue_schedAt : (s.updQueue k h).schedAt = s.schedAt := rfl
@[simp] theorem State.updQueue_activeCauses : (s.updQueue k h).activeCauses = s.activeCauses := rfl
@[simp] theorem State.updQueue_offPending : (s.updQueue k h).offPending = s.offPending := rfl
@[simp] theorem State.updQueue_abortCount : (s.updQueue k h).abortCount = s.abortCount := rfl
@[simp] theorem State.updQueue_heartbeatAt : (s.updQueue k h).heartbeatAt = s.heartbeatAt := rfl
@[simp] theorem State.updQueue_net : (s.updQueue k h).net = s.net := rfl
@[simp] theorem State.updQueue_stations : (s.updQueue k h).stations = s.stations := rfl
@[simp] theorem State.updQueue_epochAt : (s.updQueue k h).epochAt = s.epochAt := rfl
@[simp] theorem State.updQueue_spans : (s.updQueue k h).spans = s.spans := rfl
@[simp] theorem State.updQueue_spanTxns : (s.updQueue k h).spanTxns = s.spanTxns := rfl
@[simp] theorem State.updQueue_mem : (s.updQueue k h).mem = s.mem := rfl
@[simp] theorem State.updQueue_presence : (s.updQueue k h).presence = s.presence := rfl
@[simp] theorem State.updQueue_bad : (s.updQueue k h).bad = s.bad := rfl
@[simp] theorem State.updQueue_defers : (s.updQueue k h).defers = s.defers := rfl
@[simp] theorem State.updQueue_sweep : (s.updQueue k h).sweep = s.sweep := rfl
@[simp] theorem State.updQueue_locks : (s.updQueue k h).locks = s.locks := rfl
@[simp] theorem State.updQueue_flt : (s.updQueue k h).flt = s.flt := rfl
@[simp] theorem State.updQueue_wstart : (s.updQueue k h).wstart = s.wstart := rfl
@[simp] theorem State.updQueue_causeCnt : (s.updQueue k h).causeCnt = s.causeCnt := rfl
@[simp] theorem State.updQueue_causePersist : (s.updQueue k h).causePersist = s.causePersist := rfl
@[simp] theorem State.updQueue_census : (s.updQueue k h).census = s.census := rfl
@[simp] theorem State.updQueue_censusSeen : (s.updQueue k h).censusSeen = s.censusSeen := rfl
@[simp] theorem State.updQueue_lifetime : (s.updQueue k h).lifetime = s.lifetime := rfl
@[simp] theorem State.updQueue_retQueue : (s.updQueue k h).retQueue = s.retQueue := rfl
@[simp] theorem State.updQueue_running : (s.updQueue k h).running = s.running := rfl
@[simp] theorem State.updQueue_copied : (s.updQueue k h).copied = s.copied := rfl
@[simp] theorem State.updQueue_committed : (s.updQueue k h).committed = s.committed := rfl
@[simp] theorem State.updQueue_spareRows : (s.updQueue k h).spareRows = s.spareRows := rfl
@[simp] theorem State.updQueue_mapRecs : (s.updQueue k h).mapRecs = s.mapRecs := rfl
@[simp] theorem State.updQueue_sessions : (s.updQueue k h).sessions = s.sessions := rfl
@[simp] theorem State.updQueue_nextCmd : (s.updQueue k h).nextCmd = s.nextCmd := rfl
@[simp] theorem State.updQueue_msixMask : (s.updQueue k h).msixMask = s.msixMask := rfl
@[simp] theorem State.updQueue_fnState : (s.updQueue k h).fnState = s.fnState := rfl
@[simp] theorem State.updQueue_grants : (s.updQueue k h).grants = s.grants := rfl
@[simp] theorem State.updQueue_linkState : (s.updQueue k h).linkState = s.linkState := rfl
@[simp] theorem State.updQueue_crsWindow : (s.updQueue k h).crsWindow = s.crsWindow := rfl
@[simp] theorem State.updQueue_flrFns : (s.updQueue k h).flrFns = s.flrFns := rfl
@[simp] theorem State.updQueue_threads : (s.updQueue k h).threads = s.threads := rfl
@[simp] theorem State.updQueue_mats : (s.updQueue k h).mats = s.mats := rfl
@[simp] theorem State.updQueue_log : (s.updQueue k h).log = s.log := rfl
@[simp] theorem State.updQueue_doms : (s.updQueue k h).doms = s.doms := rfl
@[simp] theorem State.updQueue_ledger : (s.updQueue k h).ledger = s.ledger := rfl
@[simp] theorem State.updQueue_admitted : (s.updQueue k h).admitted = s.admitted := rfl
@[simp] theorem State.updQueue_opPhase : (s.updQueue k h).opPhase = s.opPhase := rfl
@[simp] theorem State.updQueue_ctrs : (s.updQueue k h).ctrs = s.ctrs := rfl
@[simp] theorem State.updQueue_snapStep : (s.updQueue k h).snapStep = s.snapStep := rfl
@[simp] theorem State.updQueue_snapAt : (s.updQueue k h).snapAt = s.snapAt := rfl
@[simp] theorem State.updQueue_snapshot : (s.updQueue k h).snapshot = s.snapshot := rfl
@[simp] theorem State.updQueue_latched : (s.updQueue k h).latched = s.latched := rfl
@[simp] theorem State.updQueue_pwrE : (s.updQueue k h).pwrE = s.pwrE := rfl
@[simp] theorem State.updQueue_pwrSig : (s.updQueue k h).pwrSig = s.pwrSig := rfl
@[simp] theorem State.updQueue_cfgRec : (s.updQueue k h).cfgRec = s.cfgRec := rfl
@[simp] theorem State.updQueue_cfgPending : (s.updQueue k h).cfgPending = s.cfgPending := rfl
@[simp] theorem State.updQueue_idxL : (s.updQueue k h).idxL = s.idxL := rfl
@[simp] theorem State.updQueue_idxRseq : (s.updQueue k h).idxRseq = s.idxRseq := rfl
@[simp] theorem State.updQueue_idxLow : (s.updQueue k h).idxLow = s.idxLow := rfl
@[simp] theorem State.updQueue_mlog : (s.updQueue k h).mlog = s.mlog := rfl
@[simp] theorem State.updQueue_mAcc : (s.updQueue k h).mAcc = s.mAcc := rfl
@[simp] theorem State.updQueue_fwInfo : (s.updQueue k h).fwInfo = s.fwInfo := rfl
@[simp] theorem State.updQueue_quoteCmd : (s.updQueue k h).quoteCmd = s.quoteCmd := rfl
@[simp] theorem State.updQueue_hashReq : (s.updQueue k h).hashReq = s.hashReq := rfl
@[simp] theorem State.updQueue_recovery : (s.updQueue k h).recovery = s.recovery := rfl
@[simp] theorem State.updQueue_dbgData : (s.updQueue k h).dbgData = s.dbgData := rfl
@[simp] theorem State.updQueue_dbgBusy : (s.updQueue k h).dbgBusy = s.dbgBusy := rfl
@[simp] theorem State.updQueue_authBuf : (s.updQueue k h).authBuf = s.authBuf := rfl
@[simp] theorem State.updQueue_authBusy : (s.updQueue k h).authBusy = s.authBusy := rfl
@[simp] theorem State.updQueue_challengeNo : (s.updQueue k h).challengeNo = s.challengeNo := rfl
@[simp] theorem State.updQueue_tap : (s.updQueue k h).tap = s.tap := rfl
@[simp] theorem State.updQueue_free : (s.updQueue k h).free = s.free := rfl
@[simp] theorem State.updQueue_out : (s.updQueue k h).out = s.out := rfl
@[simp] theorem State.updQueue_pending : (s.updQueue k h).pending = s.pending := rfl
end

section
variable (s : State) (k : Nat) (x : Sess)
@[simp] theorem State.setSess_regs : (s.setSess k x).regs = s.regs := rfl
@[simp] theorem State.setSess_shadow : (s.setSess k x).shadow = s.shadow := rfl
@[simp] theorem State.setSess_locked : (s.setSess k x).locked = s.locked := rfl
@[simp] theorem State.setSess_variant : (s.setSess k x).variant = s.variant := rfl
@[simp] theorem State.setSess_stepping : (s.setSess k x).stepping = s.stepping := rfl
@[simp] theorem State.setSess_lifecycle : (s.setSess k x).lifecycle = s.lifecycle := rfl
@[simp] theorem State.setSess_svnFloor : (s.setSess k x).svnFloor = s.svnFloor := rfl
@[simp] theorem State.setSess_fwKeyHash : (s.setSess k x).fwKeyHash = s.fwKeyHash := rfl
@[simp] theorem State.setSess_identityOk : (s.setSess k x).identityOk = s.identityOk := rfl
@[simp] theorem State.setSess_now : (s.setSess k x).now = s.now := rfl
@[simp] theorem State.setSess_dawn : (s.setSess k x).dawn = s.dawn := rfl
@[simp] theorem State.setSess_deviceHalted : (s.setSess k x).deviceHalted = s.deviceHalted := rfl
@[simp] theorem State.setSess_injectStop : (s.setSess k x).injectStop = s.injectStop := rfl
@[simp] theorem State.setSess_quiesceStep : (s.setSess k x).quiesceStep = s.quiesceStep := rfl
@[simp] theorem State.setSess_pins : (s.setSess k x).pins = s.pins := rfl
@[simp] theorem State.setSess_ctxs : (s.setSess k x).ctxs = s.ctxs := rfl
@[simp] theorem State.setSess_templates : (s.setSess k x).templates = s.templates := rfl
@[simp] theorem State.setSess_images : (s.setSess k x).images = s.images := rfl
@[simp] theorem State.setSess_stored : (s.setSess k x).stored = s.stored := rfl
@[simp] theorem State.setSess_gateTable : (s.setSess k x).gateTable = s.gateTable := rfl
@[simp] theorem State.setSess_pes : (s.setSess k x).pes = s.pes := rfl
@[simp] theorem State.setSess_clusters : (s.setSess k x).clusters = s.clusters := rfl
@[simp] theorem State.setSess_phs : (s.setSess k x).phs = s.phs := rfl
@[simp] theorem State.setSess_bus : (s.setSess k x).bus = s.bus := rfl
@[simp] theorem State.setSess_phQueue : (s.setSess k x).phQueue = s.phQueue := rfl
@[simp] theorem State.setSess_phNow : (s.setSess k x).phNow = s.phNow := rfl
@[simp] theorem State.setSess_phPast : (s.setSess k x).phPast = s.phPast := rfl
@[simp] theorem State.setSess_exportAt : (s.setSess k x).exportAt = s.exportAt := rfl
@[simp] theorem State.setSess_inputs : (s.setSess k x).inputs = s.inputs := rfl
@[simp] theorem State.setSess_held : (s.setSess k x).held = s.held := rfl
@[simp] theorem State.setSess_ports : (s.setSess k x).ports = s.ports := rfl
@[simp] theorem State.setSess_rings : (s.setSess k x).rings = s.rings := rfl
@[simp] theorem State.setSess_chans : (s.setSess k x).chans = s.chans := rfl
@[simp] theorem State.setSess_schedU : (s.setSess k x).schedU = s.schedU := rfl
@[simp] theorem State.setSess_schedAt : (s.setSess k x).schedAt = s.schedAt := rfl
@[simp] theorem State.setSess_activeCauses : (s.setSess k x).activeCauses = s.activeCauses := rfl
@[simp] theorem State.setSess_offPending : (s.setSess k x).offPending = s.offPending := rfl
@[simp] theorem State.setSess_abortCount : (s.setSess k x).abortCount = s.abortCount := rfl
@[simp] theorem State.setSess_heartbeatAt : (s.setSess k x).heartbeatAt = s.heartbeatAt := rfl
@[simp] theorem State.setSess_net : (s.setSess k x).net = s.net := rfl
@[simp] theorem State.setSess_stations : (s.setSess k x).stations = s.stations := rfl
@[simp] theorem State.setSess_epochAt : (s.setSess k x).epochAt = s.epochAt := rfl
@[simp] theorem State.setSess_spans : (s.setSess k x).spans = s.spans := rfl
@[simp] theorem State.setSess_spanTxns : (s.setSess k x).spanTxns = s.spanTxns := rfl
@[simp] theorem State.setSess_mem : (s.setSess k x).mem = s.mem := rfl
@[simp] theorem State.setSess_presence : (s.setSess k x).presence = s.presence := rfl
@[simp] theorem State.setSess_bad : (s.setSess k x).bad = s.bad := rfl
@[simp] theorem State.setSess_defers : (s.setSess k x).defers = s.defers := rfl
@[simp] theorem State.setSess_sweep : (s.setSess k x).sweep = s.sweep := rfl
@[simp] theorem State.setSess_locks : (s.setSess k x).locks = s.locks := rfl
@[simp] theorem State.setSess_flt : (s.setSess k x).flt = s.flt := rfl
@[simp] theorem State.setSess_wstart : (s.setSess k x).wstart = s.wstart := rfl
@[simp] theorem State.setSess_causeCnt : (s.setSess k x).causeCnt = s.causeCnt := rfl
@[simp] theorem State.setSess_causePersist : (s.setSess k x).causePersist = s.causePersist := rfl
@[simp] theorem State.setSess_census : (s.setSess k x).census = s.census := rfl
@[simp] theorem State.setSess_censusSeen : (s.setSess k x).censusSeen = s.censusSeen := rfl
@[simp] theorem State.setSess_lifetime : (s.setSess k x).lifetime = s.lifetime := rfl
@[simp] theorem State.setSess_retQueue : (s.setSess k x).retQueue = s.retQueue := rfl
@[simp] theorem State.setSess_running : (s.setSess k x).running = s.running := rfl
@[simp] theorem State.setSess_copied : (s.setSess k x).copied = s.copied := rfl
@[simp] theorem State.setSess_committed : (s.setSess k x).committed = s.committed := rfl
@[simp] theorem State.setSess_spareRows : (s.setSess k x).spareRows = s.spareRows := rfl
@[simp] theorem State.setSess_mapRecs : (s.setSess k x).mapRecs = s.mapRecs := rfl
@[simp] theorem State.setSess_queues : (s.setSess k x).queues = s.queues := rfl
@[simp] theorem State.setSess_nextCmd : (s.setSess k x).nextCmd = s.nextCmd := rfl
@[simp] theorem State.setSess_msixMask : (s.setSess k x).msixMask = s.msixMask := rfl
@[simp] theorem State.setSess_fnState : (s.setSess k x).fnState = s.fnState := rfl
@[simp] theorem State.setSess_grants : (s.setSess k x).grants = s.grants := rfl
@[simp] theorem State.setSess_linkState : (s.setSess k x).linkState = s.linkState := rfl
@[simp] theorem State.setSess_crsWindow : (s.setSess k x).crsWindow = s.crsWindow := rfl
@[simp] theorem State.setSess_flrFns : (s.setSess k x).flrFns = s.flrFns := rfl
@[simp] theorem State.setSess_threads : (s.setSess k x).threads = s.threads := rfl
@[simp] theorem State.setSess_mats : (s.setSess k x).mats = s.mats := rfl
@[simp] theorem State.setSess_log : (s.setSess k x).log = s.log := rfl
@[simp] theorem State.setSess_doms : (s.setSess k x).doms = s.doms := rfl
@[simp] theorem State.setSess_ledger : (s.setSess k x).ledger = s.ledger := rfl
@[simp] theorem State.setSess_admitted : (s.setSess k x).admitted = s.admitted := rfl
@[simp] theorem State.setSess_opPhase : (s.setSess k x).opPhase = s.opPhase := rfl
@[simp] theorem State.setSess_ctrs : (s.setSess k x).ctrs = s.ctrs := rfl
@[simp] theorem State.setSess_snapStep : (s.setSess k x).snapStep = s.snapStep := rfl
@[simp] theorem State.setSess_snapAt : (s.setSess k x).snapAt = s.snapAt := rfl
@[simp] theorem State.setSess_snapshot : (s.setSess k x).snapshot = s.snapshot := rfl
@[simp] theorem State.setSess_latched : (s.setSess k x).latched = s.latched := rfl
@[simp] theorem State.setSess_pwrE : (s.setSess k x).pwrE = s.pwrE := rfl
@[simp] theorem State.setSess_pwrSig : (s.setSess k x).pwrSig = s.pwrSig := rfl
@[simp] theorem State.setSess_cfgRec : (s.setSess k x).cfgRec = s.cfgRec := rfl
@[simp] theorem State.setSess_cfgPending : (s.setSess k x).cfgPending = s.cfgPending := rfl
@[simp] theorem State.setSess_idxL : (s.setSess k x).idxL = s.idxL := rfl
@[simp] theorem State.setSess_idxRseq : (s.setSess k x).idxRseq = s.idxRseq := rfl
@[simp] theorem State.setSess_idxLow : (s.setSess k x).idxLow = s.idxLow := rfl
@[simp] theorem State.setSess_mlog : (s.setSess k x).mlog = s.mlog := rfl
@[simp] theorem State.setSess_mAcc : (s.setSess k x).mAcc = s.mAcc := rfl
@[simp] theorem State.setSess_fwInfo : (s.setSess k x).fwInfo = s.fwInfo := rfl
@[simp] theorem State.setSess_quoteCmd : (s.setSess k x).quoteCmd = s.quoteCmd := rfl
@[simp] theorem State.setSess_hashReq : (s.setSess k x).hashReq = s.hashReq := rfl
@[simp] theorem State.setSess_recovery : (s.setSess k x).recovery = s.recovery := rfl
@[simp] theorem State.setSess_dbgData : (s.setSess k x).dbgData = s.dbgData := rfl
@[simp] theorem State.setSess_dbgBusy : (s.setSess k x).dbgBusy = s.dbgBusy := rfl
@[simp] theorem State.setSess_authBuf : (s.setSess k x).authBuf = s.authBuf := rfl
@[simp] theorem State.setSess_authBusy : (s.setSess k x).authBusy = s.authBusy := rfl
@[simp] theorem State.setSess_challengeNo : (s.setSess k x).challengeNo = s.challengeNo := rfl
@[simp] theorem State.setSess_tap : (s.setSess k x).tap = s.tap := rfl
@[simp] theorem State.setSess_free : (s.setSess k x).free = s.free := rfl
@[simp] theorem State.setSess_out : (s.setSess k x).out = s.out := rfl
@[simp] theorem State.setSess_pending : (s.setSess k x).pending = s.pending := rfl
end

section
variable (s : State) (k : Nat) (h : Sess → Sess)
@[simp] theorem State.updSess_regs : (s.updSess k h).regs = s.regs := rfl
@[simp] theorem State.updSess_shadow : (s.updSess k h).shadow = s.shadow := rfl
@[simp] theorem State.updSess_locked : (s.updSess k h).locked = s.locked := rfl
@[simp] theorem State.updSess_variant : (s.updSess k h).variant = s.variant := rfl
@[simp] theorem State.updSess_stepping : (s.updSess k h).stepping = s.stepping := rfl
@[simp] theorem State.updSess_lifecycle : (s.updSess k h).lifecycle = s.lifecycle := rfl
@[simp] theorem State.updSess_svnFloor : (s.updSess k h).svnFloor = s.svnFloor := rfl
@[simp] theorem State.updSess_fwKeyHash : (s.updSess k h).fwKeyHash = s.fwKeyHash := rfl
@[simp] theorem State.updSess_identityOk : (s.updSess k h).identityOk = s.identityOk := rfl
@[simp] theorem State.updSess_now : (s.updSess k h).now = s.now := rfl
@[simp] theorem State.updSess_dawn : (s.updSess k h).dawn = s.dawn := rfl
@[simp] theorem State.updSess_deviceHalted : (s.updSess k h).deviceHalted = s.deviceHalted := rfl
@[simp] theorem State.updSess_injectStop : (s.updSess k h).injectStop = s.injectStop := rfl
@[simp] theorem State.updSess_quiesceStep : (s.updSess k h).quiesceStep = s.quiesceStep := rfl
@[simp] theorem State.updSess_pins : (s.updSess k h).pins = s.pins := rfl
@[simp] theorem State.updSess_ctxs : (s.updSess k h).ctxs = s.ctxs := rfl
@[simp] theorem State.updSess_templates : (s.updSess k h).templates = s.templates := rfl
@[simp] theorem State.updSess_images : (s.updSess k h).images = s.images := rfl
@[simp] theorem State.updSess_stored : (s.updSess k h).stored = s.stored := rfl
@[simp] theorem State.updSess_gateTable : (s.updSess k h).gateTable = s.gateTable := rfl
@[simp] theorem State.updSess_pes : (s.updSess k h).pes = s.pes := rfl
@[simp] theorem State.updSess_clusters : (s.updSess k h).clusters = s.clusters := rfl
@[simp] theorem State.updSess_phs : (s.updSess k h).phs = s.phs := rfl
@[simp] theorem State.updSess_bus : (s.updSess k h).bus = s.bus := rfl
@[simp] theorem State.updSess_phQueue : (s.updSess k h).phQueue = s.phQueue := rfl
@[simp] theorem State.updSess_phNow : (s.updSess k h).phNow = s.phNow := rfl
@[simp] theorem State.updSess_phPast : (s.updSess k h).phPast = s.phPast := rfl
@[simp] theorem State.updSess_exportAt : (s.updSess k h).exportAt = s.exportAt := rfl
@[simp] theorem State.updSess_inputs : (s.updSess k h).inputs = s.inputs := rfl
@[simp] theorem State.updSess_held : (s.updSess k h).held = s.held := rfl
@[simp] theorem State.updSess_ports : (s.updSess k h).ports = s.ports := rfl
@[simp] theorem State.updSess_rings : (s.updSess k h).rings = s.rings := rfl
@[simp] theorem State.updSess_chans : (s.updSess k h).chans = s.chans := rfl
@[simp] theorem State.updSess_schedU : (s.updSess k h).schedU = s.schedU := rfl
@[simp] theorem State.updSess_schedAt : (s.updSess k h).schedAt = s.schedAt := rfl
@[simp] theorem State.updSess_activeCauses : (s.updSess k h).activeCauses = s.activeCauses := rfl
@[simp] theorem State.updSess_offPending : (s.updSess k h).offPending = s.offPending := rfl
@[simp] theorem State.updSess_abortCount : (s.updSess k h).abortCount = s.abortCount := rfl
@[simp] theorem State.updSess_heartbeatAt : (s.updSess k h).heartbeatAt = s.heartbeatAt := rfl
@[simp] theorem State.updSess_net : (s.updSess k h).net = s.net := rfl
@[simp] theorem State.updSess_stations : (s.updSess k h).stations = s.stations := rfl
@[simp] theorem State.updSess_epochAt : (s.updSess k h).epochAt = s.epochAt := rfl
@[simp] theorem State.updSess_spans : (s.updSess k h).spans = s.spans := rfl
@[simp] theorem State.updSess_spanTxns : (s.updSess k h).spanTxns = s.spanTxns := rfl
@[simp] theorem State.updSess_mem : (s.updSess k h).mem = s.mem := rfl
@[simp] theorem State.updSess_presence : (s.updSess k h).presence = s.presence := rfl
@[simp] theorem State.updSess_bad : (s.updSess k h).bad = s.bad := rfl
@[simp] theorem State.updSess_defers : (s.updSess k h).defers = s.defers := rfl
@[simp] theorem State.updSess_sweep : (s.updSess k h).sweep = s.sweep := rfl
@[simp] theorem State.updSess_locks : (s.updSess k h).locks = s.locks := rfl
@[simp] theorem State.updSess_flt : (s.updSess k h).flt = s.flt := rfl
@[simp] theorem State.updSess_wstart : (s.updSess k h).wstart = s.wstart := rfl
@[simp] theorem State.updSess_causeCnt : (s.updSess k h).causeCnt = s.causeCnt := rfl
@[simp] theorem State.updSess_causePersist : (s.updSess k h).causePersist = s.causePersist := rfl
@[simp] theorem State.updSess_census : (s.updSess k h).census = s.census := rfl
@[simp] theorem State.updSess_censusSeen : (s.updSess k h).censusSeen = s.censusSeen := rfl
@[simp] theorem State.updSess_lifetime : (s.updSess k h).lifetime = s.lifetime := rfl
@[simp] theorem State.updSess_retQueue : (s.updSess k h).retQueue = s.retQueue := rfl
@[simp] theorem State.updSess_running : (s.updSess k h).running = s.running := rfl
@[simp] theorem State.updSess_copied : (s.updSess k h).copied = s.copied := rfl
@[simp] theorem State.updSess_committed : (s.updSess k h).committed = s.committed := rfl
@[simp] theorem State.updSess_spareRows : (s.updSess k h).spareRows = s.spareRows := rfl
@[simp] theorem State.updSess_mapRecs : (s.updSess k h).mapRecs = s.mapRecs := rfl
@[simp] theorem State.updSess_queues : (s.updSess k h).queues = s.queues := rfl
@[simp] theorem State.updSess_nextCmd : (s.updSess k h).nextCmd = s.nextCmd := rfl
@[simp] theorem State.updSess_msixMask : (s.updSess k h).msixMask = s.msixMask := rfl
@[simp] theorem State.updSess_fnState : (s.updSess k h).fnState = s.fnState := rfl
@[simp] theorem State.updSess_grants : (s.updSess k h).grants = s.grants := rfl
@[simp] theorem State.updSess_linkState : (s.updSess k h).linkState = s.linkState := rfl
@[simp] theorem State.updSess_crsWindow : (s.updSess k h).crsWindow = s.crsWindow := rfl
@[simp] theorem State.updSess_flrFns : (s.updSess k h).flrFns = s.flrFns := rfl
@[simp] theorem State.updSess_threads : (s.updSess k h).threads = s.threads := rfl
@[simp] theorem State.updSess_mats : (s.updSess k h).mats = s.mats := rfl
@[simp] theorem State.updSess_log : (s.updSess k h).log = s.log := rfl
@[simp] theorem State.updSess_doms : (s.updSess k h).doms = s.doms := rfl
@[simp] theorem State.updSess_ledger : (s.updSess k h).ledger = s.ledger := rfl
@[simp] theorem State.updSess_admitted : (s.updSess k h).admitted = s.admitted := rfl
@[simp] theorem State.updSess_opPhase : (s.updSess k h).opPhase = s.opPhase := rfl
@[simp] theorem State.updSess_ctrs : (s.updSess k h).ctrs = s.ctrs := rfl
@[simp] theorem State.updSess_snapStep : (s.updSess k h).snapStep = s.snapStep := rfl
@[simp] theorem State.updSess_snapAt : (s.updSess k h).snapAt = s.snapAt := rfl
@[simp] theorem State.updSess_snapshot : (s.updSess k h).snapshot = s.snapshot := rfl
@[simp] theorem State.updSess_latched : (s.updSess k h).latched = s.latched := rfl
@[simp] theorem State.updSess_pwrE : (s.updSess k h).pwrE = s.pwrE := rfl
@[simp] theorem State.updSess_pwrSig : (s.updSess k h).pwrSig = s.pwrSig := rfl
@[simp] theorem State.updSess_cfgRec : (s.updSess k h).cfgRec = s.cfgRec := rfl
@[simp] theorem State.updSess_cfgPending : (s.updSess k h).cfgPending = s.cfgPending := rfl
@[simp] theorem State.updSess_idxL : (s.updSess k h).idxL = s.idxL := rfl
@[simp] theorem State.updSess_idxRseq : (s.updSess k h).idxRseq = s.idxRseq := rfl
@[simp] theorem State.updSess_idxLow : (s.updSess k h).idxLow = s.idxLow := rfl
@[simp] theorem State.updSess_mlog : (s.updSess k h).mlog = s.mlog := rfl
@[simp] theorem State.updSess_mAcc : (s.updSess k h).mAcc = s.mAcc := rfl
@[simp] theorem State.updSess_fwInfo : (s.updSess k h).fwInfo = s.fwInfo := rfl
@[simp] theorem State.updSess_quoteCmd : (s.updSess k h).quoteCmd = s.quoteCmd := rfl
@[simp] theorem State.updSess_hashReq : (s.updSess k h).hashReq = s.hashReq := rfl
@[simp] theorem State.updSess_recovery : (s.updSess k h).recovery = s.recovery := rfl
@[simp] theorem State.updSess_dbgData : (s.updSess k h).dbgData = s.dbgData := rfl
@[simp] theorem State.updSess_dbgBusy : (s.updSess k h).dbgBusy = s.dbgBusy := rfl
@[simp] theorem State.updSess_authBuf : (s.updSess k h).authBuf = s.authBuf := rfl
@[simp] theorem State.updSess_authBusy : (s.updSess k h).authBusy = s.authBusy := rfl
@[simp] theorem State.updSess_challengeNo : (s.updSess k h).challengeNo = s.challengeNo := rfl
@[simp] theorem State.updSess_tap : (s.updSess k h).tap = s.tap := rfl
@[simp] theorem State.updSess_free : (s.updSess k h).free = s.free := rfl
@[simp] theorem State.updSess_out : (s.updSess k h).out = s.out := rfl
@[simp] theorem State.updSess_pending : (s.updSess k h).pending = s.pending := rfl
end

section
variable (s : State) (k : Nat) (x : Thread)
@[simp] theorem State.setThr_regs : (s.setThr k x).regs = s.regs := rfl
@[simp] theorem State.setThr_shadow : (s.setThr k x).shadow = s.shadow := rfl
@[simp] theorem State.setThr_locked : (s.setThr k x).locked = s.locked := rfl
@[simp] theorem State.setThr_variant : (s.setThr k x).variant = s.variant := rfl
@[simp] theorem State.setThr_stepping : (s.setThr k x).stepping = s.stepping := rfl
@[simp] theorem State.setThr_lifecycle : (s.setThr k x).lifecycle = s.lifecycle := rfl
@[simp] theorem State.setThr_svnFloor : (s.setThr k x).svnFloor = s.svnFloor := rfl
@[simp] theorem State.setThr_fwKeyHash : (s.setThr k x).fwKeyHash = s.fwKeyHash := rfl
@[simp] theorem State.setThr_identityOk : (s.setThr k x).identityOk = s.identityOk := rfl
@[simp] theorem State.setThr_now : (s.setThr k x).now = s.now := rfl
@[simp] theorem State.setThr_dawn : (s.setThr k x).dawn = s.dawn := rfl
@[simp] theorem State.setThr_deviceHalted : (s.setThr k x).deviceHalted = s.deviceHalted := rfl
@[simp] theorem State.setThr_injectStop : (s.setThr k x).injectStop = s.injectStop := rfl
@[simp] theorem State.setThr_quiesceStep : (s.setThr k x).quiesceStep = s.quiesceStep := rfl
@[simp] theorem State.setThr_pins : (s.setThr k x).pins = s.pins := rfl
@[simp] theorem State.setThr_ctxs : (s.setThr k x).ctxs = s.ctxs := rfl
@[simp] theorem State.setThr_templates : (s.setThr k x).templates = s.templates := rfl
@[simp] theorem State.setThr_images : (s.setThr k x).images = s.images := rfl
@[simp] theorem State.setThr_stored : (s.setThr k x).stored = s.stored := rfl
@[simp] theorem State.setThr_gateTable : (s.setThr k x).gateTable = s.gateTable := rfl
@[simp] theorem State.setThr_pes : (s.setThr k x).pes = s.pes := rfl
@[simp] theorem State.setThr_clusters : (s.setThr k x).clusters = s.clusters := rfl
@[simp] theorem State.setThr_phs : (s.setThr k x).phs = s.phs := rfl
@[simp] theorem State.setThr_bus : (s.setThr k x).bus = s.bus := rfl
@[simp] theorem State.setThr_phQueue : (s.setThr k x).phQueue = s.phQueue := rfl
@[simp] theorem State.setThr_phNow : (s.setThr k x).phNow = s.phNow := rfl
@[simp] theorem State.setThr_phPast : (s.setThr k x).phPast = s.phPast := rfl
@[simp] theorem State.setThr_exportAt : (s.setThr k x).exportAt = s.exportAt := rfl
@[simp] theorem State.setThr_inputs : (s.setThr k x).inputs = s.inputs := rfl
@[simp] theorem State.setThr_held : (s.setThr k x).held = s.held := rfl
@[simp] theorem State.setThr_ports : (s.setThr k x).ports = s.ports := rfl
@[simp] theorem State.setThr_rings : (s.setThr k x).rings = s.rings := rfl
@[simp] theorem State.setThr_chans : (s.setThr k x).chans = s.chans := rfl
@[simp] theorem State.setThr_schedU : (s.setThr k x).schedU = s.schedU := rfl
@[simp] theorem State.setThr_schedAt : (s.setThr k x).schedAt = s.schedAt := rfl
@[simp] theorem State.setThr_activeCauses : (s.setThr k x).activeCauses = s.activeCauses := rfl
@[simp] theorem State.setThr_offPending : (s.setThr k x).offPending = s.offPending := rfl
@[simp] theorem State.setThr_abortCount : (s.setThr k x).abortCount = s.abortCount := rfl
@[simp] theorem State.setThr_heartbeatAt : (s.setThr k x).heartbeatAt = s.heartbeatAt := rfl
@[simp] theorem State.setThr_net : (s.setThr k x).net = s.net := rfl
@[simp] theorem State.setThr_stations : (s.setThr k x).stations = s.stations := rfl
@[simp] theorem State.setThr_epochAt : (s.setThr k x).epochAt = s.epochAt := rfl
@[simp] theorem State.setThr_spans : (s.setThr k x).spans = s.spans := rfl
@[simp] theorem State.setThr_spanTxns : (s.setThr k x).spanTxns = s.spanTxns := rfl
@[simp] theorem State.setThr_mem : (s.setThr k x).mem = s.mem := rfl
@[simp] theorem State.setThr_presence : (s.setThr k x).presence = s.presence := rfl
@[simp] theorem State.setThr_bad : (s.setThr k x).bad = s.bad := rfl
@[simp] theorem State.setThr_defers : (s.setThr k x).defers = s.defers := rfl
@[simp] theorem State.setThr_sweep : (s.setThr k x).sweep = s.sweep := rfl
@[simp] theorem State.setThr_locks : (s.setThr k x).locks = s.locks := rfl
@[simp] theorem State.setThr_flt : (s.setThr k x).flt = s.flt := rfl
@[simp] theorem State.setThr_wstart : (s.setThr k x).wstart = s.wstart := rfl
@[simp] theorem State.setThr_causeCnt : (s.setThr k x).causeCnt = s.causeCnt := rfl
@[simp] theorem State.setThr_causePersist : (s.setThr k x).causePersist = s.causePersist := rfl
@[simp] theorem State.setThr_census : (s.setThr k x).census = s.census := rfl
@[simp] theorem State.setThr_censusSeen : (s.setThr k x).censusSeen = s.censusSeen := rfl
@[simp] theorem State.setThr_lifetime : (s.setThr k x).lifetime = s.lifetime := rfl
@[simp] theorem State.setThr_retQueue : (s.setThr k x).retQueue = s.retQueue := rfl
@[simp] theorem State.setThr_running : (s.setThr k x).running = s.running := rfl
@[simp] theorem State.setThr_copied : (s.setThr k x).copied = s.copied := rfl
@[simp] theorem State.setThr_committed : (s.setThr k x).committed = s.committed := rfl
@[simp] theorem State.setThr_spareRows : (s.setThr k x).spareRows = s.spareRows := rfl
@[simp] theorem State.setThr_mapRecs : (s.setThr k x).mapRecs = s.mapRecs := rfl
@[simp] theorem State.setThr_queues : (s.setThr k x).queues = s.queues := rfl
@[simp] theorem State.setThr_sessions : (s.setThr k x).sessions = s.sessions := rfl
@[simp] theorem State.setThr_nextCmd : (s.setThr k x).nextCmd = s.nextCmd := rfl
@[simp] theorem State.setThr_msixMask : (s.setThr k x).msixMask = s.msixMask := rfl
@[simp] theorem State.setThr_fnState : (s.setThr k x).fnState = s.fnState := rfl
@[simp] theorem State.setThr_grants : (s.setThr k x).grants = s.grants := rfl
@[simp] theorem State.setThr_linkState : (s.setThr k x).linkState = s.linkState := rfl
@[simp] theorem State.setThr_crsWindow : (s.setThr k x).crsWindow = s.crsWindow := rfl
@[simp] theorem State.setThr_flrFns : (s.setThr k x).flrFns = s.flrFns := rfl
@[simp] theorem State.setThr_mats : (s.setThr k x).mats = s.mats := rfl
@[simp] theorem State.setThr_log : (s.setThr k x).log = s.log := rfl
@[simp] theorem State.setThr_doms : (s.setThr k x).doms = s.doms := rfl
@[simp] theorem State.setThr_ledger : (s.setThr k x).ledger = s.ledger := rfl
@[simp] theorem State.setThr_admitted : (s.setThr k x).admitted = s.admitted := rfl
@[simp] theorem State.setThr_opPhase : (s.setThr k x).opPhase = s.opPhase := rfl
@[simp] theorem State.setThr_ctrs : (s.setThr k x).ctrs = s.ctrs := rfl
@[simp] theorem State.setThr_snapStep : (s.setThr k x).snapStep = s.snapStep := rfl
@[simp] theorem State.setThr_snapAt : (s.setThr k x).snapAt = s.snapAt := rfl
@[simp] theorem State.setThr_snapshot : (s.setThr k x).snapshot = s.snapshot := rfl
@[simp] theorem State.setThr_latched : (s.setThr k x).latched = s.latched := rfl
@[simp] theorem State.setThr_pwrE : (s.setThr k x).pwrE = s.pwrE := rfl
@[simp] theorem State.setThr_pwrSig : (s.setThr k x).pwrSig = s.pwrSig := rfl
@[simp] theorem State.setThr_cfgRec : (s.setThr k x).cfgRec = s.cfgRec := rfl
@[simp] theorem State.setThr_cfgPending : (s.setThr k x).cfgPending = s.cfgPending := rfl
@[simp] theorem State.setThr_idxL : (s.setThr k x).idxL = s.idxL := rfl
@[simp] theorem State.setThr_idxRseq : (s.setThr k x).idxRseq = s.idxRseq := rfl
@[simp] theorem State.setThr_idxLow : (s.setThr k x).idxLow = s.idxLow := rfl
@[simp] theorem State.setThr_mlog : (s.setThr k x).mlog = s.mlog := rfl
@[simp] theorem State.setThr_mAcc : (s.setThr k x).mAcc = s.mAcc := rfl
@[simp] theorem State.setThr_fwInfo : (s.setThr k x).fwInfo = s.fwInfo := rfl
@[simp] theorem State.setThr_quoteCmd : (s.setThr k x).quoteCmd = s.quoteCmd := rfl
@[simp] theorem State.setThr_hashReq : (s.setThr k x).hashReq = s.hashReq := rfl
@[simp] theorem State.setThr_recovery : (s.setThr k x).recovery = s.recovery := rfl
@[simp] theorem State.setThr_dbgData : (s.setThr k x).dbgData = s.dbgData := rfl
@[simp] theorem State.setThr_dbgBusy : (s.setThr k x).dbgBusy = s.dbgBusy := rfl
@[simp] theorem State.setThr_authBuf : (s.setThr k x).authBuf = s.authBuf := rfl
@[simp] theorem State.setThr_authBusy : (s.setThr k x).authBusy = s.authBusy := rfl
@[simp] theorem State.setThr_challengeNo : (s.setThr k x).challengeNo = s.challengeNo := rfl
@[simp] theorem State.setThr_tap : (s.setThr k x).tap = s.tap := rfl
@[simp] theorem State.setThr_free : (s.setThr k x).free = s.free := rfl
@[simp] theorem State.setThr_out : (s.setThr k x).out = s.out := rfl
@[simp] theorem State.setThr_pending : (s.setThr k x).pending = s.pending := rfl
end

section
variable (s : State) (k : Nat) (h : Thread → Thread)
@[simp] theorem State.updThr_regs : (s.updThr k h).regs = s.regs := rfl
@[simp] theorem State.updThr_shadow : (s.updThr k h).shadow = s.shadow := rfl
@[simp] theorem State.updThr_locked : (s.updThr k h).locked = s.locked := rfl
@[simp] theorem State.updThr_variant : (s.updThr k h).variant = s.variant := rfl
@[simp] theorem State.updThr_stepping : (s.updThr k h).stepping = s.stepping := rfl
@[simp] theorem State.updThr_lifecycle : (s.updThr k h).lifecycle = s.lifecycle := rfl
@[simp] theorem State.updThr_svnFloor : (s.updThr k h).svnFloor = s.svnFloor := rfl
@[simp] theorem State.updThr_fwKeyHash : (s.updThr k h).fwKeyHash = s.fwKeyHash := rfl
@[simp] theorem State.updThr_identityOk : (s.updThr k h).identityOk = s.identityOk := rfl
@[simp] theorem State.updThr_now : (s.updThr k h).now = s.now := rfl
@[simp] theorem State.updThr_dawn : (s.updThr k h).dawn = s.dawn := rfl
@[simp] theorem State.updThr_deviceHalted : (s.updThr k h).deviceHalted = s.deviceHalted := rfl
@[simp] theorem State.updThr_injectStop : (s.updThr k h).injectStop = s.injectStop := rfl
@[simp] theorem State.updThr_quiesceStep : (s.updThr k h).quiesceStep = s.quiesceStep := rfl
@[simp] theorem State.updThr_pins : (s.updThr k h).pins = s.pins := rfl
@[simp] theorem State.updThr_ctxs : (s.updThr k h).ctxs = s.ctxs := rfl
@[simp] theorem State.updThr_templates : (s.updThr k h).templates = s.templates := rfl
@[simp] theorem State.updThr_images : (s.updThr k h).images = s.images := rfl
@[simp] theorem State.updThr_stored : (s.updThr k h).stored = s.stored := rfl
@[simp] theorem State.updThr_gateTable : (s.updThr k h).gateTable = s.gateTable := rfl
@[simp] theorem State.updThr_pes : (s.updThr k h).pes = s.pes := rfl
@[simp] theorem State.updThr_clusters : (s.updThr k h).clusters = s.clusters := rfl
@[simp] theorem State.updThr_phs : (s.updThr k h).phs = s.phs := rfl
@[simp] theorem State.updThr_bus : (s.updThr k h).bus = s.bus := rfl
@[simp] theorem State.updThr_phQueue : (s.updThr k h).phQueue = s.phQueue := rfl
@[simp] theorem State.updThr_phNow : (s.updThr k h).phNow = s.phNow := rfl
@[simp] theorem State.updThr_phPast : (s.updThr k h).phPast = s.phPast := rfl
@[simp] theorem State.updThr_exportAt : (s.updThr k h).exportAt = s.exportAt := rfl
@[simp] theorem State.updThr_inputs : (s.updThr k h).inputs = s.inputs := rfl
@[simp] theorem State.updThr_held : (s.updThr k h).held = s.held := rfl
@[simp] theorem State.updThr_ports : (s.updThr k h).ports = s.ports := rfl
@[simp] theorem State.updThr_rings : (s.updThr k h).rings = s.rings := rfl
@[simp] theorem State.updThr_chans : (s.updThr k h).chans = s.chans := rfl
@[simp] theorem State.updThr_schedU : (s.updThr k h).schedU = s.schedU := rfl
@[simp] theorem State.updThr_schedAt : (s.updThr k h).schedAt = s.schedAt := rfl
@[simp] theorem State.updThr_activeCauses : (s.updThr k h).activeCauses = s.activeCauses := rfl
@[simp] theorem State.updThr_offPending : (s.updThr k h).offPending = s.offPending := rfl
@[simp] theorem State.updThr_abortCount : (s.updThr k h).abortCount = s.abortCount := rfl
@[simp] theorem State.updThr_heartbeatAt : (s.updThr k h).heartbeatAt = s.heartbeatAt := rfl
@[simp] theorem State.updThr_net : (s.updThr k h).net = s.net := rfl
@[simp] theorem State.updThr_stations : (s.updThr k h).stations = s.stations := rfl
@[simp] theorem State.updThr_epochAt : (s.updThr k h).epochAt = s.epochAt := rfl
@[simp] theorem State.updThr_spans : (s.updThr k h).spans = s.spans := rfl
@[simp] theorem State.updThr_spanTxns : (s.updThr k h).spanTxns = s.spanTxns := rfl
@[simp] theorem State.updThr_mem : (s.updThr k h).mem = s.mem := rfl
@[simp] theorem State.updThr_presence : (s.updThr k h).presence = s.presence := rfl
@[simp] theorem State.updThr_bad : (s.updThr k h).bad = s.bad := rfl
@[simp] theorem State.updThr_defers : (s.updThr k h).defers = s.defers := rfl
@[simp] theorem State.updThr_sweep : (s.updThr k h).sweep = s.sweep := rfl
@[simp] theorem State.updThr_locks : (s.updThr k h).locks = s.locks := rfl
@[simp] theorem State.updThr_flt : (s.updThr k h).flt = s.flt := rfl
@[simp] theorem State.updThr_wstart : (s.updThr k h).wstart = s.wstart := rfl
@[simp] theorem State.updThr_causeCnt : (s.updThr k h).causeCnt = s.causeCnt := rfl
@[simp] theorem State.updThr_causePersist : (s.updThr k h).causePersist = s.causePersist := rfl
@[simp] theorem State.updThr_census : (s.updThr k h).census = s.census := rfl
@[simp] theorem State.updThr_censusSeen : (s.updThr k h).censusSeen = s.censusSeen := rfl
@[simp] theorem State.updThr_lifetime : (s.updThr k h).lifetime = s.lifetime := rfl
@[simp] theorem State.updThr_retQueue : (s.updThr k h).retQueue = s.retQueue := rfl
@[simp] theorem State.updThr_running : (s.updThr k h).running = s.running := rfl
@[simp] theorem State.updThr_copied : (s.updThr k h).copied = s.copied := rfl
@[simp] theorem State.updThr_committed : (s.updThr k h).committed = s.committed := rfl
@[simp] theorem State.updThr_spareRows : (s.updThr k h).spareRows = s.spareRows := rfl
@[simp] theorem State.updThr_mapRecs : (s.updThr k h).mapRecs = s.mapRecs := rfl
@[simp] theorem State.updThr_queues : (s.updThr k h).queues = s.queues := rfl
@[simp] theorem State.updThr_sessions : (s.updThr k h).sessions = s.sessions := rfl
@[simp] theorem State.updThr_nextCmd : (s.updThr k h).nextCmd = s.nextCmd := rfl
@[simp] theorem State.updThr_msixMask : (s.updThr k h).msixMask = s.msixMask := rfl
@[simp] theorem State.updThr_fnState : (s.updThr k h).fnState = s.fnState := rfl
@[simp] theorem State.updThr_grants : (s.updThr k h).grants = s.grants := rfl
@[simp] theorem State.updThr_linkState : (s.updThr k h).linkState = s.linkState := rfl
@[simp] theorem State.updThr_crsWindow : (s.updThr k h).crsWindow = s.crsWindow := rfl
@[simp] theorem State.updThr_flrFns : (s.updThr k h).flrFns = s.flrFns := rfl
@[simp] theorem State.updThr_mats : (s.updThr k h).mats = s.mats := rfl
@[simp] theorem State.updThr_log : (s.updThr k h).log = s.log := rfl
@[simp] theorem State.updThr_doms : (s.updThr k h).doms = s.doms := rfl
@[simp] theorem State.updThr_ledger : (s.updThr k h).ledger = s.ledger := rfl
@[simp] theorem State.updThr_admitted : (s.updThr k h).admitted = s.admitted := rfl
@[simp] theorem State.updThr_opPhase : (s.updThr k h).opPhase = s.opPhase := rfl
@[simp] theorem State.updThr_ctrs : (s.updThr k h).ctrs = s.ctrs := rfl
@[simp] theorem State.updThr_snapStep : (s.updThr k h).snapStep = s.snapStep := rfl
@[simp] theorem State.updThr_snapAt : (s.updThr k h).snapAt = s.snapAt := rfl
@[simp] theorem State.updThr_snapshot : (s.updThr k h).snapshot = s.snapshot := rfl
@[simp] theorem State.updThr_latched : (s.updThr k h).latched = s.latched := rfl
@[simp] theorem State.updThr_pwrE : (s.updThr k h).pwrE = s.pwrE := rfl
@[simp] theorem State.updThr_pwrSig : (s.updThr k h).pwrSig = s.pwrSig := rfl
@[simp] theorem State.updThr_cfgRec : (s.updThr k h).cfgRec = s.cfgRec := rfl
@[simp] theorem State.updThr_cfgPending : (s.updThr k h).cfgPending = s.cfgPending := rfl
@[simp] theorem State.updThr_idxL : (s.updThr k h).idxL = s.idxL := rfl
@[simp] theorem State.updThr_idxRseq : (s.updThr k h).idxRseq = s.idxRseq := rfl
@[simp] theorem State.updThr_idxLow : (s.updThr k h).idxLow = s.idxLow := rfl
@[simp] theorem State.updThr_mlog : (s.updThr k h).mlog = s.mlog := rfl
@[simp] theorem State.updThr_mAcc : (s.updThr k h).mAcc = s.mAcc := rfl
@[simp] theorem State.updThr_fwInfo : (s.updThr k h).fwInfo = s.fwInfo := rfl
@[simp] theorem State.updThr_quoteCmd : (s.updThr k h).quoteCmd = s.quoteCmd := rfl
@[simp] theorem State.updThr_hashReq : (s.updThr k h).hashReq = s.hashReq := rfl
@[simp] theorem State.updThr_recovery : (s.updThr k h).recovery = s.recovery := rfl
@[simp] theorem State.updThr_dbgData : (s.updThr k h).dbgData = s.dbgData := rfl
@[simp] theorem State.updThr_dbgBusy : (s.updThr k h).dbgBusy = s.dbgBusy := rfl
@[simp] theorem State.updThr_authBuf : (s.updThr k h).authBuf = s.authBuf := rfl
@[simp] theorem State.updThr_authBusy : (s.updThr k h).authBusy = s.authBusy := rfl
@[simp] theorem State.updThr_challengeNo : (s.updThr k h).challengeNo = s.challengeNo := rfl
@[simp] theorem State.updThr_tap : (s.updThr k h).tap = s.tap := rfl
@[simp] theorem State.updThr_free : (s.updThr k h).free = s.free := rfl
@[simp] theorem State.updThr_out : (s.updThr k h).out = s.out := rfl
@[simp] theorem State.updThr_pending : (s.updThr k h).pending = s.pending := rfl
end

section
variable (s : State) (k : Nat) (x : Mat)
@[simp] theorem State.setMat_regs : (s.setMat k x).regs = s.regs := rfl
@[simp] theorem State.setMat_shadow : (s.setMat k x).shadow = s.shadow := rfl
@[simp] theorem State.setMat_locked : (s.setMat k x).locked = s.locked := rfl
@[simp] theorem State.setMat_variant : (s.setMat k x).variant = s.variant := rfl
@[simp] theorem State.setMat_stepping : (s.setMat k x).stepping = s.stepping := rfl
@[simp] theorem State.setMat_lifecycle : (s.setMat k x).lifecycle = s.lifecycle := rfl
@[simp] theorem State.setMat_svnFloor : (s.setMat k x).svnFloor = s.svnFloor := rfl
@[simp] theorem State.setMat_fwKeyHash : (s.setMat k x).fwKeyHash = s.fwKeyHash := rfl
@[simp] theorem State.setMat_identityOk : (s.setMat k x).identityOk = s.identityOk := rfl
@[simp] theorem State.setMat_now : (s.setMat k x).now = s.now := rfl
@[simp] theorem State.setMat_dawn : (s.setMat k x).dawn = s.dawn := rfl
@[simp] theorem State.setMat_deviceHalted : (s.setMat k x).deviceHalted = s.deviceHalted := rfl
@[simp] theorem State.setMat_injectStop : (s.setMat k x).injectStop = s.injectStop := rfl
@[simp] theorem State.setMat_quiesceStep : (s.setMat k x).quiesceStep = s.quiesceStep := rfl
@[simp] theorem State.setMat_pins : (s.setMat k x).pins = s.pins := rfl
@[simp] theorem State.setMat_ctxs : (s.setMat k x).ctxs = s.ctxs := rfl
@[simp] theorem State.setMat_templates : (s.setMat k x).templates = s.templates := rfl
@[simp] theorem State.setMat_images : (s.setMat k x).images = s.images := rfl
@[simp] theorem State.setMat_stored : (s.setMat k x).stored = s.stored := rfl
@[simp] theorem State.setMat_gateTable : (s.setMat k x).gateTable = s.gateTable := rfl
@[simp] theorem State.setMat_pes : (s.setMat k x).pes = s.pes := rfl
@[simp] theorem State.setMat_clusters : (s.setMat k x).clusters = s.clusters := rfl
@[simp] theorem State.setMat_phs : (s.setMat k x).phs = s.phs := rfl
@[simp] theorem State.setMat_bus : (s.setMat k x).bus = s.bus := rfl
@[simp] theorem State.setMat_phQueue : (s.setMat k x).phQueue = s.phQueue := rfl
@[simp] theorem State.setMat_phNow : (s.setMat k x).phNow = s.phNow := rfl
@[simp] theorem State.setMat_phPast : (s.setMat k x).phPast = s.phPast := rfl
@[simp] theorem State.setMat_exportAt : (s.setMat k x).exportAt = s.exportAt := rfl
@[simp] theorem State.setMat_inputs : (s.setMat k x).inputs = s.inputs := rfl
@[simp] theorem State.setMat_held : (s.setMat k x).held = s.held := rfl
@[simp] theorem State.setMat_ports : (s.setMat k x).ports = s.ports := rfl
@[simp] theorem State.setMat_rings : (s.setMat k x).rings = s.rings := rfl
@[simp] theorem State.setMat_chans : (s.setMat k x).chans = s.chans := rfl
@[simp] theorem State.setMat_schedU : (s.setMat k x).schedU = s.schedU := rfl
@[simp] theorem State.setMat_schedAt : (s.setMat k x).schedAt = s.schedAt := rfl
@[simp] theorem State.setMat_activeCauses : (s.setMat k x).activeCauses = s.activeCauses := rfl
@[simp] theorem State.setMat_offPending : (s.setMat k x).offPending = s.offPending := rfl
@[simp] theorem State.setMat_abortCount : (s.setMat k x).abortCount = s.abortCount := rfl
@[simp] theorem State.setMat_heartbeatAt : (s.setMat k x).heartbeatAt = s.heartbeatAt := rfl
@[simp] theorem State.setMat_net : (s.setMat k x).net = s.net := rfl
@[simp] theorem State.setMat_stations : (s.setMat k x).stations = s.stations := rfl
@[simp] theorem State.setMat_epochAt : (s.setMat k x).epochAt = s.epochAt := rfl
@[simp] theorem State.setMat_spans : (s.setMat k x).spans = s.spans := rfl
@[simp] theorem State.setMat_spanTxns : (s.setMat k x).spanTxns = s.spanTxns := rfl
@[simp] theorem State.setMat_mem : (s.setMat k x).mem = s.mem := rfl
@[simp] theorem State.setMat_presence : (s.setMat k x).presence = s.presence := rfl
@[simp] theorem State.setMat_bad : (s.setMat k x).bad = s.bad := rfl
@[simp] theorem State.setMat_defers : (s.setMat k x).defers = s.defers := rfl
@[simp] theorem State.setMat_sweep : (s.setMat k x).sweep = s.sweep := rfl
@[simp] theorem State.setMat_locks : (s.setMat k x).locks = s.locks := rfl
@[simp] theorem State.setMat_flt : (s.setMat k x).flt = s.flt := rfl
@[simp] theorem State.setMat_wstart : (s.setMat k x).wstart = s.wstart := rfl
@[simp] theorem State.setMat_causeCnt : (s.setMat k x).causeCnt = s.causeCnt := rfl
@[simp] theorem State.setMat_causePersist : (s.setMat k x).causePersist = s.causePersist := rfl
@[simp] theorem State.setMat_census : (s.setMat k x).census = s.census := rfl
@[simp] theorem State.setMat_censusSeen : (s.setMat k x).censusSeen = s.censusSeen := rfl
@[simp] theorem State.setMat_lifetime : (s.setMat k x).lifetime = s.lifetime := rfl
@[simp] theorem State.setMat_retQueue : (s.setMat k x).retQueue = s.retQueue := rfl
@[simp] theorem State.setMat_running : (s.setMat k x).running = s.running := rfl
@[simp] theorem State.setMat_copied : (s.setMat k x).copied = s.copied := rfl
@[simp] theorem State.setMat_committed : (s.setMat k x).committed = s.committed := rfl
@[simp] theorem State.setMat_spareRows : (s.setMat k x).spareRows = s.spareRows := rfl
@[simp] theorem State.setMat_mapRecs : (s.setMat k x).mapRecs = s.mapRecs := rfl
@[simp] theorem State.setMat_queues : (s.setMat k x).queues = s.queues := rfl
@[simp] theorem State.setMat_sessions : (s.setMat k x).sessions = s.sessions := rfl
@[simp] theorem State.setMat_nextCmd : (s.setMat k x).nextCmd = s.nextCmd := rfl
@[simp] theorem State.setMat_msixMask : (s.setMat k x).msixMask = s.msixMask := rfl
@[simp] theorem State.setMat_fnState : (s.setMat k x).fnState = s.fnState := rfl
@[simp] theorem State.setMat_grants : (s.setMat k x).grants = s.grants := rfl
@[simp] theorem State.setMat_linkState : (s.setMat k x).linkState = s.linkState := rfl
@[simp] theorem State.setMat_crsWindow : (s.setMat k x).crsWindow = s.crsWindow := rfl
@[simp] theorem State.setMat_flrFns : (s.setMat k x).flrFns = s.flrFns := rfl
@[simp] theorem State.setMat_threads : (s.setMat k x).threads = s.threads := rfl
@[simp] theorem State.setMat_log : (s.setMat k x).log = s.log := rfl
@[simp] theorem State.setMat_doms : (s.setMat k x).doms = s.doms := rfl
@[simp] theorem State.setMat_ledger : (s.setMat k x).ledger = s.ledger := rfl
@[simp] theorem State.setMat_admitted : (s.setMat k x).admitted = s.admitted := rfl
@[simp] theorem State.setMat_opPhase : (s.setMat k x).opPhase = s.opPhase := rfl
@[simp] theorem State.setMat_ctrs : (s.setMat k x).ctrs = s.ctrs := rfl
@[simp] theorem State.setMat_snapStep : (s.setMat k x).snapStep = s.snapStep := rfl
@[simp] theorem State.setMat_snapAt : (s.setMat k x).snapAt = s.snapAt := rfl
@[simp] theorem State.setMat_snapshot : (s.setMat k x).snapshot = s.snapshot := rfl
@[simp] theorem State.setMat_latched : (s.setMat k x).latched = s.latched := rfl
@[simp] theorem State.setMat_pwrE : (s.setMat k x).pwrE = s.pwrE := rfl
@[simp] theorem State.setMat_pwrSig : (s.setMat k x).pwrSig = s.pwrSig := rfl
@[simp] theorem State.setMat_cfgRec : (s.setMat k x).cfgRec = s.cfgRec := rfl
@[simp] theorem State.setMat_cfgPending : (s.setMat k x).cfgPending = s.cfgPending := rfl
@[simp] theorem State.setMat_idxL : (s.setMat k x).idxL = s.idxL := rfl
@[simp] theorem State.setMat_idxRseq : (s.setMat k x).idxRseq = s.idxRseq := rfl
@[simp] theorem State.setMat_idxLow : (s.setMat k x).idxLow = s.idxLow := rfl
@[simp] theorem State.setMat_mlog : (s.setMat k x).mlog = s.mlog := rfl
@[simp] theorem State.setMat_mAcc : (s.setMat k x).mAcc = s.mAcc := rfl
@[simp] theorem State.setMat_fwInfo : (s.setMat k x).fwInfo = s.fwInfo := rfl
@[simp] theorem State.setMat_quoteCmd : (s.setMat k x).quoteCmd = s.quoteCmd := rfl
@[simp] theorem State.setMat_hashReq : (s.setMat k x).hashReq = s.hashReq := rfl
@[simp] theorem State.setMat_recovery : (s.setMat k x).recovery = s.recovery := rfl
@[simp] theorem State.setMat_dbgData : (s.setMat k x).dbgData = s.dbgData := rfl
@[simp] theorem State.setMat_dbgBusy : (s.setMat k x).dbgBusy = s.dbgBusy := rfl
@[simp] theorem State.setMat_authBuf : (s.setMat k x).authBuf = s.authBuf := rfl
@[simp] theorem State.setMat_authBusy : (s.setMat k x).authBusy = s.authBusy := rfl
@[simp] theorem State.setMat_challengeNo : (s.setMat k x).challengeNo = s.challengeNo := rfl
@[simp] theorem State.setMat_tap : (s.setMat k x).tap = s.tap := rfl
@[simp] theorem State.setMat_free : (s.setMat k x).free = s.free := rfl
@[simp] theorem State.setMat_out : (s.setMat k x).out = s.out := rfl
@[simp] theorem State.setMat_pending : (s.setMat k x).pending = s.pending := rfl
end

section
variable (s : State) (k : Nat) (h : Mat → Mat)
@[simp] theorem State.updMat_regs : (s.updMat k h).regs = s.regs := rfl
@[simp] theorem State.updMat_shadow : (s.updMat k h).shadow = s.shadow := rfl
@[simp] theorem State.updMat_locked : (s.updMat k h).locked = s.locked := rfl
@[simp] theorem State.updMat_variant : (s.updMat k h).variant = s.variant := rfl
@[simp] theorem State.updMat_stepping : (s.updMat k h).stepping = s.stepping := rfl
@[simp] theorem State.updMat_lifecycle : (s.updMat k h).lifecycle = s.lifecycle := rfl
@[simp] theorem State.updMat_svnFloor : (s.updMat k h).svnFloor = s.svnFloor := rfl
@[simp] theorem State.updMat_fwKeyHash : (s.updMat k h).fwKeyHash = s.fwKeyHash := rfl
@[simp] theorem State.updMat_identityOk : (s.updMat k h).identityOk = s.identityOk := rfl
@[simp] theorem State.updMat_now : (s.updMat k h).now = s.now := rfl
@[simp] theorem State.updMat_dawn : (s.updMat k h).dawn = s.dawn := rfl
@[simp] theorem State.updMat_deviceHalted : (s.updMat k h).deviceHalted = s.deviceHalted := rfl
@[simp] theorem State.updMat_injectStop : (s.updMat k h).injectStop = s.injectStop := rfl
@[simp] theorem State.updMat_quiesceStep : (s.updMat k h).quiesceStep = s.quiesceStep := rfl
@[simp] theorem State.updMat_pins : (s.updMat k h).pins = s.pins := rfl
@[simp] theorem State.updMat_ctxs : (s.updMat k h).ctxs = s.ctxs := rfl
@[simp] theorem State.updMat_templates : (s.updMat k h).templates = s.templates := rfl
@[simp] theorem State.updMat_images : (s.updMat k h).images = s.images := rfl
@[simp] theorem State.updMat_stored : (s.updMat k h).stored = s.stored := rfl
@[simp] theorem State.updMat_gateTable : (s.updMat k h).gateTable = s.gateTable := rfl
@[simp] theorem State.updMat_pes : (s.updMat k h).pes = s.pes := rfl
@[simp] theorem State.updMat_clusters : (s.updMat k h).clusters = s.clusters := rfl
@[simp] theorem State.updMat_phs : (s.updMat k h).phs = s.phs := rfl
@[simp] theorem State.updMat_bus : (s.updMat k h).bus = s.bus := rfl
@[simp] theorem State.updMat_phQueue : (s.updMat k h).phQueue = s.phQueue := rfl
@[simp] theorem State.updMat_phNow : (s.updMat k h).phNow = s.phNow := rfl
@[simp] theorem State.updMat_phPast : (s.updMat k h).phPast = s.phPast := rfl
@[simp] theorem State.updMat_exportAt : (s.updMat k h).exportAt = s.exportAt := rfl
@[simp] theorem State.updMat_inputs : (s.updMat k h).inputs = s.inputs := rfl
@[simp] theorem State.updMat_held : (s.updMat k h).held = s.held := rfl
@[simp] theorem State.updMat_ports : (s.updMat k h).ports = s.ports := rfl
@[simp] theorem State.updMat_rings : (s.updMat k h).rings = s.rings := rfl
@[simp] theorem State.updMat_chans : (s.updMat k h).chans = s.chans := rfl
@[simp] theorem State.updMat_schedU : (s.updMat k h).schedU = s.schedU := rfl
@[simp] theorem State.updMat_schedAt : (s.updMat k h).schedAt = s.schedAt := rfl
@[simp] theorem State.updMat_activeCauses : (s.updMat k h).activeCauses = s.activeCauses := rfl
@[simp] theorem State.updMat_offPending : (s.updMat k h).offPending = s.offPending := rfl
@[simp] theorem State.updMat_abortCount : (s.updMat k h).abortCount = s.abortCount := rfl
@[simp] theorem State.updMat_heartbeatAt : (s.updMat k h).heartbeatAt = s.heartbeatAt := rfl
@[simp] theorem State.updMat_net : (s.updMat k h).net = s.net := rfl
@[simp] theorem State.updMat_stations : (s.updMat k h).stations = s.stations := rfl
@[simp] theorem State.updMat_epochAt : (s.updMat k h).epochAt = s.epochAt := rfl
@[simp] theorem State.updMat_spans : (s.updMat k h).spans = s.spans := rfl
@[simp] theorem State.updMat_spanTxns : (s.updMat k h).spanTxns = s.spanTxns := rfl
@[simp] theorem State.updMat_mem : (s.updMat k h).mem = s.mem := rfl
@[simp] theorem State.updMat_presence : (s.updMat k h).presence = s.presence := rfl
@[simp] theorem State.updMat_bad : (s.updMat k h).bad = s.bad := rfl
@[simp] theorem State.updMat_defers : (s.updMat k h).defers = s.defers := rfl
@[simp] theorem State.updMat_sweep : (s.updMat k h).sweep = s.sweep := rfl
@[simp] theorem State.updMat_locks : (s.updMat k h).locks = s.locks := rfl
@[simp] theorem State.updMat_flt : (s.updMat k h).flt = s.flt := rfl
@[simp] theorem State.updMat_wstart : (s.updMat k h).wstart = s.wstart := rfl
@[simp] theorem State.updMat_causeCnt : (s.updMat k h).causeCnt = s.causeCnt := rfl
@[simp] theorem State.updMat_causePersist : (s.updMat k h).causePersist = s.causePersist := rfl
@[simp] theorem State.updMat_census : (s.updMat k h).census = s.census := rfl
@[simp] theorem State.updMat_censusSeen : (s.updMat k h).censusSeen = s.censusSeen := rfl
@[simp] theorem State.updMat_lifetime : (s.updMat k h).lifetime = s.lifetime := rfl
@[simp] theorem State.updMat_retQueue : (s.updMat k h).retQueue = s.retQueue := rfl
@[simp] theorem State.updMat_running : (s.updMat k h).running = s.running := rfl
@[simp] theorem State.updMat_copied : (s.updMat k h).copied = s.copied := rfl
@[simp] theorem State.updMat_committed : (s.updMat k h).committed = s.committed := rfl
@[simp] theorem State.updMat_spareRows : (s.updMat k h).spareRows = s.spareRows := rfl
@[simp] theorem State.updMat_mapRecs : (s.updMat k h).mapRecs = s.mapRecs := rfl
@[simp] theorem State.updMat_queues : (s.updMat k h).queues = s.queues := rfl
@[simp] theorem State.updMat_sessions : (s.updMat k h).sessions = s.sessions := rfl
@[simp] theorem State.updMat_nextCmd : (s.updMat k h).nextCmd = s.nextCmd := rfl
@[simp] theorem State.updMat_msixMask : (s.updMat k h).msixMask = s.msixMask := rfl
@[simp] theorem State.updMat_fnState : (s.updMat k h).fnState = s.fnState := rfl
@[simp] theorem State.updMat_grants : (s.updMat k h).grants = s.grants := rfl
@[simp] theorem State.updMat_linkState : (s.updMat k h).linkState = s.linkState := rfl
@[simp] theorem State.updMat_crsWindow : (s.updMat k h).crsWindow = s.crsWindow := rfl
@[simp] theorem State.updMat_flrFns : (s.updMat k h).flrFns = s.flrFns := rfl
@[simp] theorem State.updMat_threads : (s.updMat k h).threads = s.threads := rfl
@[simp] theorem State.updMat_log : (s.updMat k h).log = s.log := rfl
@[simp] theorem State.updMat_doms : (s.updMat k h).doms = s.doms := rfl
@[simp] theorem State.updMat_ledger : (s.updMat k h).ledger = s.ledger := rfl
@[simp] theorem State.updMat_admitted : (s.updMat k h).admitted = s.admitted := rfl
@[simp] theorem State.updMat_opPhase : (s.updMat k h).opPhase = s.opPhase := rfl
@[simp] theorem State.updMat_ctrs : (s.updMat k h).ctrs = s.ctrs := rfl
@[simp] theorem State.updMat_snapStep : (s.updMat k h).snapStep = s.snapStep := rfl
@[simp] theorem State.updMat_snapAt : (s.updMat k h).snapAt = s.snapAt := rfl
@[simp] theorem State.updMat_snapshot : (s.updMat k h).snapshot = s.snapshot := rfl
@[simp] theorem State.updMat_latched : (s.updMat k h).latched = s.latched := rfl
@[simp] theorem State.updMat_pwrE : (s.updMat k h).pwrE = s.pwrE := rfl
@[simp] theorem State.updMat_pwrSig : (s.updMat k h).pwrSig = s.pwrSig := rfl
@[simp] theorem State.updMat_cfgRec : (s.updMat k h).cfgRec = s.cfgRec := rfl
@[simp] theorem State.updMat_cfgPending : (s.updMat k h).cfgPending = s.cfgPending := rfl
@[simp] theorem State.updMat_idxL : (s.updMat k h).idxL = s.idxL := rfl
@[simp] theorem State.updMat_idxRseq : (s.updMat k h).idxRseq = s.idxRseq := rfl
@[simp] theorem State.updMat_idxLow : (s.updMat k h).idxLow = s.idxLow := rfl
@[simp] theorem State.updMat_mlog : (s.updMat k h).mlog = s.mlog := rfl
@[simp] theorem State.updMat_mAcc : (s.updMat k h).mAcc = s.mAcc := rfl
@[simp] theorem State.updMat_fwInfo : (s.updMat k h).fwInfo = s.fwInfo := rfl
@[simp] theorem State.updMat_quoteCmd : (s.updMat k h).quoteCmd = s.quoteCmd := rfl
@[simp] theorem State.updMat_hashReq : (s.updMat k h).hashReq = s.hashReq := rfl
@[simp] theorem State.updMat_recovery : (s.updMat k h).recovery = s.recovery := rfl
@[simp] theorem State.updMat_dbgData : (s.updMat k h).dbgData = s.dbgData := rfl
@[simp] theorem State.updMat_dbgBusy : (s.updMat k h).dbgBusy = s.dbgBusy := rfl
@[simp] theorem State.updMat_authBuf : (s.updMat k h).authBuf = s.authBuf := rfl
@[simp] theorem State.updMat_authBusy : (s.updMat k h).authBusy = s.authBusy := rfl
@[simp] theorem State.updMat_challengeNo : (s.updMat k h).challengeNo = s.challengeNo := rfl
@[simp] theorem State.updMat_tap : (s.updMat k h).tap = s.tap := rfl
@[simp] theorem State.updMat_free : (s.updMat k h).free = s.free := rfl
@[simp] theorem State.updMat_out : (s.updMat k h).out = s.out := rfl
@[simp] theorem State.updMat_pending : (s.updMat k h).pending = s.pending := rfl
end

section
variable (s : State) (f : Fld) (v : Nat)
@[simp] theorem put_shadow : (put s f v).shadow = s.shadow := rfl
@[simp] theorem put_locked : (put s f v).locked = s.locked := rfl
@[simp] theorem put_variant : (put s f v).variant = s.variant := rfl
@[simp] theorem put_stepping : (put s f v).stepping = s.stepping := rfl
@[simp] theorem put_lifecycle : (put s f v).lifecycle = s.lifecycle := rfl
@[simp] theorem put_svnFloor : (put s f v).svnFloor = s.svnFloor := rfl
@[simp] theorem put_fwKeyHash : (put s f v).fwKeyHash = s.fwKeyHash := rfl
@[simp] theorem put_identityOk : (put s f v).identityOk = s.identityOk := rfl
@[simp] theorem put_now : (put s f v).now = s.now := rfl
@[simp] theorem put_dawn : (put s f v).dawn = s.dawn := rfl
@[simp] theorem put_deviceHalted : (put s f v).deviceHalted = s.deviceHalted := rfl
@[simp] theorem put_injectStop : (put s f v).injectStop = s.injectStop := rfl
@[simp] theorem put_quiesceStep : (put s f v).quiesceStep = s.quiesceStep := rfl
@[simp] theorem put_pins : (put s f v).pins = s.pins := rfl
@[simp] theorem put_ctxs : (put s f v).ctxs = s.ctxs := rfl
@[simp] theorem put_templates : (put s f v).templates = s.templates := rfl
@[simp] theorem put_images : (put s f v).images = s.images := rfl
@[simp] theorem put_stored : (put s f v).stored = s.stored := rfl
@[simp] theorem put_gateTable : (put s f v).gateTable = s.gateTable := rfl
@[simp] theorem put_pes : (put s f v).pes = s.pes := rfl
@[simp] theorem put_clusters : (put s f v).clusters = s.clusters := rfl
@[simp] theorem put_phs : (put s f v).phs = s.phs := rfl
@[simp] theorem put_bus : (put s f v).bus = s.bus := rfl
@[simp] theorem put_phQueue : (put s f v).phQueue = s.phQueue := rfl
@[simp] theorem put_phNow : (put s f v).phNow = s.phNow := rfl
@[simp] theorem put_phPast : (put s f v).phPast = s.phPast := rfl
@[simp] theorem put_exportAt : (put s f v).exportAt = s.exportAt := rfl
@[simp] theorem put_inputs : (put s f v).inputs = s.inputs := rfl
@[simp] theorem put_held : (put s f v).held = s.held := rfl
@[simp] theorem put_ports : (put s f v).ports = s.ports := rfl
@[simp] theorem put_rings : (put s f v).rings = s.rings := rfl
@[simp] theorem put_chans : (put s f v).chans = s.chans := rfl
@[simp] theorem put_schedU : (put s f v).schedU = s.schedU := rfl
@[simp] theorem put_schedAt : (put s f v).schedAt = s.schedAt := rfl
@[simp] theorem put_activeCauses : (put s f v).activeCauses = s.activeCauses := rfl
@[simp] theorem put_offPending : (put s f v).offPending = s.offPending := rfl
@[simp] theorem put_abortCount : (put s f v).abortCount = s.abortCount := rfl
@[simp] theorem put_heartbeatAt : (put s f v).heartbeatAt = s.heartbeatAt := rfl
@[simp] theorem put_net : (put s f v).net = s.net := rfl
@[simp] theorem put_stations : (put s f v).stations = s.stations := rfl
@[simp] theorem put_epochAt : (put s f v).epochAt = s.epochAt := rfl
@[simp] theorem put_spans : (put s f v).spans = s.spans := rfl
@[simp] theorem put_spanTxns : (put s f v).spanTxns = s.spanTxns := rfl
@[simp] theorem put_mem : (put s f v).mem = s.mem := rfl
@[simp] theorem put_presence : (put s f v).presence = s.presence := rfl
@[simp] theorem put_bad : (put s f v).bad = s.bad := rfl
@[simp] theorem put_defers : (put s f v).defers = s.defers := rfl
@[simp] theorem put_sweep : (put s f v).sweep = s.sweep := rfl
@[simp] theorem put_locks : (put s f v).locks = s.locks := rfl
@[simp] theorem put_flt : (put s f v).flt = s.flt := rfl
@[simp] theorem put_wstart : (put s f v).wstart = s.wstart := rfl
@[simp] theorem put_causeCnt : (put s f v).causeCnt = s.causeCnt := rfl
@[simp] theorem put_causePersist : (put s f v).causePersist = s.causePersist := rfl
@[simp] theorem put_census : (put s f v).census = s.census := rfl
@[simp] theorem put_censusSeen : (put s f v).censusSeen = s.censusSeen := rfl
@[simp] theorem put_lifetime : (put s f v).lifetime = s.lifetime := rfl
@[simp] theorem put_retQueue : (put s f v).retQueue = s.retQueue := rfl
@[simp] theorem put_running : (put s f v).running = s.running := rfl
@[simp] theorem put_copied : (put s f v).copied = s.copied := rfl
@[simp] theorem put_committed : (put s f v).committed = s.committed := rfl
@[simp] theorem put_spareRows : (put s f v).spareRows = s.spareRows := rfl
@[simp] theorem put_mapRecs : (put s f v).mapRecs = s.mapRecs := rfl
@[simp] theorem put_queues : (put s f v).queues = s.queues := rfl
@[simp] theorem put_sessions : (put s f v).sessions = s.sessions := rfl
@[simp] theorem put_nextCmd : (put s f v).nextCmd = s.nextCmd := rfl
@[simp] theorem put_msixMask : (put s f v).msixMask = s.msixMask := rfl
@[simp] theorem put_fnState : (put s f v).fnState = s.fnState := rfl
@[simp] theorem put_grants : (put s f v).grants = s.grants := rfl
@[simp] theorem put_linkState : (put s f v).linkState = s.linkState := rfl
@[simp] theorem put_crsWindow : (put s f v).crsWindow = s.crsWindow := rfl
@[simp] theorem put_flrFns : (put s f v).flrFns = s.flrFns := rfl
@[simp] theorem put_threads : (put s f v).threads = s.threads := rfl
@[simp] theorem put_mats : (put s f v).mats = s.mats := rfl
@[simp] theorem put_log : (put s f v).log = s.log := rfl
@[simp] theorem put_doms : (put s f v).doms = s.doms := rfl
@[simp] theorem put_ledger : (put s f v).ledger = s.ledger := rfl
@[simp] theorem put_admitted : (put s f v).admitted = s.admitted := rfl
@[simp] theorem put_opPhase : (put s f v).opPhase = s.opPhase := rfl
@[simp] theorem put_ctrs : (put s f v).ctrs = s.ctrs := rfl
@[simp] theorem put_snapStep : (put s f v).snapStep = s.snapStep := rfl
@[simp] theorem put_snapAt : (put s f v).snapAt = s.snapAt := rfl
@[simp] theorem put_snapshot : (put s f v).snapshot = s.snapshot := rfl
@[simp] theorem put_latched : (put s f v).latched = s.latched := rfl
@[simp] theorem put_pwrE : (put s f v).pwrE = s.pwrE := rfl
@[simp] theorem put_pwrSig : (put s f v).pwrSig = s.pwrSig := rfl
@[simp] theorem put_cfgRec : (put s f v).cfgRec = s.cfgRec := rfl
@[simp] theorem put_cfgPending : (put s f v).cfgPending = s.cfgPending := rfl
@[simp] theorem put_idxL : (put s f v).idxL = s.idxL := rfl
@[simp] theorem put_idxRseq : (put s f v).idxRseq = s.idxRseq := rfl
@[simp] theorem put_idxLow : (put s f v).idxLow = s.idxLow := rfl
@[simp] theorem put_mlog : (put s f v).mlog = s.mlog := rfl
@[simp] theorem put_mAcc : (put s f v).mAcc = s.mAcc := rfl
@[simp] theorem put_fwInfo : (put s f v).fwInfo = s.fwInfo := rfl
@[simp] theorem put_quoteCmd : (put s f v).quoteCmd = s.quoteCmd := rfl
@[simp] theorem put_hashReq : (put s f v).hashReq = s.hashReq := rfl
@[simp] theorem put_recovery : (put s f v).recovery = s.recovery := rfl
@[simp] theorem put_dbgData : (put s f v).dbgData = s.dbgData := rfl
@[simp] theorem put_dbgBusy : (put s f v).dbgBusy = s.dbgBusy := rfl
@[simp] theorem put_authBuf : (put s f v).authBuf = s.authBuf := rfl
@[simp] theorem put_authBusy : (put s f v).authBusy = s.authBusy := rfl
@[simp] theorem put_challengeNo : (put s f v).challengeNo = s.challengeNo := rfl
@[simp] theorem put_tap : (put s f v).tap = s.tap := rfl
@[simp] theorem put_free : (put s f v).free = s.free := rfl
@[simp] theorem put_out : (put s f v).out = s.out := rfl
@[simp] theorem put_pending : (put s f v).pending = s.pending := rfl
end

section
variable (s : State) (f : Fld) (v : Nat)
@[simp] theorem putSat_shadow : (putSat s f v).shadow = s.shadow := rfl
@[simp] theorem putSat_locked : (putSat s f v).locked = s.locked := rfl
@[simp] theorem putSat_variant : (putSat s f v).variant = s.variant := rfl
@[simp] theorem putSat_stepping : (putSat s f v).stepping = s.stepping := rfl
@[simp] theorem putSat_lifecycle : (putSat s f v).lifecycle = s.lifecycle := rfl
@[simp] theorem putSat_svnFloor : (putSat s f v).svnFloor = s.svnFloor := rfl
@[simp] theorem putSat_fwKeyHash : (putSat s f v).fwKeyHash = s.fwKeyHash := rfl
@[simp] theorem putSat_identityOk : (putSat s f v).identityOk = s.identityOk := rfl
@[simp] theorem putSat_now : (putSat s f v).now = s.now := rfl
@[simp] theorem putSat_dawn : (putSat s f v).dawn = s.dawn := rfl
@[simp] theorem putSat_deviceHalted : (putSat s f v).deviceHalted = s.deviceHalted := rfl
@[simp] theorem putSat_injectStop : (putSat s f v).injectStop = s.injectStop := rfl
@[simp] theorem putSat_quiesceStep : (putSat s f v).quiesceStep = s.quiesceStep := rfl
@[simp] theorem putSat_pins : (putSat s f v).pins = s.pins := rfl
@[simp] theorem putSat_ctxs : (putSat s f v).ctxs = s.ctxs := rfl
@[simp] theorem putSat_templates : (putSat s f v).templates = s.templates := rfl
@[simp] theorem putSat_images : (putSat s f v).images = s.images := rfl
@[simp] theorem putSat_stored : (putSat s f v).stored = s.stored := rfl
@[simp] theorem putSat_gateTable : (putSat s f v).gateTable = s.gateTable := rfl
@[simp] theorem putSat_pes : (putSat s f v).pes = s.pes := rfl
@[simp] theorem putSat_clusters : (putSat s f v).clusters = s.clusters := rfl
@[simp] theorem putSat_phs : (putSat s f v).phs = s.phs := rfl
@[simp] theorem putSat_bus : (putSat s f v).bus = s.bus := rfl
@[simp] theorem putSat_phQueue : (putSat s f v).phQueue = s.phQueue := rfl
@[simp] theorem putSat_phNow : (putSat s f v).phNow = s.phNow := rfl
@[simp] theorem putSat_phPast : (putSat s f v).phPast = s.phPast := rfl
@[simp] theorem putSat_exportAt : (putSat s f v).exportAt = s.exportAt := rfl
@[simp] theorem putSat_inputs : (putSat s f v).inputs = s.inputs := rfl
@[simp] theorem putSat_held : (putSat s f v).held = s.held := rfl
@[simp] theorem putSat_ports : (putSat s f v).ports = s.ports := rfl
@[simp] theorem putSat_rings : (putSat s f v).rings = s.rings := rfl
@[simp] theorem putSat_chans : (putSat s f v).chans = s.chans := rfl
@[simp] theorem putSat_schedU : (putSat s f v).schedU = s.schedU := rfl
@[simp] theorem putSat_schedAt : (putSat s f v).schedAt = s.schedAt := rfl
@[simp] theorem putSat_activeCauses : (putSat s f v).activeCauses = s.activeCauses := rfl
@[simp] theorem putSat_offPending : (putSat s f v).offPending = s.offPending := rfl
@[simp] theorem putSat_abortCount : (putSat s f v).abortCount = s.abortCount := rfl
@[simp] theorem putSat_heartbeatAt : (putSat s f v).heartbeatAt = s.heartbeatAt := rfl
@[simp] theorem putSat_net : (putSat s f v).net = s.net := rfl
@[simp] theorem putSat_stations : (putSat s f v).stations = s.stations := rfl
@[simp] theorem putSat_epochAt : (putSat s f v).epochAt = s.epochAt := rfl
@[simp] theorem putSat_spans : (putSat s f v).spans = s.spans := rfl
@[simp] theorem putSat_spanTxns : (putSat s f v).spanTxns = s.spanTxns := rfl
@[simp] theorem putSat_mem : (putSat s f v).mem = s.mem := rfl
@[simp] theorem putSat_presence : (putSat s f v).presence = s.presence := rfl
@[simp] theorem putSat_bad : (putSat s f v).bad = s.bad := rfl
@[simp] theorem putSat_defers : (putSat s f v).defers = s.defers := rfl
@[simp] theorem putSat_sweep : (putSat s f v).sweep = s.sweep := rfl
@[simp] theorem putSat_locks : (putSat s f v).locks = s.locks := rfl
@[simp] theorem putSat_flt : (putSat s f v).flt = s.flt := rfl
@[simp] theorem putSat_wstart : (putSat s f v).wstart = s.wstart := rfl
@[simp] theorem putSat_causeCnt : (putSat s f v).causeCnt = s.causeCnt := rfl
@[simp] theorem putSat_causePersist : (putSat s f v).causePersist = s.causePersist := rfl
@[simp] theorem putSat_census : (putSat s f v).census = s.census := rfl
@[simp] theorem putSat_censusSeen : (putSat s f v).censusSeen = s.censusSeen := rfl
@[simp] theorem putSat_lifetime : (putSat s f v).lifetime = s.lifetime := rfl
@[simp] theorem putSat_retQueue : (putSat s f v).retQueue = s.retQueue := rfl
@[simp] theorem putSat_running : (putSat s f v).running = s.running := rfl
@[simp] theorem putSat_copied : (putSat s f v).copied = s.copied := rfl
@[simp] theorem putSat_committed : (putSat s f v).committed = s.committed := rfl
@[simp] theorem putSat_spareRows : (putSat s f v).spareRows = s.spareRows := rfl
@[simp] theorem putSat_mapRecs : (putSat s f v).mapRecs = s.mapRecs := rfl
@[simp] theorem putSat_queues : (putSat s f v).queues = s.queues := rfl
@[simp] theorem putSat_sessions : (putSat s f v).sessions = s.sessions := rfl
@[simp] theorem putSat_nextCmd : (putSat s f v).nextCmd = s.nextCmd := rfl
@[simp] theorem putSat_msixMask : (putSat s f v).msixMask = s.msixMask := rfl
@[simp] theorem putSat_fnState : (putSat s f v).fnState = s.fnState := rfl
@[simp] theorem putSat_grants : (putSat s f v).grants = s.grants := rfl
@[simp] theorem putSat_linkState : (putSat s f v).linkState = s.linkState := rfl
@[simp] theorem putSat_crsWindow : (putSat s f v).crsWindow = s.crsWindow := rfl
@[simp] theorem putSat_flrFns : (putSat s f v).flrFns = s.flrFns := rfl
@[simp] theorem putSat_threads : (putSat s f v).threads = s.threads := rfl
@[simp] theorem putSat_mats : (putSat s f v).mats = s.mats := rfl
@[simp] theorem putSat_log : (putSat s f v).log = s.log := rfl
@[simp] theorem putSat_doms : (putSat s f v).doms = s.doms := rfl
@[simp] theorem putSat_ledger : (putSat s f v).ledger = s.ledger := rfl
@[simp] theorem putSat_admitted : (putSat s f v).admitted = s.admitted := rfl
@[simp] theorem putSat_opPhase : (putSat s f v).opPhase = s.opPhase := rfl
@[simp] theorem putSat_ctrs : (putSat s f v).ctrs = s.ctrs := rfl
@[simp] theorem putSat_snapStep : (putSat s f v).snapStep = s.snapStep := rfl
@[simp] theorem putSat_snapAt : (putSat s f v).snapAt = s.snapAt := rfl
@[simp] theorem putSat_snapshot : (putSat s f v).snapshot = s.snapshot := rfl
@[simp] theorem putSat_latched : (putSat s f v).latched = s.latched := rfl
@[simp] theorem putSat_pwrE : (putSat s f v).pwrE = s.pwrE := rfl
@[simp] theorem putSat_pwrSig : (putSat s f v).pwrSig = s.pwrSig := rfl
@[simp] theorem putSat_cfgRec : (putSat s f v).cfgRec = s.cfgRec := rfl
@[simp] theorem putSat_cfgPending : (putSat s f v).cfgPending = s.cfgPending := rfl
@[simp] theorem putSat_idxL : (putSat s f v).idxL = s.idxL := rfl
@[simp] theorem putSat_idxRseq : (putSat s f v).idxRseq = s.idxRseq := rfl
@[simp] theorem putSat_idxLow : (putSat s f v).idxLow = s.idxLow := rfl
@[simp] theorem putSat_mlog : (putSat s f v).mlog = s.mlog := rfl
@[simp] theorem putSat_mAcc : (putSat s f v).mAcc = s.mAcc := rfl
@[simp] theorem putSat_fwInfo : (putSat s f v).fwInfo = s.fwInfo := rfl
@[simp] theorem putSat_quoteCmd : (putSat s f v).quoteCmd = s.quoteCmd := rfl
@[simp] theorem putSat_hashReq : (putSat s f v).hashReq = s.hashReq := rfl
@[simp] theorem putSat_recovery : (putSat s f v).recovery = s.recovery := rfl
@[simp] theorem putSat_dbgData : (putSat s f v).dbgData = s.dbgData := rfl
@[simp] theorem putSat_dbgBusy : (putSat s f v).dbgBusy = s.dbgBusy := rfl
@[simp] theorem putSat_authBuf : (putSat s f v).authBuf = s.authBuf := rfl
@[simp] theorem putSat_authBusy : (putSat s f v).authBusy = s.authBusy := rfl
@[simp] theorem putSat_challengeNo : (putSat s f v).challengeNo = s.challengeNo := rfl
@[simp] theorem putSat_tap : (putSat s f v).tap = s.tap := rfl
@[simp] theorem putSat_free : (putSat s f v).free = s.free := rfl
@[simp] theorem putSat_out : (putSat s f v).out = s.out := rfl
@[simp] theorem putSat_pending : (putSat s f v).pending = s.pending := rfl
end

section
variable (s : State) (f : Fld) (v : Nat)
@[simp] theorem putOr_shadow : (putOr s f v).shadow = s.shadow := rfl
@[simp] theorem putOr_locked : (putOr s f v).locked = s.locked := rfl
@[simp] theorem putOr_variant : (putOr s f v).variant = s.variant := rfl
@[simp] theorem putOr_stepping : (putOr s f v).stepping = s.stepping := rfl
@[simp] theorem putOr_lifecycle : (putOr s f v).lifecycle = s.lifecycle := rfl
@[simp] theorem putOr_svnFloor : (putOr s f v).svnFloor = s.svnFloor := rfl
@[simp] theorem putOr_fwKeyHash : (putOr s f v).fwKeyHash = s.fwKeyHash := rfl
@[simp] theorem putOr_identityOk : (putOr s f v).identityOk = s.identityOk := rfl
@[simp] theorem putOr_now : (putOr s f v).now = s.now := rfl
@[simp] theorem putOr_dawn : (putOr s f v).dawn = s.dawn := rfl
@[simp] theorem putOr_deviceHalted : (putOr s f v).deviceHalted = s.deviceHalted := rfl
@[simp] theorem putOr_injectStop : (putOr s f v).injectStop = s.injectStop := rfl
@[simp] theorem putOr_quiesceStep : (putOr s f v).quiesceStep = s.quiesceStep := rfl
@[simp] theorem putOr_pins : (putOr s f v).pins = s.pins := rfl
@[simp] theorem putOr_ctxs : (putOr s f v).ctxs = s.ctxs := rfl
@[simp] theorem putOr_templates : (putOr s f v).templates = s.templates := rfl
@[simp] theorem putOr_images : (putOr s f v).images = s.images := rfl
@[simp] theorem putOr_stored : (putOr s f v).stored = s.stored := rfl
@[simp] theorem putOr_gateTable : (putOr s f v).gateTable = s.gateTable := rfl
@[simp] theorem putOr_pes : (putOr s f v).pes = s.pes := rfl
@[simp] theorem putOr_clusters : (putOr s f v).clusters = s.clusters := rfl
@[simp] theorem putOr_phs : (putOr s f v).phs = s.phs := rfl
@[simp] theorem putOr_bus : (putOr s f v).bus = s.bus := rfl
@[simp] theorem putOr_phQueue : (putOr s f v).phQueue = s.phQueue := rfl
@[simp] theorem putOr_phNow : (putOr s f v).phNow = s.phNow := rfl
@[simp] theorem putOr_phPast : (putOr s f v).phPast = s.phPast := rfl
@[simp] theorem putOr_exportAt : (putOr s f v).exportAt = s.exportAt := rfl
@[simp] theorem putOr_inputs : (putOr s f v).inputs = s.inputs := rfl
@[simp] theorem putOr_held : (putOr s f v).held = s.held := rfl
@[simp] theorem putOr_ports : (putOr s f v).ports = s.ports := rfl
@[simp] theorem putOr_rings : (putOr s f v).rings = s.rings := rfl
@[simp] theorem putOr_chans : (putOr s f v).chans = s.chans := rfl
@[simp] theorem putOr_schedU : (putOr s f v).schedU = s.schedU := rfl
@[simp] theorem putOr_schedAt : (putOr s f v).schedAt = s.schedAt := rfl
@[simp] theorem putOr_activeCauses : (putOr s f v).activeCauses = s.activeCauses := rfl
@[simp] theorem putOr_offPending : (putOr s f v).offPending = s.offPending := rfl
@[simp] theorem putOr_abortCount : (putOr s f v).abortCount = s.abortCount := rfl
@[simp] theorem putOr_heartbeatAt : (putOr s f v).heartbeatAt = s.heartbeatAt := rfl
@[simp] theorem putOr_net : (putOr s f v).net = s.net := rfl
@[simp] theorem putOr_stations : (putOr s f v).stations = s.stations := rfl
@[simp] theorem putOr_epochAt : (putOr s f v).epochAt = s.epochAt := rfl
@[simp] theorem putOr_spans : (putOr s f v).spans = s.spans := rfl
@[simp] theorem putOr_spanTxns : (putOr s f v).spanTxns = s.spanTxns := rfl
@[simp] theorem putOr_mem : (putOr s f v).mem = s.mem := rfl
@[simp] theorem putOr_presence : (putOr s f v).presence = s.presence := rfl
@[simp] theorem putOr_bad : (putOr s f v).bad = s.bad := rfl
@[simp] theorem putOr_defers : (putOr s f v).defers = s.defers := rfl
@[simp] theorem putOr_sweep : (putOr s f v).sweep = s.sweep := rfl
@[simp] theorem putOr_locks : (putOr s f v).locks = s.locks := rfl
@[simp] theorem putOr_flt : (putOr s f v).flt = s.flt := rfl
@[simp] theorem putOr_wstart : (putOr s f v).wstart = s.wstart := rfl
@[simp] theorem putOr_causeCnt : (putOr s f v).causeCnt = s.causeCnt := rfl
@[simp] theorem putOr_causePersist : (putOr s f v).causePersist = s.causePersist := rfl
@[simp] theorem putOr_census : (putOr s f v).census = s.census := rfl
@[simp] theorem putOr_censusSeen : (putOr s f v).censusSeen = s.censusSeen := rfl
@[simp] theorem putOr_lifetime : (putOr s f v).lifetime = s.lifetime := rfl
@[simp] theorem putOr_retQueue : (putOr s f v).retQueue = s.retQueue := rfl
@[simp] theorem putOr_running : (putOr s f v).running = s.running := rfl
@[simp] theorem putOr_copied : (putOr s f v).copied = s.copied := rfl
@[simp] theorem putOr_committed : (putOr s f v).committed = s.committed := rfl
@[simp] theorem putOr_spareRows : (putOr s f v).spareRows = s.spareRows := rfl
@[simp] theorem putOr_mapRecs : (putOr s f v).mapRecs = s.mapRecs := rfl
@[simp] theorem putOr_queues : (putOr s f v).queues = s.queues := rfl
@[simp] theorem putOr_sessions : (putOr s f v).sessions = s.sessions := rfl
@[simp] theorem putOr_nextCmd : (putOr s f v).nextCmd = s.nextCmd := rfl
@[simp] theorem putOr_msixMask : (putOr s f v).msixMask = s.msixMask := rfl
@[simp] theorem putOr_fnState : (putOr s f v).fnState = s.fnState := rfl
@[simp] theorem putOr_grants : (putOr s f v).grants = s.grants := rfl
@[simp] theorem putOr_linkState : (putOr s f v).linkState = s.linkState := rfl
@[simp] theorem putOr_crsWindow : (putOr s f v).crsWindow = s.crsWindow := rfl
@[simp] theorem putOr_flrFns : (putOr s f v).flrFns = s.flrFns := rfl
@[simp] theorem putOr_threads : (putOr s f v).threads = s.threads := rfl
@[simp] theorem putOr_mats : (putOr s f v).mats = s.mats := rfl
@[simp] theorem putOr_log : (putOr s f v).log = s.log := rfl
@[simp] theorem putOr_doms : (putOr s f v).doms = s.doms := rfl
@[simp] theorem putOr_ledger : (putOr s f v).ledger = s.ledger := rfl
@[simp] theorem putOr_admitted : (putOr s f v).admitted = s.admitted := rfl
@[simp] theorem putOr_opPhase : (putOr s f v).opPhase = s.opPhase := rfl
@[simp] theorem putOr_ctrs : (putOr s f v).ctrs = s.ctrs := rfl
@[simp] theorem putOr_snapStep : (putOr s f v).snapStep = s.snapStep := rfl
@[simp] theorem putOr_snapAt : (putOr s f v).snapAt = s.snapAt := rfl
@[simp] theorem putOr_snapshot : (putOr s f v).snapshot = s.snapshot := rfl
@[simp] theorem putOr_latched : (putOr s f v).latched = s.latched := rfl
@[simp] theorem putOr_pwrE : (putOr s f v).pwrE = s.pwrE := rfl
@[simp] theorem putOr_pwrSig : (putOr s f v).pwrSig = s.pwrSig := rfl
@[simp] theorem putOr_cfgRec : (putOr s f v).cfgRec = s.cfgRec := rfl
@[simp] theorem putOr_cfgPending : (putOr s f v).cfgPending = s.cfgPending := rfl
@[simp] theorem putOr_idxL : (putOr s f v).idxL = s.idxL := rfl
@[simp] theorem putOr_idxRseq : (putOr s f v).idxRseq = s.idxRseq := rfl
@[simp] theorem putOr_idxLow : (putOr s f v).idxLow = s.idxLow := rfl
@[simp] theorem putOr_mlog : (putOr s f v).mlog = s.mlog := rfl
@[simp] theorem putOr_mAcc : (putOr s f v).mAcc = s.mAcc := rfl
@[simp] theorem putOr_fwInfo : (putOr s f v).fwInfo = s.fwInfo := rfl
@[simp] theorem putOr_quoteCmd : (putOr s f v).quoteCmd = s.quoteCmd := rfl
@[simp] theorem putOr_hashReq : (putOr s f v).hashReq = s.hashReq := rfl
@[simp] theorem putOr_recovery : (putOr s f v).recovery = s.recovery := rfl
@[simp] theorem putOr_dbgData : (putOr s f v).dbgData = s.dbgData := rfl
@[simp] theorem putOr_dbgBusy : (putOr s f v).dbgBusy = s.dbgBusy := rfl
@[simp] theorem putOr_authBuf : (putOr s f v).authBuf = s.authBuf := rfl
@[simp] theorem putOr_authBusy : (putOr s f v).authBusy = s.authBusy := rfl
@[simp] theorem putOr_challengeNo : (putOr s f v).challengeNo = s.challengeNo := rfl
@[simp] theorem putOr_tap : (putOr s f v).tap = s.tap := rfl
@[simp] theorem putOr_free : (putOr s f v).free = s.free := rfl
@[simp] theorem putOr_out : (putOr s f v).out = s.out := rfl
@[simp] theorem putOr_pending : (putOr s f v).pending = s.pending := rfl
end

section
variable (s : State) (o : Output)
@[simp] theorem emitOut_regs : (emitOut o s).regs = s.regs := rfl
@[simp] theorem emitOut_shadow : (emitOut o s).shadow = s.shadow := rfl
@[simp] theorem emitOut_locked : (emitOut o s).locked = s.locked := rfl
@[simp] theorem emitOut_variant : (emitOut o s).variant = s.variant := rfl
@[simp] theorem emitOut_stepping : (emitOut o s).stepping = s.stepping := rfl
@[simp] theorem emitOut_lifecycle : (emitOut o s).lifecycle = s.lifecycle := rfl
@[simp] theorem emitOut_svnFloor : (emitOut o s).svnFloor = s.svnFloor := rfl
@[simp] theorem emitOut_fwKeyHash : (emitOut o s).fwKeyHash = s.fwKeyHash := rfl
@[simp] theorem emitOut_identityOk : (emitOut o s).identityOk = s.identityOk := rfl
@[simp] theorem emitOut_now : (emitOut o s).now = s.now := rfl
@[simp] theorem emitOut_dawn : (emitOut o s).dawn = s.dawn := rfl
@[simp] theorem emitOut_deviceHalted : (emitOut o s).deviceHalted = s.deviceHalted := rfl
@[simp] theorem emitOut_injectStop : (emitOut o s).injectStop = s.injectStop := rfl
@[simp] theorem emitOut_quiesceStep : (emitOut o s).quiesceStep = s.quiesceStep := rfl
@[simp] theorem emitOut_pins : (emitOut o s).pins = s.pins := rfl
@[simp] theorem emitOut_ctxs : (emitOut o s).ctxs = s.ctxs := rfl
@[simp] theorem emitOut_templates : (emitOut o s).templates = s.templates := rfl
@[simp] theorem emitOut_images : (emitOut o s).images = s.images := rfl
@[simp] theorem emitOut_stored : (emitOut o s).stored = s.stored := rfl
@[simp] theorem emitOut_gateTable : (emitOut o s).gateTable = s.gateTable := rfl
@[simp] theorem emitOut_pes : (emitOut o s).pes = s.pes := rfl
@[simp] theorem emitOut_clusters : (emitOut o s).clusters = s.clusters := rfl
@[simp] theorem emitOut_phs : (emitOut o s).phs = s.phs := rfl
@[simp] theorem emitOut_bus : (emitOut o s).bus = s.bus := rfl
@[simp] theorem emitOut_phQueue : (emitOut o s).phQueue = s.phQueue := rfl
@[simp] theorem emitOut_phNow : (emitOut o s).phNow = s.phNow := rfl
@[simp] theorem emitOut_phPast : (emitOut o s).phPast = s.phPast := rfl
@[simp] theorem emitOut_exportAt : (emitOut o s).exportAt = s.exportAt := rfl
@[simp] theorem emitOut_inputs : (emitOut o s).inputs = s.inputs := rfl
@[simp] theorem emitOut_held : (emitOut o s).held = s.held := rfl
@[simp] theorem emitOut_ports : (emitOut o s).ports = s.ports := rfl
@[simp] theorem emitOut_rings : (emitOut o s).rings = s.rings := rfl
@[simp] theorem emitOut_chans : (emitOut o s).chans = s.chans := rfl
@[simp] theorem emitOut_schedU : (emitOut o s).schedU = s.schedU := rfl
@[simp] theorem emitOut_schedAt : (emitOut o s).schedAt = s.schedAt := rfl
@[simp] theorem emitOut_activeCauses : (emitOut o s).activeCauses = s.activeCauses := rfl
@[simp] theorem emitOut_offPending : (emitOut o s).offPending = s.offPending := rfl
@[simp] theorem emitOut_abortCount : (emitOut o s).abortCount = s.abortCount := rfl
@[simp] theorem emitOut_heartbeatAt : (emitOut o s).heartbeatAt = s.heartbeatAt := rfl
@[simp] theorem emitOut_net : (emitOut o s).net = s.net := rfl
@[simp] theorem emitOut_stations : (emitOut o s).stations = s.stations := rfl
@[simp] theorem emitOut_epochAt : (emitOut o s).epochAt = s.epochAt := rfl
@[simp] theorem emitOut_spans : (emitOut o s).spans = s.spans := rfl
@[simp] theorem emitOut_spanTxns : (emitOut o s).spanTxns = s.spanTxns := rfl
@[simp] theorem emitOut_mem : (emitOut o s).mem = s.mem := rfl
@[simp] theorem emitOut_presence : (emitOut o s).presence = s.presence := rfl
@[simp] theorem emitOut_bad : (emitOut o s).bad = s.bad := rfl
@[simp] theorem emitOut_defers : (emitOut o s).defers = s.defers := rfl
@[simp] theorem emitOut_sweep : (emitOut o s).sweep = s.sweep := rfl
@[simp] theorem emitOut_locks : (emitOut o s).locks = s.locks := rfl
@[simp] theorem emitOut_flt : (emitOut o s).flt = s.flt := rfl
@[simp] theorem emitOut_wstart : (emitOut o s).wstart = s.wstart := rfl
@[simp] theorem emitOut_causeCnt : (emitOut o s).causeCnt = s.causeCnt := rfl
@[simp] theorem emitOut_causePersist : (emitOut o s).causePersist = s.causePersist := rfl
@[simp] theorem emitOut_census : (emitOut o s).census = s.census := rfl
@[simp] theorem emitOut_censusSeen : (emitOut o s).censusSeen = s.censusSeen := rfl
@[simp] theorem emitOut_lifetime : (emitOut o s).lifetime = s.lifetime := rfl
@[simp] theorem emitOut_retQueue : (emitOut o s).retQueue = s.retQueue := rfl
@[simp] theorem emitOut_running : (emitOut o s).running = s.running := rfl
@[simp] theorem emitOut_copied : (emitOut o s).copied = s.copied := rfl
@[simp] theorem emitOut_committed : (emitOut o s).committed = s.committed := rfl
@[simp] theorem emitOut_spareRows : (emitOut o s).spareRows = s.spareRows := rfl
@[simp] theorem emitOut_mapRecs : (emitOut o s).mapRecs = s.mapRecs := rfl
@[simp] theorem emitOut_queues : (emitOut o s).queues = s.queues := rfl
@[simp] theorem emitOut_sessions : (emitOut o s).sessions = s.sessions := rfl
@[simp] theorem emitOut_nextCmd : (emitOut o s).nextCmd = s.nextCmd := rfl
@[simp] theorem emitOut_msixMask : (emitOut o s).msixMask = s.msixMask := rfl
@[simp] theorem emitOut_fnState : (emitOut o s).fnState = s.fnState := rfl
@[simp] theorem emitOut_grants : (emitOut o s).grants = s.grants := rfl
@[simp] theorem emitOut_linkState : (emitOut o s).linkState = s.linkState := rfl
@[simp] theorem emitOut_crsWindow : (emitOut o s).crsWindow = s.crsWindow := rfl
@[simp] theorem emitOut_flrFns : (emitOut o s).flrFns = s.flrFns := rfl
@[simp] theorem emitOut_threads : (emitOut o s).threads = s.threads := rfl
@[simp] theorem emitOut_mats : (emitOut o s).mats = s.mats := rfl
@[simp] theorem emitOut_log : (emitOut o s).log = s.log := rfl
@[simp] theorem emitOut_doms : (emitOut o s).doms = s.doms := rfl
@[simp] theorem emitOut_ledger : (emitOut o s).ledger = s.ledger := rfl
@[simp] theorem emitOut_admitted : (emitOut o s).admitted = s.admitted := rfl
@[simp] theorem emitOut_opPhase : (emitOut o s).opPhase = s.opPhase := rfl
@[simp] theorem emitOut_ctrs : (emitOut o s).ctrs = s.ctrs := rfl
@[simp] theorem emitOut_snapStep : (emitOut o s).snapStep = s.snapStep := rfl
@[simp] theorem emitOut_snapAt : (emitOut o s).snapAt = s.snapAt := rfl
@[simp] theorem emitOut_snapshot : (emitOut o s).snapshot = s.snapshot := rfl
@[simp] theorem emitOut_latched : (emitOut o s).latched = s.latched := rfl
@[simp] theorem emitOut_pwrE : (emitOut o s).pwrE = s.pwrE := rfl
@[simp] theorem emitOut_pwrSig : (emitOut o s).pwrSig = s.pwrSig := rfl
@[simp] theorem emitOut_cfgRec : (emitOut o s).cfgRec = s.cfgRec := rfl
@[simp] theorem emitOut_cfgPending : (emitOut o s).cfgPending = s.cfgPending := rfl
@[simp] theorem emitOut_idxL : (emitOut o s).idxL = s.idxL := rfl
@[simp] theorem emitOut_idxRseq : (emitOut o s).idxRseq = s.idxRseq := rfl
@[simp] theorem emitOut_idxLow : (emitOut o s).idxLow = s.idxLow := rfl
@[simp] theorem emitOut_mlog : (emitOut o s).mlog = s.mlog := rfl
@[simp] theorem emitOut_mAcc : (emitOut o s).mAcc = s.mAcc := rfl
@[simp] theorem emitOut_fwInfo : (emitOut o s).fwInfo = s.fwInfo := rfl
@[simp] theorem emitOut_quoteCmd : (emitOut o s).quoteCmd = s.quoteCmd := rfl
@[simp] theorem emitOut_hashReq : (emitOut o s).hashReq = s.hashReq := rfl
@[simp] theorem emitOut_recovery : (emitOut o s).recovery = s.recovery := rfl
@[simp] theorem emitOut_dbgData : (emitOut o s).dbgData = s.dbgData := rfl
@[simp] theorem emitOut_dbgBusy : (emitOut o s).dbgBusy = s.dbgBusy := rfl
@[simp] theorem emitOut_authBuf : (emitOut o s).authBuf = s.authBuf := rfl
@[simp] theorem emitOut_authBusy : (emitOut o s).authBusy = s.authBusy := rfl
@[simp] theorem emitOut_challengeNo : (emitOut o s).challengeNo = s.challengeNo := rfl
@[simp] theorem emitOut_tap : (emitOut o s).tap = s.tap := rfl
@[simp] theorem emitOut_free : (emitOut o s).free = s.free := rfl
@[simp] theorem emitOut_pending : (emitOut o s).pending = s.pending := rfl
end

section
variable (s : State) (f : LogSt → LogSt)
@[simp] theorem updLog_regs : (updLog f s).regs = s.regs := rfl
@[simp] theorem updLog_shadow : (updLog f s).shadow = s.shadow := rfl
@[simp] theorem updLog_locked : (updLog f s).locked = s.locked := rfl
@[simp] theorem updLog_variant : (updLog f s).variant = s.variant := rfl
@[simp] theorem updLog_stepping : (updLog f s).stepping = s.stepping := rfl
@[simp] theorem updLog_lifecycle : (updLog f s).lifecycle = s.lifecycle := rfl
@[simp] theorem updLog_svnFloor : (updLog f s).svnFloor = s.svnFloor := rfl
@[simp] theorem updLog_fwKeyHash : (updLog f s).fwKeyHash = s.fwKeyHash := rfl
@[simp] theorem updLog_identityOk : (updLog f s).identityOk = s.identityOk := rfl
@[simp] theorem updLog_now : (updLog f s).now = s.now := rfl
@[simp] theorem updLog_dawn : (updLog f s).dawn = s.dawn := rfl
@[simp] theorem updLog_deviceHalted : (updLog f s).deviceHalted = s.deviceHalted := rfl
@[simp] theorem updLog_injectStop : (updLog f s).injectStop = s.injectStop := rfl
@[simp] theorem updLog_quiesceStep : (updLog f s).quiesceStep = s.quiesceStep := rfl
@[simp] theorem updLog_pins : (updLog f s).pins = s.pins := rfl
@[simp] theorem updLog_ctxs : (updLog f s).ctxs = s.ctxs := rfl
@[simp] theorem updLog_templates : (updLog f s).templates = s.templates := rfl
@[simp] theorem updLog_images : (updLog f s).images = s.images := rfl
@[simp] theorem updLog_stored : (updLog f s).stored = s.stored := rfl
@[simp] theorem updLog_gateTable : (updLog f s).gateTable = s.gateTable := rfl
@[simp] theorem updLog_pes : (updLog f s).pes = s.pes := rfl
@[simp] theorem updLog_clusters : (updLog f s).clusters = s.clusters := rfl
@[simp] theorem updLog_phs : (updLog f s).phs = s.phs := rfl
@[simp] theorem updLog_bus : (updLog f s).bus = s.bus := rfl
@[simp] theorem updLog_phQueue : (updLog f s).phQueue = s.phQueue := rfl
@[simp] theorem updLog_phNow : (updLog f s).phNow = s.phNow := rfl
@[simp] theorem updLog_phPast : (updLog f s).phPast = s.phPast := rfl
@[simp] theorem updLog_exportAt : (updLog f s).exportAt = s.exportAt := rfl
@[simp] theorem updLog_inputs : (updLog f s).inputs = s.inputs := rfl
@[simp] theorem updLog_held : (updLog f s).held = s.held := rfl
@[simp] theorem updLog_ports : (updLog f s).ports = s.ports := rfl
@[simp] theorem updLog_rings : (updLog f s).rings = s.rings := rfl
@[simp] theorem updLog_chans : (updLog f s).chans = s.chans := rfl
@[simp] theorem updLog_schedU : (updLog f s).schedU = s.schedU := rfl
@[simp] theorem updLog_schedAt : (updLog f s).schedAt = s.schedAt := rfl
@[simp] theorem updLog_activeCauses : (updLog f s).activeCauses = s.activeCauses := rfl
@[simp] theorem updLog_offPending : (updLog f s).offPending = s.offPending := rfl
@[simp] theorem updLog_abortCount : (updLog f s).abortCount = s.abortCount := rfl
@[simp] theorem updLog_heartbeatAt : (updLog f s).heartbeatAt = s.heartbeatAt := rfl
@[simp] theorem updLog_net : (updLog f s).net = s.net := rfl
@[simp] theorem updLog_stations : (updLog f s).stations = s.stations := rfl
@[simp] theorem updLog_epochAt : (updLog f s).epochAt = s.epochAt := rfl
@[simp] theorem updLog_spans : (updLog f s).spans = s.spans := rfl
@[simp] theorem updLog_spanTxns : (updLog f s).spanTxns = s.spanTxns := rfl
@[simp] theorem updLog_mem : (updLog f s).mem = s.mem := rfl
@[simp] theorem updLog_presence : (updLog f s).presence = s.presence := rfl
@[simp] theorem updLog_bad : (updLog f s).bad = s.bad := rfl
@[simp] theorem updLog_defers : (updLog f s).defers = s.defers := rfl
@[simp] theorem updLog_sweep : (updLog f s).sweep = s.sweep := rfl
@[simp] theorem updLog_locks : (updLog f s).locks = s.locks := rfl
@[simp] theorem updLog_flt : (updLog f s).flt = s.flt := rfl
@[simp] theorem updLog_wstart : (updLog f s).wstart = s.wstart := rfl
@[simp] theorem updLog_causeCnt : (updLog f s).causeCnt = s.causeCnt := rfl
@[simp] theorem updLog_causePersist : (updLog f s).causePersist = s.causePersist := rfl
@[simp] theorem updLog_census : (updLog f s).census = s.census := rfl
@[simp] theorem updLog_censusSeen : (updLog f s).censusSeen = s.censusSeen := rfl
@[simp] theorem updLog_lifetime : (updLog f s).lifetime = s.lifetime := rfl
@[simp] theorem updLog_retQueue : (updLog f s).retQueue = s.retQueue := rfl
@[simp] theorem updLog_running : (updLog f s).running = s.running := rfl
@[simp] theorem updLog_copied : (updLog f s).copied = s.copied := rfl
@[simp] theorem updLog_committed : (updLog f s).committed = s.committed := rfl
@[simp] theorem updLog_spareRows : (updLog f s).spareRows = s.spareRows := rfl
@[simp] theorem updLog_mapRecs : (updLog f s).mapRecs = s.mapRecs := rfl
@[simp] theorem updLog_queues : (updLog f s).queues = s.queues := rfl
@[simp] theorem updLog_sessions : (updLog f s).sessions = s.sessions := rfl
@[simp] theorem updLog_nextCmd : (updLog f s).nextCmd = s.nextCmd := rfl
@[simp] theorem updLog_msixMask : (updLog f s).msixMask = s.msixMask := rfl
@[simp] theorem updLog_fnState : (updLog f s).fnState = s.fnState := rfl
@[simp] theorem updLog_grants : (updLog f s).grants = s.grants := rfl
@[simp] theorem updLog_linkState : (updLog f s).linkState = s.linkState := rfl
@[simp] theorem updLog_crsWindow : (updLog f s).crsWindow = s.crsWindow := rfl
@[simp] theorem updLog_flrFns : (updLog f s).flrFns = s.flrFns := rfl
@[simp] theorem updLog_threads : (updLog f s).threads = s.threads := rfl
@[simp] theorem updLog_mats : (updLog f s).mats = s.mats := rfl
@[simp] theorem updLog_doms : (updLog f s).doms = s.doms := rfl
@[simp] theorem updLog_ledger : (updLog f s).ledger = s.ledger := rfl
@[simp] theorem updLog_admitted : (updLog f s).admitted = s.admitted := rfl
@[simp] theorem updLog_opPhase : (updLog f s).opPhase = s.opPhase := rfl
@[simp] theorem updLog_ctrs : (updLog f s).ctrs = s.ctrs := rfl
@[simp] theorem updLog_snapStep : (updLog f s).snapStep = s.snapStep := rfl
@[simp] theorem updLog_snapAt : (updLog f s).snapAt = s.snapAt := rfl
@[simp] theorem updLog_snapshot : (updLog f s).snapshot = s.snapshot := rfl
@[simp] theorem updLog_latched : (updLog f s).latched = s.latched := rfl
@[simp] theorem updLog_pwrE : (updLog f s).pwrE = s.pwrE := rfl
@[simp] theorem updLog_pwrSig : (updLog f s).pwrSig = s.pwrSig := rfl
@[simp] theorem updLog_cfgRec : (updLog f s).cfgRec = s.cfgRec := rfl
@[simp] theorem updLog_cfgPending : (updLog f s).cfgPending = s.cfgPending := rfl
@[simp] theorem updLog_idxL : (updLog f s).idxL = s.idxL := rfl
@[simp] theorem updLog_idxRseq : (updLog f s).idxRseq = s.idxRseq := rfl
@[simp] theorem updLog_idxLow : (updLog f s).idxLow = s.idxLow := rfl
@[simp] theorem updLog_mlog : (updLog f s).mlog = s.mlog := rfl
@[simp] theorem updLog_mAcc : (updLog f s).mAcc = s.mAcc := rfl
@[simp] theorem updLog_fwInfo : (updLog f s).fwInfo = s.fwInfo := rfl
@[simp] theorem updLog_quoteCmd : (updLog f s).quoteCmd = s.quoteCmd := rfl
@[simp] theorem updLog_hashReq : (updLog f s).hashReq = s.hashReq := rfl
@[simp] theorem updLog_recovery : (updLog f s).recovery = s.recovery := rfl
@[simp] theorem updLog_dbgData : (updLog f s).dbgData = s.dbgData := rfl
@[simp] theorem updLog_dbgBusy : (updLog f s).dbgBusy = s.dbgBusy := rfl
@[simp] theorem updLog_authBuf : (updLog f s).authBuf = s.authBuf := rfl
@[simp] theorem updLog_authBusy : (updLog f s).authBusy = s.authBusy := rfl
@[simp] theorem updLog_challengeNo : (updLog f s).challengeNo = s.challengeNo := rfl
@[simp] theorem updLog_tap : (updLog f s).tap = s.tap := rfl
@[simp] theorem updLog_free : (updLog f s).free = s.free := rfl
@[simp] theorem updLog_out : (updLog f s).out = s.out := rfl
@[simp] theorem updLog_pending : (updLog f s).pending = s.pending := rfl
end

section
variable (s : State) (d : Nat) (p : DomPhase)
@[simp] theorem setDomPhase_regs : (setDomPhase d p s).regs = s.regs := rfl
@[simp] theorem setDomPhase_shadow : (setDomPhase d p s).shadow = s.shadow := rfl
@[simp] theorem setDomPhase_locked : (setDomPhase d p s).locked = s.locked := rfl
@[simp] theorem setDomPhase_variant : (setDomPhase d p s).variant = s.variant := rfl
@[simp] theorem setDomPhase_stepping : (setDomPhase d p s).stepping = s.stepping := rfl
@[simp] theorem setDomPhase_lifecycle : (setDomPhase d p s).lifecycle = s.lifecycle := rfl
@[simp] theorem setDomPhase_svnFloor : (setDomPhase d p s).svnFloor = s.svnFloor := rfl
@[simp] theorem setDomPhase_fwKeyHash : (setDomPhase d p s).fwKeyHash = s.fwKeyHash := rfl
@[simp] theorem setDomPhase_identityOk : (setDomPhase d p s).identityOk = s.identityOk := rfl
@[simp] theorem setDomPhase_now : (setDomPhase d p s).now = s.now := rfl
@[simp] theorem setDomPhase_dawn : (setDomPhase d p s).dawn = s.dawn := rfl
@[simp] theorem setDomPhase_deviceHalted : (setDomPhase d p s).deviceHalted = s.deviceHalted := rfl
@[simp] theorem setDomPhase_injectStop : (setDomPhase d p s).injectStop = s.injectStop := rfl
@[simp] theorem setDomPhase_quiesceStep : (setDomPhase d p s).quiesceStep = s.quiesceStep := rfl
@[simp] theorem setDomPhase_pins : (setDomPhase d p s).pins = s.pins := rfl
@[simp] theorem setDomPhase_ctxs : (setDomPhase d p s).ctxs = s.ctxs := rfl
@[simp] theorem setDomPhase_templates : (setDomPhase d p s).templates = s.templates := rfl
@[simp] theorem setDomPhase_images : (setDomPhase d p s).images = s.images := rfl
@[simp] theorem setDomPhase_stored : (setDomPhase d p s).stored = s.stored := rfl
@[simp] theorem setDomPhase_gateTable : (setDomPhase d p s).gateTable = s.gateTable := rfl
@[simp] theorem setDomPhase_pes : (setDomPhase d p s).pes = s.pes := rfl
@[simp] theorem setDomPhase_clusters : (setDomPhase d p s).clusters = s.clusters := rfl
@[simp] theorem setDomPhase_phs : (setDomPhase d p s).phs = s.phs := rfl
@[simp] theorem setDomPhase_bus : (setDomPhase d p s).bus = s.bus := rfl
@[simp] theorem setDomPhase_phQueue : (setDomPhase d p s).phQueue = s.phQueue := rfl
@[simp] theorem setDomPhase_phNow : (setDomPhase d p s).phNow = s.phNow := rfl
@[simp] theorem setDomPhase_phPast : (setDomPhase d p s).phPast = s.phPast := rfl
@[simp] theorem setDomPhase_exportAt : (setDomPhase d p s).exportAt = s.exportAt := rfl
@[simp] theorem setDomPhase_inputs : (setDomPhase d p s).inputs = s.inputs := rfl
@[simp] theorem setDomPhase_held : (setDomPhase d p s).held = s.held := rfl
@[simp] theorem setDomPhase_ports : (setDomPhase d p s).ports = s.ports := rfl
@[simp] theorem setDomPhase_rings : (setDomPhase d p s).rings = s.rings := rfl
@[simp] theorem setDomPhase_chans : (setDomPhase d p s).chans = s.chans := rfl
@[simp] theorem setDomPhase_schedU : (setDomPhase d p s).schedU = s.schedU := rfl
@[simp] theorem setDomPhase_schedAt : (setDomPhase d p s).schedAt = s.schedAt := rfl
@[simp] theorem setDomPhase_activeCauses : (setDomPhase d p s).activeCauses = s.activeCauses := rfl
@[simp] theorem setDomPhase_offPending : (setDomPhase d p s).offPending = s.offPending := rfl
@[simp] theorem setDomPhase_abortCount : (setDomPhase d p s).abortCount = s.abortCount := rfl
@[simp] theorem setDomPhase_heartbeatAt : (setDomPhase d p s).heartbeatAt = s.heartbeatAt := rfl
@[simp] theorem setDomPhase_net : (setDomPhase d p s).net = s.net := rfl
@[simp] theorem setDomPhase_stations : (setDomPhase d p s).stations = s.stations := rfl
@[simp] theorem setDomPhase_epochAt : (setDomPhase d p s).epochAt = s.epochAt := rfl
@[simp] theorem setDomPhase_spans : (setDomPhase d p s).spans = s.spans := rfl
@[simp] theorem setDomPhase_spanTxns : (setDomPhase d p s).spanTxns = s.spanTxns := rfl
@[simp] theorem setDomPhase_mem : (setDomPhase d p s).mem = s.mem := rfl
@[simp] theorem setDomPhase_presence : (setDomPhase d p s).presence = s.presence := rfl
@[simp] theorem setDomPhase_bad : (setDomPhase d p s).bad = s.bad := rfl
@[simp] theorem setDomPhase_defers : (setDomPhase d p s).defers = s.defers := rfl
@[simp] theorem setDomPhase_sweep : (setDomPhase d p s).sweep = s.sweep := rfl
@[simp] theorem setDomPhase_locks : (setDomPhase d p s).locks = s.locks := rfl
@[simp] theorem setDomPhase_flt : (setDomPhase d p s).flt = s.flt := rfl
@[simp] theorem setDomPhase_wstart : (setDomPhase d p s).wstart = s.wstart := rfl
@[simp] theorem setDomPhase_causeCnt : (setDomPhase d p s).causeCnt = s.causeCnt := rfl
@[simp] theorem setDomPhase_causePersist : (setDomPhase d p s).causePersist = s.causePersist := rfl
@[simp] theorem setDomPhase_census : (setDomPhase d p s).census = s.census := rfl
@[simp] theorem setDomPhase_censusSeen : (setDomPhase d p s).censusSeen = s.censusSeen := rfl
@[simp] theorem setDomPhase_lifetime : (setDomPhase d p s).lifetime = s.lifetime := rfl
@[simp] theorem setDomPhase_retQueue : (setDomPhase d p s).retQueue = s.retQueue := rfl
@[simp] theorem setDomPhase_running : (setDomPhase d p s).running = s.running := rfl
@[simp] theorem setDomPhase_copied : (setDomPhase d p s).copied = s.copied := rfl
@[simp] theorem setDomPhase_committed : (setDomPhase d p s).committed = s.committed := rfl
@[simp] theorem setDomPhase_spareRows : (setDomPhase d p s).spareRows = s.spareRows := rfl
@[simp] theorem setDomPhase_mapRecs : (setDomPhase d p s).mapRecs = s.mapRecs := rfl
@[simp] theorem setDomPhase_queues : (setDomPhase d p s).queues = s.queues := rfl
@[simp] theorem setDomPhase_sessions : (setDomPhase d p s).sessions = s.sessions := rfl
@[simp] theorem setDomPhase_nextCmd : (setDomPhase d p s).nextCmd = s.nextCmd := rfl
@[simp] theorem setDomPhase_msixMask : (setDomPhase d p s).msixMask = s.msixMask := rfl
@[simp] theorem setDomPhase_fnState : (setDomPhase d p s).fnState = s.fnState := rfl
@[simp] theorem setDomPhase_grants : (setDomPhase d p s).grants = s.grants := rfl
@[simp] theorem setDomPhase_linkState : (setDomPhase d p s).linkState = s.linkState := rfl
@[simp] theorem setDomPhase_crsWindow : (setDomPhase d p s).crsWindow = s.crsWindow := rfl
@[simp] theorem setDomPhase_flrFns : (setDomPhase d p s).flrFns = s.flrFns := rfl
@[simp] theorem setDomPhase_threads : (setDomPhase d p s).threads = s.threads := rfl
@[simp] theorem setDomPhase_mats : (setDomPhase d p s).mats = s.mats := rfl
@[simp] theorem setDomPhase_log : (setDomPhase d p s).log = s.log := rfl
@[simp] theorem setDomPhase_ledger : (setDomPhase d p s).ledger = s.ledger := rfl
@[simp] theorem setDomPhase_admitted : (setDomPhase d p s).admitted = s.admitted := rfl
@[simp] theorem setDomPhase_opPhase : (setDomPhase d p s).opPhase = s.opPhase := rfl
@[simp] theorem setDomPhase_ctrs : (setDomPhase d p s).ctrs = s.ctrs := rfl
@[simp] theorem setDomPhase_snapStep : (setDomPhase d p s).snapStep = s.snapStep := rfl
@[simp] theorem setDomPhase_snapAt : (setDomPhase d p s).snapAt = s.snapAt := rfl
@[simp] theorem setDomPhase_snapshot : (setDomPhase d p s).snapshot = s.snapshot := rfl
@[simp] theorem setDomPhase_latched : (setDomPhase d p s).latched = s.latched := rfl
@[simp] theorem setDomPhase_pwrE : (setDomPhase d p s).pwrE = s.pwrE := rfl
@[simp] theorem setDomPhase_pwrSig : (setDomPhase d p s).pwrSig = s.pwrSig := rfl
@[simp] theorem setDomPhase_cfgRec : (setDomPhase d p s).cfgRec = s.cfgRec := rfl
@[simp] theorem setDomPhase_cfgPending : (setDomPhase d p s).cfgPending = s.cfgPending := rfl
@[simp] theorem setDomPhase_idxL : (setDomPhase d p s).idxL = s.idxL := rfl
@[simp] theorem setDomPhase_idxRseq : (setDomPhase d p s).idxRseq = s.idxRseq := rfl
@[simp] theorem setDomPhase_idxLow : (setDomPhase d p s).idxLow = s.idxLow := rfl
@[simp] theorem setDomPhase_mlog : (setDomPhase d p s).mlog = s.mlog := rfl
@[simp] theorem setDomPhase_mAcc : (setDomPhase d p s).mAcc = s.mAcc := rfl
@[simp] theorem setDomPhase_fwInfo : (setDomPhase d p s).fwInfo = s.fwInfo := rfl
@[simp] theorem setDomPhase_quoteCmd : (setDomPhase d p s).quoteCmd = s.quoteCmd := rfl
@[simp] theorem setDomPhase_hashReq : (setDomPhase d p s).hashReq = s.hashReq := rfl
@[simp] theorem setDomPhase_recovery : (setDomPhase d p s).recovery = s.recovery := rfl
@[simp] theorem setDomPhase_dbgData : (setDomPhase d p s).dbgData = s.dbgData := rfl
@[simp] theorem setDomPhase_dbgBusy : (setDomPhase d p s).dbgBusy = s.dbgBusy := rfl
@[simp] theorem setDomPhase_authBuf : (setDomPhase d p s).authBuf = s.authBuf := rfl
@[simp] theorem setDomPhase_authBusy : (setDomPhase d p s).authBusy = s.authBusy := rfl
@[simp] theorem setDomPhase_challengeNo : (setDomPhase d p s).challengeNo = s.challengeNo := rfl
@[simp] theorem setDomPhase_tap : (setDomPhase d p s).tap = s.tap := rfl
@[simp] theorem setDomPhase_free : (setDomPhase d p s).free = s.free := rfl
@[simp] theorem setDomPhase_out : (setDomPhase d p s).out = s.out := rfl
@[simp] theorem setDomPhase_pending : (setDomPhase d p s).pending = s.pending := rfl
end

section
variable (s : State) (c : Nat) (p : OpPhase)
@[simp] theorem setOpPhase_regs : (setOpPhase c p s).regs = s.regs := rfl
@[simp] theorem setOpPhase_shadow : (setOpPhase c p s).shadow = s.shadow := rfl
@[simp] theorem setOpPhase_locked : (setOpPhase c p s).locked = s.locked := rfl
@[simp] theorem setOpPhase_variant : (setOpPhase c p s).variant = s.variant := rfl
@[simp] theorem setOpPhase_stepping : (setOpPhase c p s).stepping = s.stepping := rfl
@[simp] theorem setOpPhase_lifecycle : (setOpPhase c p s).lifecycle = s.lifecycle := rfl
@[simp] theorem setOpPhase_svnFloor : (setOpPhase c p s).svnFloor = s.svnFloor := rfl
@[simp] theorem setOpPhase_fwKeyHash : (setOpPhase c p s).fwKeyHash = s.fwKeyHash := rfl
@[simp] theorem setOpPhase_identityOk : (setOpPhase c p s).identityOk = s.identityOk := rfl
@[simp] theorem setOpPhase_now : (setOpPhase c p s).now = s.now := rfl
@[simp] theorem setOpPhase_dawn : (setOpPhase c p s).dawn = s.dawn := rfl
@[simp] theorem setOpPhase_deviceHalted : (setOpPhase c p s).deviceHalted = s.deviceHalted := rfl
@[simp] theorem setOpPhase_injectStop : (setOpPhase c p s).injectStop = s.injectStop := rfl
@[simp] theorem setOpPhase_quiesceStep : (setOpPhase c p s).quiesceStep = s.quiesceStep := rfl
@[simp] theorem setOpPhase_pins : (setOpPhase c p s).pins = s.pins := rfl
@[simp] theorem setOpPhase_ctxs : (setOpPhase c p s).ctxs = s.ctxs := rfl
@[simp] theorem setOpPhase_templates : (setOpPhase c p s).templates = s.templates := rfl
@[simp] theorem setOpPhase_images : (setOpPhase c p s).images = s.images := rfl
@[simp] theorem setOpPhase_stored : (setOpPhase c p s).stored = s.stored := rfl
@[simp] theorem setOpPhase_gateTable : (setOpPhase c p s).gateTable = s.gateTable := rfl
@[simp] theorem setOpPhase_pes : (setOpPhase c p s).pes = s.pes := rfl
@[simp] theorem setOpPhase_clusters : (setOpPhase c p s).clusters = s.clusters := rfl
@[simp] theorem setOpPhase_phs : (setOpPhase c p s).phs = s.phs := rfl
@[simp] theorem setOpPhase_bus : (setOpPhase c p s).bus = s.bus := rfl
@[simp] theorem setOpPhase_phQueue : (setOpPhase c p s).phQueue = s.phQueue := rfl
@[simp] theorem setOpPhase_phNow : (setOpPhase c p s).phNow = s.phNow := rfl
@[simp] theorem setOpPhase_phPast : (setOpPhase c p s).phPast = s.phPast := rfl
@[simp] theorem setOpPhase_exportAt : (setOpPhase c p s).exportAt = s.exportAt := rfl
@[simp] theorem setOpPhase_inputs : (setOpPhase c p s).inputs = s.inputs := rfl
@[simp] theorem setOpPhase_held : (setOpPhase c p s).held = s.held := rfl
@[simp] theorem setOpPhase_ports : (setOpPhase c p s).ports = s.ports := rfl
@[simp] theorem setOpPhase_rings : (setOpPhase c p s).rings = s.rings := rfl
@[simp] theorem setOpPhase_chans : (setOpPhase c p s).chans = s.chans := rfl
@[simp] theorem setOpPhase_schedU : (setOpPhase c p s).schedU = s.schedU := rfl
@[simp] theorem setOpPhase_schedAt : (setOpPhase c p s).schedAt = s.schedAt := rfl
@[simp] theorem setOpPhase_activeCauses : (setOpPhase c p s).activeCauses = s.activeCauses := rfl
@[simp] theorem setOpPhase_offPending : (setOpPhase c p s).offPending = s.offPending := rfl
@[simp] theorem setOpPhase_abortCount : (setOpPhase c p s).abortCount = s.abortCount := rfl
@[simp] theorem setOpPhase_heartbeatAt : (setOpPhase c p s).heartbeatAt = s.heartbeatAt := rfl
@[simp] theorem setOpPhase_net : (setOpPhase c p s).net = s.net := rfl
@[simp] theorem setOpPhase_stations : (setOpPhase c p s).stations = s.stations := rfl
@[simp] theorem setOpPhase_epochAt : (setOpPhase c p s).epochAt = s.epochAt := rfl
@[simp] theorem setOpPhase_spans : (setOpPhase c p s).spans = s.spans := rfl
@[simp] theorem setOpPhase_spanTxns : (setOpPhase c p s).spanTxns = s.spanTxns := rfl
@[simp] theorem setOpPhase_mem : (setOpPhase c p s).mem = s.mem := rfl
@[simp] theorem setOpPhase_presence : (setOpPhase c p s).presence = s.presence := rfl
@[simp] theorem setOpPhase_bad : (setOpPhase c p s).bad = s.bad := rfl
@[simp] theorem setOpPhase_defers : (setOpPhase c p s).defers = s.defers := rfl
@[simp] theorem setOpPhase_sweep : (setOpPhase c p s).sweep = s.sweep := rfl
@[simp] theorem setOpPhase_locks : (setOpPhase c p s).locks = s.locks := rfl
@[simp] theorem setOpPhase_flt : (setOpPhase c p s).flt = s.flt := rfl
@[simp] theorem setOpPhase_wstart : (setOpPhase c p s).wstart = s.wstart := rfl
@[simp] theorem setOpPhase_causeCnt : (setOpPhase c p s).causeCnt = s.causeCnt := rfl
@[simp] theorem setOpPhase_causePersist : (setOpPhase c p s).causePersist = s.causePersist := rfl
@[simp] theorem setOpPhase_census : (setOpPhase c p s).census = s.census := rfl
@[simp] theorem setOpPhase_censusSeen : (setOpPhase c p s).censusSeen = s.censusSeen := rfl
@[simp] theorem setOpPhase_lifetime : (setOpPhase c p s).lifetime = s.lifetime := rfl
@[simp] theorem setOpPhase_retQueue : (setOpPhase c p s).retQueue = s.retQueue := rfl
@[simp] theorem setOpPhase_running : (setOpPhase c p s).running = s.running := rfl
@[simp] theorem setOpPhase_copied : (setOpPhase c p s).copied = s.copied := rfl
@[simp] theorem setOpPhase_committed : (setOpPhase c p s).committed = s.committed := rfl
@[simp] theorem setOpPhase_spareRows : (setOpPhase c p s).spareRows = s.spareRows := rfl
@[simp] theorem setOpPhase_mapRecs : (setOpPhase c p s).mapRecs = s.mapRecs := rfl
@[simp] theorem setOpPhase_queues : (setOpPhase c p s).queues = s.queues := rfl
@[simp] theorem setOpPhase_sessions : (setOpPhase c p s).sessions = s.sessions := rfl
@[simp] theorem setOpPhase_nextCmd : (setOpPhase c p s).nextCmd = s.nextCmd := rfl
@[simp] theorem setOpPhase_msixMask : (setOpPhase c p s).msixMask = s.msixMask := rfl
@[simp] theorem setOpPhase_fnState : (setOpPhase c p s).fnState = s.fnState := rfl
@[simp] theorem setOpPhase_grants : (setOpPhase c p s).grants = s.grants := rfl
@[simp] theorem setOpPhase_linkState : (setOpPhase c p s).linkState = s.linkState := rfl
@[simp] theorem setOpPhase_crsWindow : (setOpPhase c p s).crsWindow = s.crsWindow := rfl
@[simp] theorem setOpPhase_flrFns : (setOpPhase c p s).flrFns = s.flrFns := rfl
@[simp] theorem setOpPhase_threads : (setOpPhase c p s).threads = s.threads := rfl
@[simp] theorem setOpPhase_mats : (setOpPhase c p s).mats = s.mats := rfl
@[simp] theorem setOpPhase_log : (setOpPhase c p s).log = s.log := rfl
@[simp] theorem setOpPhase_doms : (setOpPhase c p s).doms = s.doms := rfl
@[simp] theorem setOpPhase_ledger : (setOpPhase c p s).ledger = s.ledger := rfl
@[simp] theorem setOpPhase_admitted : (setOpPhase c p s).admitted = s.admitted := rfl
@[simp] theorem setOpPhase_ctrs : (setOpPhase c p s).ctrs = s.ctrs := rfl
@[simp] theorem setOpPhase_snapStep : (setOpPhase c p s).snapStep = s.snapStep := rfl
@[simp] theorem setOpPhase_snapAt : (setOpPhase c p s).snapAt = s.snapAt := rfl
@[simp] theorem setOpPhase_snapshot : (setOpPhase c p s).snapshot = s.snapshot := rfl
@[simp] theorem setOpPhase_latched : (setOpPhase c p s).latched = s.latched := rfl
@[simp] theorem setOpPhase_pwrE : (setOpPhase c p s).pwrE = s.pwrE := rfl
@[simp] theorem setOpPhase_pwrSig : (setOpPhase c p s).pwrSig = s.pwrSig := rfl
@[simp] theorem setOpPhase_cfgRec : (setOpPhase c p s).cfgRec = s.cfgRec := rfl
@[simp] theorem setOpPhase_cfgPending : (setOpPhase c p s).cfgPending = s.cfgPending := rfl
@[simp] theorem setOpPhase_idxL : (setOpPhase c p s).idxL = s.idxL := rfl
@[simp] theorem setOpPhase_idxRseq : (setOpPhase c p s).idxRseq = s.idxRseq := rfl
@[simp] theorem setOpPhase_idxLow : (setOpPhase c p s).idxLow = s.idxLow := rfl
@[simp] theorem setOpPhase_mlog : (setOpPhase c p s).mlog = s.mlog := rfl
@[simp] theorem setOpPhase_mAcc : (setOpPhase c p s).mAcc = s.mAcc := rfl
@[simp] theorem setOpPhase_fwInfo : (setOpPhase c p s).fwInfo = s.fwInfo := rfl
@[simp] theorem setOpPhase_quoteCmd : (setOpPhase c p s).quoteCmd = s.quoteCmd := rfl
@[simp] theorem setOpPhase_hashReq : (setOpPhase c p s).hashReq = s.hashReq := rfl
@[simp] theorem setOpPhase_recovery : (setOpPhase c p s).recovery = s.recovery := rfl
@[simp] theorem setOpPhase_dbgData : (setOpPhase c p s).dbgData = s.dbgData := rfl
@[simp] theorem setOpPhase_dbgBusy : (setOpPhase c p s).dbgBusy = s.dbgBusy := rfl
@[simp] theorem setOpPhase_authBuf : (setOpPhase c p s).authBuf = s.authBuf := rfl
@[simp] theorem setOpPhase_authBusy : (setOpPhase c p s).authBusy = s.authBusy := rfl
@[simp] theorem setOpPhase_challengeNo : (setOpPhase c p s).challengeNo = s.challengeNo := rfl
@[simp] theorem setOpPhase_tap : (setOpPhase c p s).tap = s.tap := rfl
@[simp] theorem setOpPhase_free : (setOpPhase c p s).free = s.free := rfl
@[simp] theorem setOpPhase_out : (setOpPhase c p s).out = s.out := rfl
@[simp] theorem setOpPhase_pending : (setOpPhase c p s).pending = s.pending := rfl
end

section
variable (s : State) (a p : Nat)
@[simp] theorem setPres_regs : (setPres s a p).regs = s.regs := rfl
@[simp] theorem setPres_shadow : (setPres s a p).shadow = s.shadow := rfl
@[simp] theorem setPres_locked : (setPres s a p).locked = s.locked := rfl
@[simp] theorem setPres_variant : (setPres s a p).variant = s.variant := rfl
@[simp] theorem setPres_stepping : (setPres s a p).stepping = s.stepping := rfl
@[simp] theorem setPres_lifecycle : (setPres s a p).lifecycle = s.lifecycle := rfl
@[simp] theorem setPres_svnFloor : (setPres s a p).svnFloor = s.svnFloor := rfl
@[simp] theorem setPres_fwKeyHash : (setPres s a p).fwKeyHash = s.fwKeyHash := rfl
@[simp] theorem setPres_identityOk : (setPres s a p).identityOk = s.identityOk := rfl
@[simp] theorem setPres_now : (setPres s a p).now = s.now := rfl
@[simp] theorem setPres_dawn : (setPres s a p).dawn = s.dawn := rfl
@[simp] theorem setPres_deviceHalted : (setPres s a p).deviceHalted = s.deviceHalted := rfl
@[simp] theorem setPres_injectStop : (setPres s a p).injectStop = s.injectStop := rfl
@[simp] theorem setPres_quiesceStep : (setPres s a p).quiesceStep = s.quiesceStep := rfl
@[simp] theorem setPres_pins : (setPres s a p).pins = s.pins := rfl
@[simp] theorem setPres_ctxs : (setPres s a p).ctxs = s.ctxs := rfl
@[simp] theorem setPres_templates : (setPres s a p).templates = s.templates := rfl
@[simp] theorem setPres_images : (setPres s a p).images = s.images := rfl
@[simp] theorem setPres_stored : (setPres s a p).stored = s.stored := rfl
@[simp] theorem setPres_gateTable : (setPres s a p).gateTable = s.gateTable := rfl
@[simp] theorem setPres_pes : (setPres s a p).pes = s.pes := rfl
@[simp] theorem setPres_clusters : (setPres s a p).clusters = s.clusters := rfl
@[simp] theorem setPres_phs : (setPres s a p).phs = s.phs := rfl
@[simp] theorem setPres_bus : (setPres s a p).bus = s.bus := rfl
@[simp] theorem setPres_phQueue : (setPres s a p).phQueue = s.phQueue := rfl
@[simp] theorem setPres_phNow : (setPres s a p).phNow = s.phNow := rfl
@[simp] theorem setPres_phPast : (setPres s a p).phPast = s.phPast := rfl
@[simp] theorem setPres_exportAt : (setPres s a p).exportAt = s.exportAt := rfl
@[simp] theorem setPres_inputs : (setPres s a p).inputs = s.inputs := rfl
@[simp] theorem setPres_held : (setPres s a p).held = s.held := rfl
@[simp] theorem setPres_ports : (setPres s a p).ports = s.ports := rfl
@[simp] theorem setPres_rings : (setPres s a p).rings = s.rings := rfl
@[simp] theorem setPres_chans : (setPres s a p).chans = s.chans := rfl
@[simp] theorem setPres_schedU : (setPres s a p).schedU = s.schedU := rfl
@[simp] theorem setPres_schedAt : (setPres s a p).schedAt = s.schedAt := rfl
@[simp] theorem setPres_activeCauses : (setPres s a p).activeCauses = s.activeCauses := rfl
@[simp] theorem setPres_offPending : (setPres s a p).offPending = s.offPending := rfl
@[simp] theorem setPres_abortCount : (setPres s a p).abortCount = s.abortCount := rfl
@[simp] theorem setPres_heartbeatAt : (setPres s a p).heartbeatAt = s.heartbeatAt := rfl
@[simp] theorem setPres_net : (setPres s a p).net = s.net := rfl
@[simp] theorem setPres_stations : (setPres s a p).stations = s.stations := rfl
@[simp] theorem setPres_epochAt : (setPres s a p).epochAt = s.epochAt := rfl
@[simp] theorem setPres_spans : (setPres s a p).spans = s.spans := rfl
@[simp] theorem setPres_spanTxns : (setPres s a p).spanTxns = s.spanTxns := rfl
@[simp] theorem setPres_mem : (setPres s a p).mem = s.mem := rfl
@[simp] theorem setPres_bad : (setPres s a p).bad = s.bad := rfl
@[simp] theorem setPres_defers : (setPres s a p).defers = s.defers := rfl
@[simp] theorem setPres_sweep : (setPres s a p).sweep = s.sweep := rfl
@[simp] theorem setPres_locks : (setPres s a p).locks = s.locks := rfl
@[simp] theorem setPres_flt : (setPres s a p).flt = s.flt := rfl
@[simp] theorem setPres_wstart : (setPres s a p).wstart = s.wstart := rfl
@[simp] theorem setPres_causeCnt : (setPres s a p).causeCnt = s.causeCnt := rfl
@[simp] theorem setPres_causePersist : (setPres s a p).causePersist = s.causePersist := rfl
@[simp] theorem setPres_census : (setPres s a p).census = s.census := rfl
@[simp] theorem setPres_censusSeen : (setPres s a p).censusSeen = s.censusSeen := rfl
@[simp] theorem setPres_lifetime : (setPres s a p).lifetime = s.lifetime := rfl
@[simp] theorem setPres_retQueue : (setPres s a p).retQueue = s.retQueue := rfl
@[simp] theorem setPres_running : (setPres s a p).running = s.running := rfl
@[simp] theorem setPres_copied : (setPres s a p).copied = s.copied := rfl
@[simp] theorem setPres_committed : (setPres s a p).committed = s.committed := rfl
@[simp] theorem setPres_spareRows : (setPres s a p).spareRows = s.spareRows := rfl
@[simp] theorem setPres_mapRecs : (setPres s a p).mapRecs = s.mapRecs := rfl
@[simp] theorem setPres_queues : (setPres s a p).queues = s.queues := rfl
@[simp] theorem setPres_sessions : (setPres s a p).sessions = s.sessions := rfl
@[simp] theorem setPres_nextCmd : (setPres s a p).nextCmd = s.nextCmd := rfl
@[simp] theorem setPres_msixMask : (setPres s a p).msixMask = s.msixMask := rfl
@[simp] theorem setPres_fnState : (setPres s a p).fnState = s.fnState := rfl
@[simp] theorem setPres_grants : (setPres s a p).grants = s.grants := rfl
@[simp] theorem setPres_linkState : (setPres s a p).linkState = s.linkState := rfl
@[simp] theorem setPres_crsWindow : (setPres s a p).crsWindow = s.crsWindow := rfl
@[simp] theorem setPres_flrFns : (setPres s a p).flrFns = s.flrFns := rfl
@[simp] theorem setPres_threads : (setPres s a p).threads = s.threads := rfl
@[simp] theorem setPres_mats : (setPres s a p).mats = s.mats := rfl
@[simp] theorem setPres_log : (setPres s a p).log = s.log := rfl
@[simp] theorem setPres_doms : (setPres s a p).doms = s.doms := rfl
@[simp] theorem setPres_ledger : (setPres s a p).ledger = s.ledger := rfl
@[simp] theorem setPres_admitted : (setPres s a p).admitted = s.admitted := rfl
@[simp] theorem setPres_opPhase : (setPres s a p).opPhase = s.opPhase := rfl
@[simp] theorem setPres_ctrs : (setPres s a p).ctrs = s.ctrs := rfl
@[simp] theorem setPres_snapStep : (setPres s a p).snapStep = s.snapStep := rfl
@[simp] theorem setPres_snapAt : (setPres s a p).snapAt = s.snapAt := rfl
@[simp] theorem setPres_snapshot : (setPres s a p).snapshot = s.snapshot := rfl
@[simp] theorem setPres_latched : (setPres s a p).latched = s.latched := rfl
@[simp] theorem setPres_pwrE : (setPres s a p).pwrE = s.pwrE := rfl
@[simp] theorem setPres_pwrSig : (setPres s a p).pwrSig = s.pwrSig := rfl
@[simp] theorem setPres_cfgRec : (setPres s a p).cfgRec = s.cfgRec := rfl
@[simp] theorem setPres_cfgPending : (setPres s a p).cfgPending = s.cfgPending := rfl
@[simp] theorem setPres_idxL : (setPres s a p).idxL = s.idxL := rfl
@[simp] theorem setPres_idxRseq : (setPres s a p).idxRseq = s.idxRseq := rfl
@[simp] theorem setPres_idxLow : (setPres s a p).idxLow = s.idxLow := rfl
@[simp] theorem setPres_mlog : (setPres s a p).mlog = s.mlog := rfl
@[simp] theorem setPres_mAcc : (setPres s a p).mAcc = s.mAcc := rfl
@[simp] theorem setPres_fwInfo : (setPres s a p).fwInfo = s.fwInfo := rfl
@[simp] theorem setPres_quoteCmd : (setPres s a p).quoteCmd = s.quoteCmd := rfl
@[simp] theorem setPres_hashReq : (setPres s a p).hashReq = s.hashReq := rfl
@[simp] theorem setPres_recovery : (setPres s a p).recovery = s.recovery := rfl
@[simp] theorem setPres_dbgData : (setPres s a p).dbgData = s.dbgData := rfl
@[simp] theorem setPres_dbgBusy : (setPres s a p).dbgBusy = s.dbgBusy := rfl
@[simp] theorem setPres_authBuf : (setPres s a p).authBuf = s.authBuf := rfl
@[simp] theorem setPres_authBusy : (setPres s a p).authBusy = s.authBusy := rfl
@[simp] theorem setPres_challengeNo : (setPres s a p).challengeNo = s.challengeNo := rfl
@[simp] theorem setPres_tap : (setPres s a p).tap = s.tap := rfl
@[simp] theorem setPres_free : (setPres s a p).free = s.free := rfl
@[simp] theorem setPres_out : (setPres s a p).out = s.out := rfl
@[simp] theorem setPres_pending : (setPres s a p).pending = s.pending := rfl
end

section
variable (s : State) (f : Fld) (v : Nat)
@[simp] theorem setShadow_regs : (setShadow s f v).regs = s.regs := rfl
@[simp] theorem setShadow_locked : (setShadow s f v).locked = s.locked := rfl
@[simp] theorem setShadow_variant : (setShadow s f v).variant = s.variant := rfl
@[simp] theorem setShadow_stepping : (setShadow s f v).stepping = s.stepping := rfl
@[simp] theorem setShadow_lifecycle : (setShadow s f v).lifecycle = s.lifecycle := rfl
@[simp] theorem setShadow_svnFloor : (setShadow s f v).svnFloor = s.svnFloor := rfl
@[simp] theorem setShadow_fwKeyHash : (setShadow s f v).fwKeyHash = s.fwKeyHash := rfl
@[simp] theorem setShadow_identityOk : (setShadow s f v).identityOk = s.identityOk := rfl
@[simp] theorem setShadow_now : (setShadow s f v).now = s.now := rfl
@[simp] theorem setShadow_dawn : (setShadow s f v).dawn = s.dawn := rfl
@[simp] theorem setShadow_deviceHalted : (setShadow s f v).deviceHalted = s.deviceHalted := rfl
@[simp] theorem setShadow_injectStop : (setShadow s f v).injectStop = s.injectStop := rfl
@[simp] theorem setShadow_quiesceStep : (setShadow s f v).quiesceStep = s.quiesceStep := rfl
@[simp] theorem setShadow_pins : (setShadow s f v).pins = s.pins := rfl
@[simp] theorem setShadow_ctxs : (setShadow s f v).ctxs = s.ctxs := rfl
@[simp] theorem setShadow_templates : (setShadow s f v).templates = s.templates := rfl
@[simp] theorem setShadow_images : (setShadow s f v).images = s.images := rfl
@[simp] theorem setShadow_stored : (setShadow s f v).stored = s.stored := rfl
@[simp] theorem setShadow_gateTable : (setShadow s f v).gateTable = s.gateTable := rfl
@[simp] theorem setShadow_pes : (setShadow s f v).pes = s.pes := rfl
@[simp] theorem setShadow_clusters : (setShadow s f v).clusters = s.clusters := rfl
@[simp] theorem setShadow_phs : (setShadow s f v).phs = s.phs := rfl
@[simp] theorem setShadow_bus : (setShadow s f v).bus = s.bus := rfl
@[simp] theorem setShadow_phQueue : (setShadow s f v).phQueue = s.phQueue := rfl
@[simp] theorem setShadow_phNow : (setShadow s f v).phNow = s.phNow := rfl
@[simp] theorem setShadow_phPast : (setShadow s f v).phPast = s.phPast := rfl
@[simp] theorem setShadow_exportAt : (setShadow s f v).exportAt = s.exportAt := rfl
@[simp] theorem setShadow_inputs : (setShadow s f v).inputs = s.inputs := rfl
@[simp] theorem setShadow_held : (setShadow s f v).held = s.held := rfl
@[simp] theorem setShadow_ports : (setShadow s f v).ports = s.ports := rfl
@[simp] theorem setShadow_rings : (setShadow s f v).rings = s.rings := rfl
@[simp] theorem setShadow_chans : (setShadow s f v).chans = s.chans := rfl
@[simp] theorem setShadow_schedU : (setShadow s f v).schedU = s.schedU := rfl
@[simp] theorem setShadow_schedAt : (setShadow s f v).schedAt = s.schedAt := rfl
@[simp] theorem setShadow_activeCauses : (setShadow s f v).activeCauses = s.activeCauses := rfl
@[simp] theorem setShadow_offPending : (setShadow s f v).offPending = s.offPending := rfl
@[simp] theorem setShadow_abortCount : (setShadow s f v).abortCount = s.abortCount := rfl
@[simp] theorem setShadow_heartbeatAt : (setShadow s f v).heartbeatAt = s.heartbeatAt := rfl
@[simp] theorem setShadow_net : (setShadow s f v).net = s.net := rfl
@[simp] theorem setShadow_stations : (setShadow s f v).stations = s.stations := rfl
@[simp] theorem setShadow_epochAt : (setShadow s f v).epochAt = s.epochAt := rfl
@[simp] theorem setShadow_spans : (setShadow s f v).spans = s.spans := rfl
@[simp] theorem setShadow_spanTxns : (setShadow s f v).spanTxns = s.spanTxns := rfl
@[simp] theorem setShadow_mem : (setShadow s f v).mem = s.mem := rfl
@[simp] theorem setShadow_presence : (setShadow s f v).presence = s.presence := rfl
@[simp] theorem setShadow_bad : (setShadow s f v).bad = s.bad := rfl
@[simp] theorem setShadow_defers : (setShadow s f v).defers = s.defers := rfl
@[simp] theorem setShadow_sweep : (setShadow s f v).sweep = s.sweep := rfl
@[simp] theorem setShadow_locks : (setShadow s f v).locks = s.locks := rfl
@[simp] theorem setShadow_flt : (setShadow s f v).flt = s.flt := rfl
@[simp] theorem setShadow_wstart : (setShadow s f v).wstart = s.wstart := rfl
@[simp] theorem setShadow_causeCnt : (setShadow s f v).causeCnt = s.causeCnt := rfl
@[simp] theorem setShadow_causePersist : (setShadow s f v).causePersist = s.causePersist := rfl
@[simp] theorem setShadow_census : (setShadow s f v).census = s.census := rfl
@[simp] theorem setShadow_censusSeen : (setShadow s f v).censusSeen = s.censusSeen := rfl
@[simp] theorem setShadow_lifetime : (setShadow s f v).lifetime = s.lifetime := rfl
@[simp] theorem setShadow_retQueue : (setShadow s f v).retQueue = s.retQueue := rfl
@[simp] theorem setShadow_running : (setShadow s f v).running = s.running := rfl
@[simp] theorem setShadow_copied : (setShadow s f v).copied = s.copied := rfl
@[simp] theorem setShadow_committed : (setShadow s f v).committed = s.committed := rfl
@[simp] theorem setShadow_spareRows : (setShadow s f v).spareRows = s.spareRows := rfl
@[simp] theorem setShadow_mapRecs : (setShadow s f v).mapRecs = s.mapRecs := rfl
@[simp] theorem setShadow_queues : (setShadow s f v).queues = s.queues := rfl
@[simp] theorem setShadow_sessions : (setShadow s f v).sessions = s.sessions := rfl
@[simp] theorem setShadow_nextCmd : (setShadow s f v).nextCmd = s.nextCmd := rfl
@[simp] theorem setShadow_msixMask : (setShadow s f v).msixMask = s.msixMask := rfl
@[simp] theorem setShadow_fnState : (setShadow s f v).fnState = s.fnState := rfl
@[simp] theorem setShadow_grants : (setShadow s f v).grants = s.grants := rfl
@[simp] theorem setShadow_linkState : (setShadow s f v).linkState = s.linkState := rfl
@[simp] theorem setShadow_crsWindow : (setShadow s f v).crsWindow = s.crsWindow := rfl
@[simp] theorem setShadow_flrFns : (setShadow s f v).flrFns = s.flrFns := rfl
@[simp] theorem setShadow_threads : (setShadow s f v).threads = s.threads := rfl
@[simp] theorem setShadow_mats : (setShadow s f v).mats = s.mats := rfl
@[simp] theorem setShadow_log : (setShadow s f v).log = s.log := rfl
@[simp] theorem setShadow_doms : (setShadow s f v).doms = s.doms := rfl
@[simp] theorem setShadow_ledger : (setShadow s f v).ledger = s.ledger := rfl
@[simp] theorem setShadow_admitted : (setShadow s f v).admitted = s.admitted := rfl
@[simp] theorem setShadow_opPhase : (setShadow s f v).opPhase = s.opPhase := rfl
@[simp] theorem setShadow_ctrs : (setShadow s f v).ctrs = s.ctrs := rfl
@[simp] theorem setShadow_snapStep : (setShadow s f v).snapStep = s.snapStep := rfl
@[simp] theorem setShadow_snapAt : (setShadow s f v).snapAt = s.snapAt := rfl
@[simp] theorem setShadow_snapshot : (setShadow s f v).snapshot = s.snapshot := rfl
@[simp] theorem setShadow_latched : (setShadow s f v).latched = s.latched := rfl
@[simp] theorem setShadow_pwrE : (setShadow s f v).pwrE = s.pwrE := rfl
@[simp] theorem setShadow_pwrSig : (setShadow s f v).pwrSig = s.pwrSig := rfl
@[simp] theorem setShadow_cfgRec : (setShadow s f v).cfgRec = s.cfgRec := rfl
@[simp] theorem setShadow_cfgPending : (setShadow s f v).cfgPending = s.cfgPending := rfl
@[simp] theorem setShadow_idxL : (setShadow s f v).idxL = s.idxL := rfl
@[simp] theorem setShadow_idxRseq : (setShadow s f v).idxRseq = s.idxRseq := rfl
@[simp] theorem setShadow_idxLow : (setShadow s f v).idxLow = s.idxLow := rfl
@[simp] theorem setShadow_mlog : (setShadow s f v).mlog = s.mlog := rfl
@[simp] theorem setShadow_mAcc : (setShadow s f v).mAcc = s.mAcc := rfl
@[simp] theorem setShadow_fwInfo : (setShadow s f v).fwInfo = s.fwInfo := rfl
@[simp] theorem setShadow_quoteCmd : (setShadow s f v).quoteCmd = s.quoteCmd := rfl
@[simp] theorem setShadow_hashReq : (setShadow s f v).hashReq = s.hashReq := rfl
@[simp] theorem setShadow_recovery : (setShadow s f v).recovery = s.recovery := rfl
@[simp] theorem setShadow_dbgData : (setShadow s f v).dbgData = s.dbgData := rfl
@[simp] theorem setShadow_dbgBusy : (setShadow s f v).dbgBusy = s.dbgBusy := rfl
@[simp] theorem setShadow_authBuf : (setShadow s f v).authBuf = s.authBuf := rfl
@[simp] theorem setShadow_authBusy : (setShadow s f v).authBusy = s.authBusy := rfl
@[simp] theorem setShadow_challengeNo : (setShadow s f v).challengeNo = s.challengeNo := rfl
@[simp] theorem setShadow_tap : (setShadow s f v).tap = s.tap := rfl
@[simp] theorem setShadow_free : (setShadow s f v).free = s.free := rfl
@[simp] theorem setShadow_out : (setShadow s f v).out = s.out := rfl
@[simp] theorem setShadow_pending : (setShadow s f v).pending = s.pending := rfl
end

end Sys2Proof.Machine
end

