-- ==== Sys2Proof/Laws/Store.lean ====
section
/-! SUPPORT. Laws of the sparse tables, of memory and of register fields: a read after a write, and the canonical form,
which every operation that changes memory keeps. -/

namespace Sys2Proof.Machine

open Sys2Proof

theorem mget_mins {α : Type} (d : α) (m : FMap α) (k k' : Nat) (v : α) :
    mget d (mins m k v) k' = if k = k' then v else mget d m k' := by
  induction m with
  | nil => simp [mins, mget]
  | cons e m ih =>
    obtain ⟨a, b⟩ := e
    unfold mins
    split
    · subst a; by_cases h : k = k' <;> simp [mget, h]
    · split
      · simp [mget]
      · by_cases h : a = k'
        · subst a; simp [mget]; intro hk; omega
        · simp [mget, h, ih]

theorem mget_mdel {α : Type} (d : α) (m : FMap α) (k k' : Nat) :
    mget d (mdel m k) k' = if k = k' then d else mget d m k' := by
  induction m with
  | nil => simp [mdel, mget]
  | cons e m ih =>
    obtain ⟨a, b⟩ := e
    simp only [mdel] at ih ⊢
    by_cases h : a = k
    · subst h
      rw [List.filter_cons_of_neg (by simp), ih]
      by_cases h' : a = k' <;> simp [mget, h']
    · rw [List.filter_cons_of_pos (by simp [h])]
      by_cases h' : a = k'
      · subst h'; simp [mget, Ne.symm h]
      · simp [mget, h', ih]

/-- A read after a write: the value written at its key, and what was there at every other. -/
theorem mget_mset {α : Type} [DecidableEq α] (d : α) (m : FMap α) (k k' : Nat) (v : α) :
    mget d (mset d m k v) k' = if k = k' then v else mget d m k' := by
  unfold mset
  split
  · subst v; exact mget_mdel d m k k'
  · exact mget_mins d m k k' v

@[simp] theorem mget_mset_same {α : Type} [DecidableEq α] (d : α) (m : FMap α) (k : Nat) (v : α) :
    mget d (mset d m k v) k = v := by simp [mget_mset]

theorem mget_mset_other {α : Type} [DecidableEq α] (d : α) (m : FMap α) {k k' : Nat} (v : α) (h : k ≠ k') :
    mget d (mset d m k v) k' = mget d m k' := by simp [mget_mset, h]

theorem keysRise_iff {α : Type} (m : FMap α) : keysRise m = true ↔ m.Pairwise (fun e f => e.1 < f.1) := by
  induction m with
  | nil => simp [keysRise]
  | cons e m ih =>
    obtain ⟨a, b⟩ := e
    cases m with
    | nil => simp [keysRise]
    | cons f m =>
      obtain ⟨a', b'⟩ := f
      simp only [keysRise, Bool.and_eq_true, decide_eq_true_eq, ih]
      simp only [List.pairwise_cons, List.mem_cons, forall_eq_or_imp]
      constructor
      · rintro ⟨h, h1, h2⟩; exact ⟨⟨h, fun x hx => Nat.lt_trans h (h1 x hx)⟩, h1, h2⟩
      · rintro ⟨⟨h, -⟩, h1, h2⟩; exact ⟨h, h1, h2⟩

theorem mwf_iff {α : Type} [DecidableEq α] (d : α) (m : FMap α) :
    mwf d m = true ↔ m.Pairwise (fun e f => e.1 < f.1) ∧ ∀ e ∈ m, e.2 ≠ d := by
  simp [mwf, keysRise_iff]

theorem mem_mins {α : Type} {m : FMap α} {k : Nat} {v : α} {e : Nat × α} (h : e ∈ mins m k v) : e = (k, v) ∨ e ∈ m := by
  induction m with
  | nil => simpa [mins] using h
  | cons f m ih =>
    obtain ⟨a, b⟩ := f
    unfold mins at h
    split at h
    · rcases List.mem_cons.1 h with h | h
      · exact .inl h
      · exact .inr (List.mem_cons_of_mem _ h)
    · split at h
      · exact List.mem_cons.1 h
      · rcases List.mem_cons.1 h with h | h
        · exact .inr (h ▸ List.mem_cons_self)
        · exact (ih h).imp id (List.mem_cons_of_mem _)

theorem pairwise_mins {α : Type} {m : FMap α} (k : Nat) (v : α) (h : m.Pairwise (fun e f => e.1 < f.1)) :
    (mins m k v).Pairwise (fun e f => e.1 < f.1) := by
  induction m with
  | nil => simp [mins]
  | cons f m ih =>
    obtain ⟨a, b⟩ := f
    rw [List.pairwise_cons] at h
    unfold mins
    split
    · subst a; exact List.pairwise_cons.2 h
    · split
      · rename_i hk
        refine List.pairwise_cons.2 ⟨fun x hx => ?_, List.pairwise_cons.2 h⟩
        rcases List.mem_cons.1 hx with hx | hx
        · subst hx; exact hk
        · exact Nat.lt_trans hk (h.1 x hx)
      · refine List.pairwise_cons.2 ⟨fun x hx => ?_, ih h.2⟩
        rcases mem_mins hx with hx | hx
        · subst hx; simp only; omega
        · exact h.1 x hx

theorem mwf_filter {α : Type} [DecidableEq α] {d : α} {m : FMap α} (p : Nat × α → Bool) (h : mwf d m = true) :
    mwf d (m.filter p) = true := by
  rw [mwf_iff] at h ⊢
  exact ⟨h.1.filter p, fun e he => h.2 e (List.mem_filter.1 he).1⟩

theorem mwf_mset {α : Type} [DecidableEq α] {d : α} {m : FMap α} (k : Nat) (v : α) (h : mwf d m = true) :
    mwf d (mset d m k v) = true := by
  unfold mset
  split
  · exact mwf_filter _ h
  · rename_i hv
    rw [mwf_iff] at h ⊢
    refine ⟨pairwise_mins k v h.1, fun e he => ?_⟩
    rcases mem_mins he with he | he
    · subst he; exact hv
    · exact h.2 e he

theorem memSet_wf {m : List Host.Cell} (a : Nat) (b : Byte) (h : Memory.wf m = true) : Memory.wf (memSet m a b) = true :=
  mwf_mset a b h

theorem memFilter_wf {m : List Host.Cell} (p : Host.Cell → Bool) (h : Memory.wf m = true) :
    Memory.wf (m.filter p) = true := mwf_filter p h

theorem memWrite_wf {m : List Host.Cell} (a : Nat) (bs : List Nat) (h : Memory.wf m = true) :
    Memory.wf (memWrite m a bs) = true := by
  induction bs generalizing m a with
  | nil => exact h
  | cons b bs ih => exact ih _ (memSet_wf a _ h)

theorem foldl_mset_wf {α β : Type} [DecidableEq α] {d : α} (key : β → Nat) (val : β → α) (xs : List β) {m : FMap α}
    (h : mwf d m = true) : mwf d (xs.foldl (fun acc e => mset d acc (key e) (val e)) m) = true := by
  induction xs generalizing m with
  | nil => exact h
  | cons x xs ih => exact ih (mwf_mset _ _ h)

theorem moveCells_wf {α : Type} [DecidableEq α] {dflt : α} (lo n d : Nat) {m : FMap α} (h : mwf dflt m = true) :
    mwf dflt (moveCells dflt lo n d m) = true := foldl_mset_wf _ _ _ (mwf_filter _ h)

/-- A write that keeps a form keeps it in both banks. -/
theorem both_keeps {α : Type} {s : State} (a : Nat) (w : Nat → α → α) (p : α → Prop) {x : α} (hx : p x)
    (hw : ∀ n y, p y → p (w n y)) : p (both s a w x) := by
  unfold both
  split
  · exact hw _ _ (hw _ _ hx)
  · exact hw _ _ hx

theorem scrPut_wf {s : State} (a v : Nat) (h : Memory.wf s.mem = true) : Memory.wf (scrPut s a v).mem = true := by
  rw [scrPut]
  exact both_keeps (a / 8 * 8) (fun p m => memWrite m p (natBytes 8 v)) (fun m => Memory.wf m = true) h
    fun _ _ hy => memWrite_wf _ _ hy

theorem scrWrite_wf {s : State} (a : Nat) (bs : List Nat) (h : Memory.wf s.mem = true) :
    Memory.wf (scrWrite s a bs).mem = true := by
  rw [scrWrite]
  exact both_keeps a (fun p m => memWrite m p bs) (fun m => Memory.wf m = true) h fun _ _ hy => memWrite_wf _ _ hy

theorem memUnit_wf {s : State} (u a : Nat) (h : Memory.wf s.mem = true) : Memory.wf (memUnit u a s).mem = true :=
  foldl_mset_wf _ _ _ h

@[simp] theorem memGet_memSet (m : List Host.Cell) (a a' : Nat) (b : Byte) :
    memGet (memSet m a b) a' = if a = a' then b else memGet m a' := mget_mset 0 m a a' b

/-- Each byte after a write: the byte written in the range, what was there outside it. -/
theorem memGet_memWrite (m : List Host.Cell) (a a' : Nat) (bs : List Nat) :
    memGet (memWrite m a bs) a' = if a ≤ a' ∧ a' < a + bs.length then BitVec.ofNat 8 (bs.getD (a' - a) 0) else memGet m a' := by
  induction bs generalizing m a with
  | nil => rw [if_neg (by simp only [List.length_nil]; omega)]; rfl
  | cons b bs ih =>
    rw [memWrite, ih, memGet_memSet, List.length_cons]
    by_cases h : a = a'
    · subst h; rw [if_neg (by omega), if_pos rfl, if_pos (by omega), Nat.sub_self, List.getD_cons_zero]
    · by_cases h' : a + 1 ≤ a' ∧ a' < a + 1 + bs.length
      · rw [if_pos h', if_pos (by omega), show a' - a = (a' - (a + 1)) + 1 by omega, List.getD_cons_succ]
      · rw [if_neg h', if_neg h, if_neg (by omega)]

/-- A register field after a write of it, cut to its width; every field with another key as before. -/
theorem rd_put (s : State) (f g : Fld) (v : Nat) (h : f.key = g.key → f.rst = g.rst) :
    rd (put s f v) g = if f.key = g.key then v % 2 ^ f.width else rd s g := by
  unfold rd put
  by_cases hk : f.key = g.key
  · simp [hk, h hk]
  · simp only [hk, if_false]
    unfold mset
    split
    · have := mget_mdel g.rst s.regs f.key g.key; simpa [hk] using this
    · have := mget_mins g.rst s.regs f.key g.key (v % 2 ^ f.width); simpa [hk] using this

@[simp] theorem rd_put_same (s : State) (f : Fld) (v : Nat) : rd (put s f v) f = v % 2 ^ f.width := by
  rw [rd_put _ _ _ _ (fun _ => rfl), if_pos rfl]

theorem rd_put_other (s : State) (f g : Fld) (v : Nat) (h : f.key ≠ g.key) : rd (put s f v) g = rd s g := by
  rw [rd_put _ _ _ _ (fun e => absurd e h), if_neg h]

theorem rd_lt_put (s : State) (f : Fld) (v : Nat) : rd (put s f v) f < 2 ^ f.width := by
  rw [rd_put_same]; exact Nat.mod_lt _ (Nat.two_pow_pos _)

end Sys2Proof.Machine
end

