-- ==== Sys2Proof/Tests/Slice0.lean ====
section
/-! SUPPORT. Tests: ill-formed commands, the manual's examples, single steps, and states that meet the hypotheses of the
statements. -/

namespace Sys2Proof.Tests

open Sys2Proof Sys2Proof.Machine Sys2Proof.Claims

set_option Elab.async false

/-- A firing at a PE whose units all read well. -/
def fr (cl pe : Nat) : Fire := ⟨cl, pe, .ok, [], .ok, .ok⟩

/-- An instruction at a thread whose word reads well and is no reserved encoding. -/
def su (t : Nat) : Sup := ⟨t, .ok, false, .ok, false⟩


/-! ### Ill-formed commands -/

/-- PE rows with a cluster or a PE that does not exist, session commands with a session or a byte that does not (one row of each
kind by name). -/
theorem smoke_shared :
    [Instr.add (fr 16 0), .drvput (fr 0 17), .nettime ⟨4096, [], false, 0⟩, .secSvcload ⟨0, [256], false, 0⟩].all (fun i => !i.wf)
      = true := by decide +kernel

theorem smoke_1 :
    ([.regWrite 256 0 0, .regWrite 0 (2 ^ 24) 0, .regWrite 0 0 (2 ^ 32), .phSrcPhloRead 16, .clCommit 16,
      .tokenRead ⟨16, 0, .ok, .ok⟩, .tokenRead ⟨0, 17, .ok, .ok⟩, .overflowRetry 16 ⟨0, .ok⟩,
      .overflowRetry 0 ⟨17, .ok⟩, .outputQueueSend 16 ⟨0, 0⟩, .outputQueueSend 0 ⟨17, 0⟩,
      .outputQueueSend 0 ⟨0, 128⟩, .ctxLive 16384, .iterretApply 16384 0,
      .iterretApply 0 8, .returnApply 16384, .deltaFlush 16 0 0, .deltaFlush 0 17 0, .deltaFlush 0 0 16384,
      .ctxQuiesceEffect 16384, .stallWin1Expire 16, .stallWin2Expire 16, .censusStart 16384 0,
      .censusStart 0 16, .censusScanDone 16384 0 0, .censusScanDone 0 16 0, .censusScanDone 0 0 16,
      .censusSpillDone 16384 0, .censusSpillDone 0 16, .censusBankPurge 16384 0, .censusBankPurge 0 32,
      .censusGatePurge 16384 0, .censusGatePurge 0 16, .censusEnd 16384, .censusto 16384, .spillDrainDone 16 0,
      .spillDrainDone 0 8, .phaseTick [21] [] [], .phaseTick [] [21] [], .phaseTick [] [] [(16, 0)],
      .countEvent 16 false false 0, .noonMark 16 0, .mainsEdge 16 0, .edgeTimeout 16, .horizonExpire 16,
      .phframe 4 0 0, .phframe 0 (2 ^ 80) 0, .phframe 0 0 (2 ^ 128), .ostb 32 0] : List Instr).all (fun i => !i.wf) = true := by
  decide +kernel

theorem smoke_2 :
    ([.inputFrame 32 [] [], .inputFrame 0 [2 ^ 32] [], .inputFrame 0 [] [2 ^ 32], .frameMissing 32, .capArm 64,
      .capTrig 64, .capStop 64, .outputFrameClose 32 0, .drvOn 256, .drvOff 256, .abortCauseClear (2 ^ 32),
      .drvRecover 256, .rspTimeout ⟨none, 26, 0⟩, .rspTimeout ⟨some 272, 0, 0⟩,
      .spwrite ⟨16, 0, 0, 0, none, none⟩, .spwrite ⟨0, 16, 0, 0, none, none⟩,
      .spwrite ⟨0, 0, 3, 0, none, none⟩, .splookup ⟨16, 0, 0, 0, none, none⟩,
      .splookup ⟨0, 16, 0, 0, none, none⟩, .splookup ⟨0, 0, 3, 0, none, none⟩, .spfree 16, .spwrite ⟨0, 0, 0, 1, none, none⟩,
      .spread ⟨16, 0, 0, 0, none, none⟩, .spread ⟨0, 16, 0, 0, none, none⟩,
      .spread ⟨0, 0, 3, 0, none, none⟩, .spdata 16 ⟨0, .ok⟩, .spdata 0 ⟨17, .ok⟩, .spack 16 0, .spack 0 17,
      .domainCloseBegin 24, .domainReopen 24, .spanPortEnable 4 0, .spanPortEnable 0 2, .pmdTrained 4,
      .spanAligned 4, .codeword 4 ⟨0, true, false⟩, .codeword 0 ⟨2 ^ 5140, true, false⟩,
      .linkIdle 4, .credit 4 0, .credit 0 (2 ^ 80),
      .probe 4 0 0, .probe 0 (2 ^ 80) 0, .probe 0 0 65536, .echo 4 0, .echo 0 (2 ^ 80), .spanIdentTimer 4,
      .spanProbeTimer 4] : List Instr).all (fun i => !i.wf) = true := by
  decide +kernel

theorem smoke_3 :
    ([.codewordLockLoss 4, .spanLos 4, .spanRetrainTimeout 4, .ownershipRequest 32 0 false,
      .ownershipRequest 0 256 false, .bankFence 32, .abortdef 32, .bar4Read (2 ^ 27) 1 .ok, .bar4Read 0 0 .ok,
      .bar4Write (2 ^ 27) [0], .bar4Write 0 [256], .bar4Write 0 [], .sweepRowStart ⟨[], false, some 32⟩,
      .lockAcquire 65536 0, .lockAcquire 0 256, .lockRelease 65536 0, .lockRelease 0 256, .lockAck 65536 0,
      .lockAck 0 256, .supAlu (su 8) .add 0 0 0 none,
      .supAlu (su 0) (.extract 0 0) 0 0 0 none, .supAlu (su 0) (.extractS 60 5) 0 0 0 none,
      .supAlu (su 0) (.insert 64 1) 0 0 0 none, .supAlu (su 0) .add 32 0 0 none,
      .supAlu (su 0) .add 0 32 0 none, .supAlu (su 0) .add 0 0 32 none,
      .supAlu (su 0) .add 0 0 0 (some (2 ^ 64)), .supMul (su 8) .mul 0 0 0,
      .supMul (su 0) .mul 32 0 0, .supMul (su 0) .mul 0 32 0,
      .supMul (su 0) .mul 0 0 32, .supDiv (su 8) .div 0 0 0,
      .supDiv (su 0) .div 32 0 0, .supDiv (su 0) .div 0 32 0,
      .supDiv (su 0) .div 0 0 32, .supLoad (su 8) 0 0 0 8 false .ok,
      .supLoad (su 0) 32 0 0 8 false .ok, .supLoad (su 0) 0 32 0 8 false .ok,
      .supLoad (su 0) 0 0 0 3 false .ok, .supStore (su 8) 0 0 0 8,
      .supStore (su 0) 32 0 0 8, .supStore (su 0) 0 32 0 8, .supStore (su 0) 0 0 0 3,
      .storeBuserr 8 0, .storeBuserr 0 (2 ^ 64), .supAtomic (su 8) .swap 0 0 0,
      .supAtomic (su 0) .swap 32 0 0, .supAtomic (su 0) .swap 0 32 0] : List Instr).all (fun i => !i.wf) = true := by
  decide +kernel

theorem smoke_4 :
    ([.supAtomic (su 0) .swap 0 0 32, .supPresence (su 8) .ird 0 0 0 0,
      .supPresence (su 0) .ird 32 0 0 0, .supPresence (su 0) .ird 0 32 0 0,
      .supPresence (su 0) .ird 0 0 32 0, .supPresence (su 0) .ird 0 0 0 (2 ^ 64),
      .supBranch (su 8) .beq 0 0 0, .supBranch (su 0) .beq 32 0 0,
      .supBranch (su 0) .beq 0 32 0, .supBranch (su 0) .beq 0 0 (2 ^ 64),
      .supLoop (su 8) 0 0, .supLoop (su 0) (2 ^ 64) 0, .supLoop (su 0) 0 32,
      .loopi (su 8) 0 0, .loopi (su 0) (2 ^ 64) 0, .loopi (su 0) 0 (2 ^ 64),
      .crd (su 8) 0 0, .crd (su 0) 32 0, .cwr (su 8) 0 0, .cwr (su 0) 0 32,
      .fence (su 8), .wait (su 8), .trap (su 8) 0, .trap (su 0) 65536,
      .supBreak (su 8), .gate (su 8) 0, .gate (su 0) 4096, .gret (su 8),
      .rete (su 8), .irqDeliver 64, .interruptTake 8 false, .watchdogExpire 8, .supIpi 256 0,
      .supIpi 0 16, .coreReset 256 0, .coreReset 0 4, .coreRunWrite 256 0 false false,
      .coreRunWrite 0 4 false false, .configRequest 64 0 none, .configRequest 0 4096 none,
      .configRequest 0 0 (some (2 ^ 32)), .sqtailWrite 4096 0, .sqtailWrite 0 (2 ^ 32), .cqheadWrite 4096 0,
      .cqheadWrite 0 (2 ^ 32), .evheadWrite 4096 0, .evheadWrite 0 (2 ^ 32), .sqEntryFetch 4096 [] false] : List Instr).all (fun i => !i.wf) = true := by
  decide +kernel

theorem smoke_5 :
    ([.sqEntryFetch 0 [⟨256, 0, 0, 0, 0, 0, [0, 0, 0, 0, 0]⟩] false,
      .sqEntryFetch 0 [⟨0, 256, 0, 0, 0, 0, [0, 0, 0, 0, 0]⟩] false,
      .sqEntryFetch 0 [⟨0, 0, 65536, 0, 0, 0, [0, 0, 0, 0, 0]⟩] false,
      .sqEntryFetch 0 [⟨0, 0, 0, 2 ^ 64, 0, 0, [0, 0, 0, 0, 0]⟩] false,
      .sqEntryFetch 0 [⟨0, 0, 0, 0, 2 ^ 64, 0, [0, 0, 0, 0, 0]⟩] false,
      .sqEntryFetch 0 [⟨0, 0, 0, 0, 0, 2 ^ 32, [0, 0, 0, 0, 0]⟩] false,
      .sqEntryFetch 0 [⟨0, 0, 0, 0, 0, 0, []⟩] false,
      .sqEntryFetch 0 [⟨0, 0, 0, 0, 0, 0, [0, 0, 0, 0, 2 ^ 64]⟩] false, .coalTimeout 4096 false,
      .sessClosed 4096, .flr 64, .linkPowerChange 5, .courierWrite 4096 false false,
      .nvmeCompletion ⟨8, 0, 0, 0, []⟩, .nvmeCompletion ⟨0, 65536, 0, 0, []⟩,
      .nvmeCompletion ⟨0, 0, 0, 0, [256]⟩, .nvmeTimeout 8 0, .nvmeTimeout 0 65536, .fltforce 34 0,
      .fltforce 0 (2 ^ 32), .flthistpop 34, .repRetire 256 0, .repRetire 0 (2 ^ 32), .repRetcommit 256,
      .patrolRead ⟨16, 0, 0, .ok, 0, .ok, .ok⟩, .patrolRead ⟨0, 17, 0, .ok, 0, .ok, .ok⟩,
      .patrolRead ⟨0, 0, 4096, .ok, 0, .ok, .ok⟩, .patrolRead ⟨0, 0, 0, .ok, 4096, .ok, .ok⟩, .wakeRequest 24,
      .domainWakeDone 24, .filterReloadDone 16, .idleWindow 24, .pwrDepthWrite 256 0 0, .pwrDepthWrite 0 20 0,
      .pwrDepthWrite 0 0 (2 ^ 32), .voltageReached 16, .oppointRelockDone 16, .genDevreset 256 0,
      .genDevreset 0 65536, .clkPllunlock 25, .secRecovctlGo 256 0, .secRecovctlGo 0 2, .cfgSetBoot 256,
      .cfgSetProfdef 256, .cfgSetKeyslot 256 0, .cfgSetKeyslot 0 4, .cfgBadOp 256 0, .cfgBadOp 0 16] : List Instr).all (fun i => !i.wf) = true := by
  decide +kernel

theorem smoke_6 :
    ([.secQuote ⟨4096, [], false, 0⟩ false, .secQuote ⟨0, [256], false, 0⟩ false,
      .secProfdef ⟨4096, [], false, 0⟩ false, .secProfdef ⟨0, [256], false, 0⟩ false, .secHashctlGo 256,
      .sdpRead ⟨true, true⟩ (2 ^ 64), .sdpWrite ⟨true, true⟩ (2 ^ 64) 0, .sdpWrite ⟨true, true⟩ 0 (2 ^ 64),
      .dbgCoreHalt 4, .dbgCoreStep 4, .dbgCoreResume 4, .dbgClHalt 16, .dbgClResume 16, .swRead 256 0,
      .swRead 0 16, .swWrite 256 0, .swWrite 0 16, .swOpDone 16, .linkIdent 4 0, .linkIdent 0 (2 ^ 80),
      .regReadClear 256 0, .regReadClear 0 (2 ^ 24), .completionTimeout (.ring 4096),
      .completionTimeout (.buffer 4096), .completionTimeout (.spill 16 0), .completionTimeout (.spill 0 16),
      .completionTimeout (.nvme 8), .domainCloseDone 24, .flrComplete 64, .clkPllRelock 25] : List Instr).all (fun i => !i.wf) = true := by
  decide +kernel

/-- Well-formed commands at the upper ends of their operands. -/
theorem smoke_wellFormed :
    ([.add (fr 15 16), .regWrite 255 (2 ^ 24 - 1) (2 ^ 32 - 1), .nop ⟨4095, [255], false, 0⟩, .idleWindow 23, .ostb 31 0, .drvRecover 255,
      .supAlu (su 7) (.extract 32 32) 31 31 31 (some (2 ^ 64 - 1)), .clkPllunlock 24] : List Instr).all Instr.wf = true := by
  decide +kernel
/-! ### Small states -/

/-- The device at work: every domain in RUN, the cores running. -/
def hot : State :=
  forAll (List.range 4) (fun c s => put s (F.supCorestatState c) 2)
    (forAll (List.range 24) (fun d s => put s (F.pwrDomstatState d) 0) { State.reset with dawn := .step 7 })

/-- The lowest type that a position accepts. -/
def lowType (m : Nat) : Nat := ((List.range 16).find? m.testBit).getD 0

/-- A token value of a type. -/
def valOf (ty : Nat) : Val := .of ty 0

/-- Destination 1, at IA 1 of the PE. -/
def dst1 : Dst := { Dst.decode 0 with ia := 1, en := true }

/-- A word of an opcode that keeps the rules of R88. -/
def goodWord (op : Nat) : Insn :=
  match opInfo op with
  | some o =>
    let w := { Insn.decode 0 with opcode := op, typex := lowType o.typex, w3m := if o.param.isSome then 1 else 0 }
    match o.dest with
    | .none => w
    | .mkcont => { w with w3m := 2, w3 := 2 ^ 26 + 2 * 2 ^ 8, d1 := dst1 }
    | _ => { w with d1 := dst1 }
  | none => Insn.decode 0

/-- A full operand set for it. -/
def goodSet (op : Nat) : Firing :=
  match opInfo op with
  | some o =>
    let v (i : Nat) : Option Val := if i < o.pos.length then some (valOf (lowType (o.pos.getD i 0))) else none
    ⟨0, 0, 0, 0, if o.merge then 0 else o.pos.length - 1, v 0, if o.merge then none else v 1, v 2⟩
  | none => ⟨0, 0, 0, 0, 0, none, none, none⟩

/-- The set is in the pipe of PE 0 of cluster 0, whose word at IA 0 is `w`. -/
def peState (w : Nat) (g : Firing) (s : State) : State :=
  s.setPe 0 { Pe.init with imem := [(0, w)], pipe := some g }

def fire0 : Fire := fr 0 0

def firesAlone (op : Nat) : Bool :=
  fires (peState (goodWord op).encode (goodSet op) hot) fire0 op (goodSet op) none

/-! ### Firings -/

/-- Every opcode of the integer, floating, compare, steering and conversion tables fires somewhere (R91, R93 to R103). -/
theorem witness_PeResults :
    ((List.range 21) ++ (List.range 10).map (0x40 + ·) ++ (List.range 12).map (0x80 + ·) ++ (List.range 10).map (0xC0 + ·)
      ++ (List.range 11).map (0x100 + ·) ++ (List.range 8).map (0x110 + ·) ++ (List.range 14).map (0x140 + ·)).all firesAlone
      = true := by decide +kernel

/-- A template of handle 1 with one argument place, in ring 3. -/
def tmpl1 : Template := { handle := 1, image := 0, d := { Desc.init with ring := 3, tmpl := 1 }, args := [⟨0, 0, 0⟩], consts := [] }

/-- A live context 0 of that template, with all of scratch in window 0. -/
def live0 : Ctx := { Ctx.init with state := .live, d := { Desc.init with ring := 3, tmpl := 1, phsrc := 2, w0 := ⟨0, 2 ^ 25 - 1, 15⟩ } }

/-- The device at work with that context; phase source 2 is LOCKED at cluster 0; gate 0 of cluster 0 opens the template. -/
def work : State :=
  { (hot.setCtx 0 live0).setBs 2 { BusSrc.init with status := 1 } with
    templates := [tmpl1], gateTable := [(0, 1 + 3 * 2 ^ 16 + 3 * 2 ^ 18 + 2 ^ 21 + 2 ^ 32)] }

/-- The hypotheses of the row of an opcode on this state, with the values given in place of the operands. -/
def rowFires (pre : State → Fc → Bool) (op : Nat) (l r t : Nat) : Bool :=
  let g0 := goodSet op
  let set (o : Option Val) (n : Nat) : Option Val := o.map fun v => { v with v := BitVec.ofNat 64 n }
  let g := { g0 with l := set g0.l l, r := set g0.r r, t := set g0.t t }
  let s := peState (goodWord op).encode g work
  fires s fire0 op g none && pre (afterIssue s fire0 g none) (firingOf s fire0 g none)

theorem witness_PeTagResults :
    rowFires (fun s c => match template s (c.l.n % 2 ^ 16) with | some t => decide (c.d.ring ≤ t.d.ring) | none => false) 0x181 1 0 0
      && rowFires (fun s c => bits (gateWord s c.cl (c.l.n % 256)) 21 1 == 1 && decide (1 ≤ bits (gateWord s c.cl 0) 32 5)
        && decide (c.d.ring ≤ bits (gateWord s c.cl 0) 18 2) && (template s (bits (gateWord s c.cl 0) 0 16)).isSome) 0x182 0 0 0
      && rowFires (fun s c => !stale s c.r.n && ((template s (s.ctx 0).d.tmpl).bind (·.args[c.w.w3]?)).isSome) 0x183 0 0 0
      && rowFires (fun _ c => c.d.rettag % 2 == 1) 0x184 0 0 0 && rowFires (fun s c => routed s (c.r.n % 4096)) 0x186 0 0 0
      && rowFires (fun s c => routed s (bits c.r.n 52 12)) 0x189 0 0 0
      && [0x180, 0x185, 0x187, 0x188, 0x18a].all (fun op => rowFires (fun _ _ => true) op 0 0 0) = true := by decide +kernel

theorem witness_PeRequests_scratch :
    [0x1c0, 0x1c4, 0x1c6, 0x1c7].all (fun op => rowFires (fun _ c => (scratchAddr c.d op c.l c.r).isOk) op 0 8 0)
      && [0x1c1, 0x1c2, 0x1c3, 0x1c5, 0x1c8].all (fun op => rowFires (fun _ c => (scratchAddr c.d op c.r c.t).isOk) op 1 0 8)
      = true := by decide +kernel

/-- CAPNARROW of a capability over 64 bytes with R, to its first 8. -/
theorem witness_PeRequests_capnarrow :
    (let g : Firing := ⟨0, 0, 0, 0, 2, some ⟨BitVec.ofNat 64 (64 * 2 ^ 25 + 2 ^ 50), tySaddr, true⟩, some (valOf tyI64),
        some ⟨8#64, tyI64, false⟩⟩
     let s := peState (goodWord 0x1c9).encode g (work.updCtx 0 fun x => { x with d := { x.d with mode := 1 } })
     fires s fire0 0x1c9 g none && (firingOf s fire0 g none).l.cap) = true := by decide +kernel

theorem witness_PeRequests_phase :
    [0x200, 0x201].all (fun op => rowFires (fun s c => bits (s.bs (c.cl * 16 + c.d.phsrc)).status 0 3 != 0
      && decide (gateUsed s c.cl < 512)) op 0 0 0)
      && [0x202, 0x203, 0x204, 0x205, 0x206, 0x207].all (fun op => rowFires (fun _ _ => true) op 0 0 0) = true := by decide +kernel

/-- A word that breaks R88 (ADD with TYPEX 1), a missing constant, and a POISON operand. -/
theorem witness_FiringFaults :
    (let g := goodSet 0; let w := goodWord 0
     let bad := { w with typex := 1 }; let const := { w with src := 2 }
     let sBad := peState bad.encode g hot
     let gc := { g with port := 0, r := none }; let sc := peState const.encode gc hot
     let gp := { g with r := some ⟨0#64, tyPoison, false⟩ }; let sp := peState w.encode gp hot
     atIssue sBad fire0 0 g none && !bad.ok && atIssue sc fire0 0 gc none && const.ok && (operands const (op [i64, i64]) gc).contains none
       && atIssue sp fire0 0 gp none && decide ((operands w (op [i64, i64]) gp)[1]? = some (some ⟨0#64, tyPoison, false⟩))
       && decide (checks Desc.init w (op [i64, i64]) gp = some (0x11, 1, 1, tyPoison))) = true := by decide +kernel

/-! ### Requests at banks, slices and stations -/

/-- A delivery of the first packet in flight with nothing wrong. -/
def good0 : Deliver := ⟨0, .ok, .ok, .ok, .ok, 0, false, 0⟩

/-- A packet from cluster 0's station that stands at its destination. -/
def pkt (dstn cmd vn init f : Nat) (body : Body) (asker : Asker) : Packet :=
  { src := 2, dstn := dstn, dstp := 0, ring := 0, cmd := cmd, vn := vn, epoch := 0, init := init, f := f, body := body,
    who := none, asker := asker, at_ := dstn }

/-- The state in which it is in flight, with the rings at rest. -/
def flying (p : Packet) (s : State) : State := rest { s with net := [p] }

/-- Bank 0 belongs to cluster 0. -/
def banked : State := put hot (F.sbOwnerOwner 0) 0

/-- A request of cluster 0 on the scratch word at 8. -/
def wordReq (cmd : Nat) : Packet := pkt 6 cmd vnReq 0 (reqF 0x100000008 1 0) (.units [5]) (.pe 0)

theorem witness_BankRequests :
    [0x10, 0x11, 0x12, 0x13, 0x14, 0x15, 0x16, 0x17, 0x18].all (fun cmd => let p := wordReq cmd; let s := flying p banked
      arrives s good0 p cmd && serves s (wordAddr p / 2 ^ 20) true p && serves s (wordAddr p / 2 ^ 20) false p)
      = true := by decide +kernel

/-- A bank of another owner refuses, and so does a fenced one. -/
theorem witness_BankRefusals :
    [0x10, 0x11, 0x12, 0x13, 0x14, 0x15, 0x16, 0x17, 0x18].all (fun cmd => let p := wordReq cmd
      let other := flying p (put banked (F.sbOwnerOwner 0) 1); let fenced := flying p (put banked (F.sbOwnerFence 0) 1)
      arrives other good0 p cmd && !ownerAccepts (rd other (F.sbOwnerOwner 0)) p.init true
        && arrives fenced good0 p cmd && ownerAccepts (rd fenced (F.sbOwnerOwner 0)) p.init true && rdB fenced (F.sbOwnerFence 0))
      = true := by decide +kernel

/-- READ and WRITE of a pair at scratch address 16, of the presence view, and past the views. -/
theorem witness_BankViews :
    [0x19, 0x1A].all (fun cmd =>
      let p := pkt 6 cmd vnReq 0 (reqF 0x100000010 1 0) (.units [1]) (.pe 0); let s := flying p banked
      let q := pkt 6 cmd vnReq 0 (reqF 0x106000000 1 0) (.units [1]) (.pe 0)
      let far := pkt 6 cmd vnReq 0 (reqF 0x106100000 1 0) (.units [1]) (.pe 0)
      arrives s good0 p cmd && decide (viewOf (p.addr / 16 * 16) = some (0, 16)) && serves s 0 true p
        && decide (viewOf (q.addr / 16 * 16) = some (3, 0)) && arrives (flying far banked) good0 far cmd
        && decide (viewOf (far.addr / 16 * 16) = none)) = true := by decide +kernel

theorem witness_PresenceViewCodes : ∀ j, j < 32 → presOf (setPres hot 8 2) (8 * j) ≤ 2 := by decide +kernel

/-- Lock cell 255 held by master 0x1000, and free. -/
theorem witness_LocksAndOwnership :
    let s := hot.setLock 255 ⟨true, 0x1000, true⟩
    s.up 3 = true ∧ ((s.lock 255).held = true ∧ (s.lock 255).holder = 0x1000 % 2 ^ 16) ∧ (s.lock 254).held = false
      ∧ ¬ ((s.lock 255).held = true ∧ (s.lock 255).holder = 0x1001 % 2 ^ 16)
      ∧ rd s (F.sbOwnerOwner 31) < 256 ∧ rd s (F.sbOwnerFence 31) < 2 := by decide +kernel

theorem witness_Bar4AndSweep :
    let s := put hot (F.sbOwnerOwner 0) 0x10
    s.up 5 = true ∧ ownerAccepts (rd s (F.sbOwnerOwner 0)) 0x10 false = true ∧ rdB s (F.sbOwnerFence 0) = false
      ∧ rdB (put s (F.sbOwnerFence 0) 1) (F.sbOwnerFence 0) = true
      ∧ ownerAccepts (rd (put s (F.sbOwnerOwner 1) 0x50) (F.sbOwnerOwner 1)) 0x10 true = false
      ∧ rdB (put s F.sbSweepcfgEn 0) F.sbSweepcfgEn = false ∧ rdB (put s F.sbSweepcfgEn 1) F.sbSweepcfgEn = true
      ∧ sweepSkips (put s F.sbSweepcfgEn 1) 0 = false ∧ s.sweep.target = some (0, false) := by decide +kernel

/-- The bodies of slice requests at cluster 0's slice, and a notice. -/
theorem witness_SliceRequests :
    [Body.create 1 3 0 0 false, .iterEnter 0 7, .query 0 0, .iterRet 0 ⟨0, 0, 0, 0⟩, .ret 0].all (fun b =>
      let p := pkt 2 0x1C vnReq 0 0 b (.pe 0); arrives (flying p work) good0 p 0x1C && decide (stationCl p.dstn = some 0))
      && (let p := pkt 2 0x23 vnSpl 0 0 (.window 0 7 1 1 false) .nobody
          arrives (flying p work) good0 p 0x23 || arrives (flying { p with vn := vnRsp } work) good0 { p with vn := vnRsp } 0x23)
      = true := by decide +kernel

/-- ITERRETs of iterations in the window (its last one, and one past it), and slots in each state that an event waits for. -/
theorem witness_ContextSlots :
    let r : IterReq := ⟨1, 7, 0, 0⟩; let x := { live0 with iterReqs := [r], d := { live0.d with kbound := [0, 0, 0, 0, 0, 0, 0, 1] } }
    let c := { live0 with state := .creating }
    x.iterReqs.find? (·.loop == 7) = some r ∧ (r.iter + 4096 - x.head.getD 7 0) % 4096 ≤ x.d.kbound.getD 7 0
      ∧ (x.done.getD 7 0).testBit 1 = false ∧ live0.d.kbound.getD 7 0 + 1 ≤ (r.iter + 4096 - x.head.getD 7 0) % 4096
      ∧ c.state = .creating ∧ c.loads = [] ∧ live0.state = .live ∧ { live0 with retPending := true }.retPending = true
      ∧ { live0 with quiescing := true }.quiescing = true ∧ hot.up 5 = true := by decide +kernel

/-- A full ring of input queues: one PE of cluster 0 waits with a token at its head. -/
def tok0 : Tok := ⟨⟨0, 0, 0, 0, 0, 0, 0, false⟩, ⟨1#64, tyI64, false⟩⟩

/-- The state with that token in the input queue of the PE of index `k`. -/
def queued (k : Nat) (t : Tok) (s : State) : State := s.updPe k fun p => { p with inq := p.inq ++ [t] }

/-- A cluster that waits: its PE 3 has a full pending-refill table and a token in its input queue. -/
def waits0 : State :=
  (put hot (F.clStallcfgEn 0) 1).setPe 3
    { Pe.init with inq := [tok0], refill := List.replicate 16 ⟨tok0, .const 0 false, true⟩ }

theorem witness_StallCensusWindows :
    (let s := waits0; let s1 := put (put s (F.clStallstatState 0) 1) (F.clStallcfgForce 0) 3
     hot.up 5 && stalled s 0 && rd s (F.clStallstatState 0) == 0 && stalled s1 0 && rd s1 (F.clStallstatState 0) == 1
       && readWaits (s1.pe 3) && decide (headTok s1 3 = some tok0) && decide (logPe s1 0 3 = some 3)) = true := by
  decide +kernel

/-- A census of context 7 with nothing done, and the context in it. -/
def census0 : Census := ⟨some 0, 0, 0, 0, 0, 0, 0, 0, [], [], [], [], [], [], false⟩

def counting (c : Census) : State := hot.setCtx 7 { live0 with state := .returning, census := some c }

theorem witness_OrphanCensus :
    (let all := List.range 16
     let scans : List Nat := List.range 256
     let c1 := { census0 with reached := all }; let c2 := { c1 with scanned := scans }; let c3 := { c2 with flushed := all }
     let c4 := { c3 with spillDone := all, banks := List.range 32, gates := all }
     let p := pkt 2 0x02 vnTok 0 (7 * 2 ^ 38) (.units []) .nobody
     let sum (s : State) : Bool := match (s.ctx 7).census with | some c => censusStep s 7 (s.ctx 7) c == 8 | none => false
     ((counting census0).ctx 7).census = some census0 ∧ census0.reached.contains 15 = false
       ∧ c1.reached.contains 15 = true ∧ c1.scanned.contains 255 = false ∧ ((counting c1).pe (peKey (counting c1) 255)).stopped = false
       ∧ arrives (flying p (counting c2)) good0 p 0x02 = true ∧ bits p.f 38 14 = 7 ∧ stationCl p.dstn = some 0 ∧ c2.scansDone = true
       ∧ outstanding (taken (flying p (counting c2)) good0) 7 = false ∧ tokensMove (taken (flying p (counting c2)) good0) 7 = false
       ∧ c3.flushed.length = 16 ∧ c3.gates.contains 0 = false ∧ c3.spillDone.contains 15 = false ∧ c3.banks.contains 31 = false
       ∧ sum (counting c4) = true ∧ c1.overTime = false ∧ c1.reached ≠ []) := by decide +kernel

/-- The token of `witness_TokensReachOperandSets` in flight to cluster 0 and to the span station, and at the read stage. -/
theorem witness_TokensReachOperandSets_delivery :
    (let p := pkt 2 0x01 vnTok 0 (Tag.pack tok0.tag) (.units [1]) .nobody; let q := { p with dstn := 25, at_ := 25 }
     let full := (flying p hot).setPe 0 { Pe.init with inq := List.replicate 128 tok0 }
     hot.up 3 && arrives (flying p hot) good0 p 0x01 && p.dstn != 25 && !((flying p hot).pe 0).stopped
       && ((flying p hot).pe 0).inq.length == 0 && arrives full good0 p 0x01 && (full.pe 0).inq.length == 128
       && arrives (flying q hot) good0 q 0x01 && q.dstn == 25) = true := by decide +kernel

theorem witness_TokensReachOperandSets_read :
    (let t0 := tok0; let t := { tok0 with tag := { tok0.tag with ctx := 7 } }
     let back := { t with tag := { t.tag with port := 3 } }; let bad := { t with tag := { t.tag with phg := true } }
     let r : ReadOp := ⟨0, 0, .ok, .ok⟩
     let at_ (x : Ctx) (t : Tok) : State := queued 0 t (hot.setCtx 7 x)
     let c := { live0 with state := .creating }
     let ready (s : State) (t : Tok) : Bool := readReady s r && decide (pickTok s 0 = some (t, 0))
     ready (at_ { live0 with state := .free } t) t && ready (at_ c t) t && ready (at_ c back) back
       && ready (at_ { live0 with state := .returning, census := some { census0 with reached := [0] } } t) t
       && censusAt ((at_ { live0 with state := .returning, census := some { census0 with reached := [0] } } t).ctx 7) 0
       && ready (at_ live0 t) t && ready (at_ { live0 with state := .quiesced } t) t && ready (at_ live0 bad) bad
       && ready (queued 0 t0 work) t0) = true := by decide +kernel

/-- Tokens at an ADD word of two tokens (R121, R123): at port 3, past the word's positions, the second of a set, one that
completes nothing because the set is at another port, the first of a set, and one whose set has spilled records. -/
theorem witness_TokensReachOperandSets_match :
    (let w := goodWord 0
     let s := peState w.encode (goodSet 0) work
     let o : Look := ⟨.ok, false, false⟩
     let port (n : Nat) : Tok := { tok0 with tag := { tok0.tag with port := n } }
     let half : Entry := ⟨.operand, 0, 0, 0, 0, none, some (valOf tyI64), none, 0, 0⟩
     let s1 := s.updPe 0 fun p => { p with store := [half] }
     let s2 := s.updPe 0 fun p => { p with filter := mset 0 p.filter (setIndex .operand 0 0 0) 1 }
     w.ok = true ∧ Insn.decode (word s 0 0) = w ∧ w.src ≠ 2 ∧ (port 3).tag.port = 3 ∧ w.tokens ≤ (port 2).tag.port
       ∧ (port 0).tag.port < w.tokens ∧ w.mergeForm = false ∧ keyPending (s.pe 0) (port 0).tag = false
       ∧ (s1.pe 0).store.find? (·.hasKey .operand 0 0 0) = some half
       ∧ (⟨0, 0, 0, 0, 0, some tok0.val, half.r, half.t⟩ : Firing).full w.tokens = true
       ∧ (⟨0, 0, 0, 0, 1, half.l, some tok0.val, half.t⟩ : Firing).full w.tokens = false
       ∧ (s.pe 0).store.find? (·.hasKey .operand 0 0 0) = none ∧ evictFind (s.pe 0) .operand 0 0 0 = none
       ∧ filterOf (s2.pe 0) (setIndex .operand 0 0 0) ≠ 0 ∧ o.entryDone = false ∧ w.tokens ≠ 1
       ∧ filterOf (s.pe 0) (setIndex .operand 0 0 0) = 0 ∧ (soloFiring (port 0)).full w.tokens = false
       ∧ (insertEntry 0 ⟨.operand, 0, 0, 0, 0, (soloFiring (port 0)).l, none, none, 0, 0⟩ [] true .ok s).isOk = true) := by decide +kernel

theorem witness_OverflowAndOutput :
    (let h : Held := ⟨tok0, 0, none, 0, 0, 0⟩
     let s := hot.updPe 5 fun p => { p with holdTok := some ⟨tok0, false, false⟩ }
     let u := hot.updPe 5 fun p => { p with hold := some (.held h) }
     let o := hot.updPe 5 fun p => { p with outq := [tok0, tok0], outWait := [tok0] }
     hot.up 5 = true ∧ clRuns hot 0 = true ∧ (s.pe 5).stopped = false ∧ (s.pe 5).holdTok = some ⟨tok0, false, false⟩
       ∧ (u.pe 5).holdTok = none ∧ (u.pe 5).hold = some (.held h) ∧ (u.pe 5).throttle.length < 128
       ∧ canLeave o 5 tok0 = true) := by decide +kernel

theorem witness_AnswersToRequests :
    (let ask (dstn cmd vn : Nat) (a : Asker) : Packet := { pkt dstn cmd vn 0 (1 * 2 ^ 8) (.units [1]) a with src := 6 }
     let pend (st : Nat) (a : Asker) (s : State) : State := s.updStn st fun y => { y with pend := [⟨0, (ask st 0x20 vnRsp a).txn, a, 6, false, 0, []⟩] }
     let at_ (st cmd vn : Nat) (a : Asker) : Bool :=
       let p := ask st cmd vn a; let s := flying p (pend st a hot)
       arrives s good0 p cmd && ((takePend st p.txn a (taken s good0)).1).isSome
     hot.up 3 && ([0x20, 0x21, 0x22].all fun cmd => at_ 2 cmd vnRsp (.pe 0)) && ([0x20, 0x21].all fun cmd => at_ 0 cmd vnRsp (.core 0 8 3 8 false))
       && (let p := ask 0 0x20 vnRsp .bar; arrives (flying p hot) good0 p 0x20 && ((takePend 0 p.txn .bar (taken (flying p hot) good0)).1).isNone)
       && at_ 0 0x22 vnRsp (.corePres 0 8 0 0) && ([0x42, 0x43].all fun cmd => at_ 0 cmd vnMgt .bar)
       && ([0x42, 0x43].all fun cmd => let p := ask 25 cmd vnMgt .bar; arrives (flying p hot) good0 p cmd)) = true := by decide +kernel

/-- A read of a firing of context 0 outstanding at PE 0, sent at etu 0; its context live, quiesced and in a census; overdue. -/
theorem witness_AnswersToRequests_ends :
    (let q : OutReq := ⟨3, 0, 0, 0, 0, 0, 0x10, 8, tyI64, .zero, [], false, 6, 0⟩
     let s := { work.updPe 0 (fun p => { p with reqs := [q] }) with now := 2 ^ 40 }
     let st := { hot.updStn 0 (fun y => { y with pend := [⟨0x50, 2, .coreStore 0 8, 6, false, 0, []⟩] }) with now := 2 ^ 40 }
     findReq s 0 3 false = some q ∧ 4 * 2 ^ rd s F.rngRsptoExp ≤ 5 * (s.now - q.sent) ∧ s.up 3 = true
       ∧ censusAt (s.ctx 0) 0 = false ∧ (s.ctx 0).ctxq = false ∧ st.up 3 = true
       ∧ (st.stn 0).pend.find? (fun y => y.txn == 2 && !y.deferred && overdue st y.sent) = some ⟨0x50, 2, .coreStore 0 8, 6, false, 0, []⟩) := by
  decide +kernel

/-- Cluster 0 spills: near window 0 is the first 512 Kbytes of bank 1, of which the directory takes 256. -/
def near0 : State :=
  forAll (List.range 26) (fun d s => put (put s (F.rngRtValid 0 0 d) 1) (F.rngRtValid 2 0 d) 1) <|
  put (put (put (put (put (put hot (F.clSpillcfgNsen 0) 1) (F.clNswinEn 0 0) 1) (F.clNswinBank 0 0) 1) (F.clNswinStart 0 0) 0)
    (F.clNswinSize 0 0) 8) (F.sbOwnerOwner 1) 0

/-- A spilled operand entry of context 7. -/
def rec0 : Entry := ⟨.operand, 0, 7, 0, 0, some (valOf tyI64), none, none, 0, 0⟩

theorem witness_SpillAndRefill_spwrite :
    (let x : SpillOp := ⟨0, 3, 0, stOK, none, none⟩
     let ev : Evicted := ⟨.entry rec0, 0, 1⟩
     let s := near0.updPe 3 fun p => { p with evict := [ev] }
     let ans (cmd ptr status : Nat) (us : List Nat) (s : State) : Option Nat := (splAccess 0 cmd ptr status us s).map Prod.fst
     let f := put (put (put (put s (F.clSpillcfgNsen 0) 0) (F.clSpillcfgFaren 0) 1) (F.clFssizeSize 0) 1) F.genProfstatActive 1
     let f := { (f.setCtx 7 { live0 with d := { live0.d with farspill := true } }) with linkState := 1 }
     s.up 5 && clRuns s 0 && peKey s 3 == 3 && decide ((s.pe 3).evict = [ev]) && x.lpe < 16 && decide (allocNear s 0 = some 4096)
       && !isFar 4096 && ans 0x30 4096 x.status (recUnits (recBytes ev 3 (endOf false))) s == some stOK
       && ans 0x30 4096 stUNCORR (recUnits (recBytes ev 3 (endOf false))) s == some stUNCORR && ans 0x32 4096 stOK [] s == some stOK
       && ans 0x30 farTag x.status (recUnits (recBytes ev 3 (endOf true))) f == some stOK && decide (allocNear f 0 = none) && farAllowed f 0 7
       && decide (allocFar f 0 = some farTag) && f.linkState == 1
       && decide (((near0.updCl 0 fun c => { c with toFree := [4096] }).cl 0).toFree = [4096])) = true := by decide +kernel

/-- A lookup that finds a record, one whose walk fails, and one that finds nothing. -/
theorem witness_SpillAndRefill_splookup :
    (let t : Tok := { tok0 with tag := { tok0.tag with ctx := 7 } }; let set := setIndex .operand 7 0 0
     let q : Parked := ⟨t, .entry set, false⟩; let qc : Parked := ⟨t, .const set true, false⟩
     let s0 := near0.updPe 3 fun p => { p with refill := [q] }
     let s := storeRec 0 3 4096 ⟨.entry rec0, 0, 1⟩ s0
     let x : SpillOp := ⟨0, 3, 0, stOK, none, none⟩
     let found (w : Walk) : Nat := match w with | .found .. => 1 | .failed .. => 2 | _ => 0
     s.up 5 && clRuns s 0 && decide ((s.pe 3).refill.find? (!·.asked) = some q) && qc.why == .const set true
       && found (walk s x (Rec.isFor false t.tag) 0 0 (chainOf s 0 3 set false)) == 1
       && found (walk s { x with crcAt := some 0 } (Rec.isFor false t.tag) 0 0 (chainOf s 0 3 set false)) == 2
       && found (walk s { x with errAt := some 0 } (Rec.isFor false t.tag) 0 0 (chainOf s 0 3 set false)) == 2
       && found (walk s0 x (Rec.isFor false t.tag) 0 0 (chainOf s0 0 3 set false)) == 0
       && (chainOf s0 0 3 set true).isEmpty && x.lpe < 16
       && [s, s0].all (fun s => (splAccess 0 0x31 ((chainOf s 0 3 set false).headD 0) x.status [] s).isSome)
       && (let far := storeRec 0 3 farTag ⟨.entry rec0, 0, 1⟩ { s0 with linkState := 1 }
           linkUp far && (chainOf far 0 3 set false).isEmpty && !(chainOf far 0 3 set true).isEmpty
             && (splAccess 0 0x31 ((chainOf far 0 3 set true).headD 0) x.status [] far).isSome
             && found (walk far { x with crcAt := some 0 } (Rec.isFor false t.tag) 0 0 (chainOf far 0 3 set true)) == 2)) = true := by decide +kernel

/-- A ready record read back; one moved out of a window that drains; answers that wait; a window drained. -/
theorem witness_SpillAndRefill_spread :
    (let ready : Entry := { rec0 with kind := .ready, r := some (valOf tyI64) }
     let s := storeRec 0 3 4096 ⟨.entry ready, 0, 1⟩ near0
     let d := put (put (storeRec 0 3 (2 ^ 14) ⟨.entry ready, 0, 1⟩ (put (put (put near0 (F.clNswinEn 0 1) 1) (F.clNswinBank 0 1) 2)
       (F.clNswinSize 0 1) 1)) (F.clNswinEn 0 1) 0) (F.clNsstatDraining 0) 2
     let x : SpillOp := ⟨0, 3, 0, stOK, none, none⟩
     let a : SpAns := ackAns 0
     let b (f : Option Rec) : State := near0.updPe 3 fun p => { p with spAns := [{ a with look := true, found := f }] }
     let h : Held := ⟨{ tok0 with tag := { tok0.tag with ctx := 7 } }, 0, none, 0, 0, 0⟩
     (match walk s x (fun _ => true) 0 0 (mget [] (s.cl 0).readyChain 3) with | .found 0 _ => true | _ => false)
       && decide (mget [] (s.cl 0).readyChain 3 = [4096]) && !isFar 4096 && x.lpe < 16
       && (splAccess 0 0x33 4096 x.status [] s).isSome && recKind (getRec s 0 4096) == 0
       && (readyList (s.pe 3)).length == 0 && decide ((usedNear d 0).find? (fun p => drainingRec d 0 p && !(d.cl 0).toFree.contains p) = some (2 ^ 14))
       && decide (allocNear d 0 = some 4096) && recLpe (getRec d 0 (2 ^ 14)) == 3
       && decide ((mget [] (d.cl 0).readyChain 3).findIdx? (· == 2 ^ 14) = some 0) && !recBad d 0 (2 ^ 14)
       && decide ((splAccess 0 0x33 (2 ^ 14) x.status [] d).map Prod.fst = some stOK) && !(mget [] (d.cl 0).heldChain 3).contains (2 ^ 14)
       && decide (nextAns ((near0.updPe 3 fun p => { p with spAns := [a] }).pe 3) false = some (a, []))
       && [none, some (.held h), some (.entry rec0)].all (fun f =>
         decide (nextAns ((b f).pe 3) true = some ({ a with look := true, found := f }, [])))
       && (let v := (b (some (.entry rec0))).setCtx 7 live0
           let u := bumpCtr 3 1 (settleAns 3 { a with look := true, found := some (.entry rec0) } (count 3 7 0 (-1) (v.updPe 3 fun p => { p with spAns := [] })))
           decide ((v.ctx 7).state = .live) && decide ((v.ctx 7).census = none)
             && (insertEntry 3 { rec0 with order := (u.pe 3).stamp } [] true ⟨.ok, .ok, .ok, .ok, .ok, .ok, .ok⟩ u).isOk)
       && (let e := put near0 (F.clNsstatDraining 0) 2; (rd e (F.clNsstatDraining 0)).testBit 1
             && ((usedNear e 0).any fun p => p / 2 ^ 14 == 1 && drainingRec e 0 p) == false)) = true := by decide +kernel

/-! ### The ring network and span links -/

theorem witness_RouteChangeovers :
    (let s := put hot F.rngEpochState 2
     let p := { pkt 3 0x01 vnTok 0 0 (.units [1]) .nobody with epoch := 1 }
     hot.up 3 && !epochAgrees (put hot F.rngEpochState 1) && rd s F.rngEpochState == 2 && (flying p s).net.length == 1
       && [1, 3].all (fun n => rd (put hot F.rngEpochState n) F.rngEpochState == n) && p.onRing && p.at_ < 26
       && p.epoch != rd s F.rngEpochCur && decide (({ s with epochAt := some 0, now := 1600000 } : State).epochAt = some 0)
       && decide (0 + 1600000 ≤ ({ s with epochAt := some 0, now := 1600000 } : State).now)
       && decide (({ s with epochAt := some 0, now := 1599999 } : State).now < 0 + 1600000)) = true := by decide +kernel

/-- An allowed changeover: no route is valid in the new epoch, as after reset, and none differs. -/
theorem witness_RouteChangeovers_allowed : epochAgrees hot = true := by decide +kernel

theorem witness_SpanLinks :
    (let at_ (st : Nat) : State := put (put hot (F.spnPortstatState 3) st) (F.spnPortcfgEn 3) 1
     hot.up 3 && rd hot (F.spnPortcfgEn 3) == 0 && ({ hot with locked := [0] } : State).locked.contains 0
       && [1, 2, 3, 4, 5].all (fun st => rd (at_ st) (F.spnPortstatState 3) == st && rd (at_ st) (F.spnPortcfgEn 3) == 1)
       && bits 0 0 12 == devnum hot && bits 7 0 12 != devnum hot && decide (((at_ 3).span 3).oldPeer = none)
       && (let s : State := { (at_ 3).updSpan 3 (fun x => { x with oldPeer := some (7, 1, 0) }) with now := 160000000 }
           decide ((s.span 3).oldPeer = some (7, 1, 0)) && decide (0 + 160000000 ≤ State.now s) && rd s (F.spnPortstatState 3) != 5))
      = true := by decide +kernel

/-- Codewords that begin a packet, that continue one, NULL, with a reserved FHO, uncorrectable, and of three sequence numbers. -/
theorem witness_SpanUnits :
    (let at_ (st : Nat) : State := put (put hot (F.spnPortstatState 3) st) (F.spnPortcfgEn 3) 1
     let c (seq fho : Nat) (null good : Bool) : Codeword := ⟨message seq 63 fho false null [], good, false⟩
     hot.up 3 && rd (at_ 5) (F.spnPortstatState 3) == 5 && rd (at_ 3) (F.spnPortstatState 3) == 3
       && (c 0 63 false true).good && !(c 0 63 false false).good && (c 0 40 false true).fho == 40 && (c 0 62 false true).fho == 62
       && (c 0 39 false true).fho == 39 && (c 0 63 false true).fho == 63 && (c 0 63 true true).isNull && !(c 0 63 false true).isNull
       && ((at_ 5).span 3).rxSeq == 0 && (c 0 63 false true).seq == 0
       && (0 + 64 - (c 63 63 false true).seq) % 64 ≤ 32 && (c 63 63 false true).seq != 0
       && (0 + 64 - (c 32 63 false true).seq) % 64 ≤ 32 && 32 < (0 + 64 - (c 31 63 false true).seq) % 64) = true := by decide +kernel

/-! ### Phase, converters, drives -/

/-- Source 3 on input 2, of a type. -/
def source (ty : Nat) : State := put (put hot (F.phSrccfgType 3) ty) (F.phSrccfgInput 3) 2

theorem witness_PhaseCounters :
    (hot.up 3 && decide (sourcesOn (source 5) 2 [5] = [3]) && [1, 2, 3].all (fun ty =>
      decide (sourcesOn (source ty) 2 [1, 2, 3] = [3]) && srcType (source ty) 3 == ty)) = true ∧ 0 < 1 ∧ 4095 < 4096 := by
  decide +kernel

theorem witness_NoonMarksAndFrames :
    (let s (mode : Nat) (homed : Bool) : State := (put (source 1) (F.phSrccfgNoonmode 3) mode).updPh 3 fun x => { x with homed := homed }
     let ev (st : Nat) (sw : Bool) : State := { (source 1).updPh 3 (fun x => { x with state := st, switched := sw }) with now := 2 ^ 50 }
     let alt (s : State) : State := (put (put (put s (F.phSrccfgAlten 3) 1) (F.phSrccfgAlt 3) 4) (F.phSrccfgType 4) 1).updPh 4
       fun x => { x with state := 2 }
     [0, 1, 2, 3].all (fun m => [false, true].all fun h => decide (sourcesOn (s m h) 2 [1, 2, 3] = [3])
         && rd (s m h) (F.phSrccfgNoonmode 3) == m && ((s m h).ph 3).homed == h)
       && hot.up 3 && hasEvents (srcType (ev 2 false) 3) && decide (((ev 2 false).ph 3).lastEvent + edgeTimeout (ev 2 false) 3 ≤ (ev 2 false).now)
       && ((ev 2 true).ph 3).switched && !((ev 2 false).ph 3).switched && !altLocked (ev 2 false) 3 && altLocked (alt (ev 2 false)) 3
       && ((ev 2 false).ph 3).state == 2
       && ((ev 3 false).ph 3).state == 3 && decide (((ev 3 false).ph 3).coastAt + usEtu (rd (ev 3 false) (F.phSrctimeHorizon 3)) ≤ (ev 3 false).now)
       && rd (put hot (F.spnPortstatState 3) 5) (F.spnPortstatState 3) == 5) = true := by decide +kernel

/-- Converter port 31 is on, and so are ring 63 and the PLL. -/
def conv : State :=
  put (put (put (put (put (put (put hot (F.cnvPortcfgEn 31) 1) F.cnvPllcfgPllmul 10) F.cnvPllcfgLock 1) F.clkRefstatPresent 7)
    (F.cnvCapcfgEn 63) 1) (F.cnvCapsizeSize 63) 16) (F.cnvPortcfgCpl 31) 1

/-- A lane: header with sequence number `a`, one word, and its CRC (R188). -/
def lane (a : Nat) : List Nat :=
  let b := [0xD4B * 2 ^ 20 + 2 ^ 16 + a * 256, 0x12345678]
  b ++ [crc16 (b.flatMap beWord) * 2 ^ 16]

theorem witness_ConverterPorts :
    (let q : Strobe := ⟨9, 0, 0, 0, 0, none, false⟩
     let s (got : Option (List (Nat × Nat) × Bool)) : State := conv.updPort 31 fun p => { p with strobes := [{ q with got := got }] }
     let find (s : State) (a : Nat) : Option Strobe := ((closeOldest 31 s).port 31).strobes.find? (fun q => q.seq % 256 == a)
     conv.up 3 && (rd conv F.clkRefstatPresent).testBit 2 && rd conv F.cnvPllcfgPllmul != 0 && rd conv F.cnvPllcfgLock == 1
       && rd conv (F.cnvPortcfgEn 31) == 1 && decide (inHeader (lane 9) = some 9) && laneCrcOk 1 (lane 9)
       && rd (closeOldest 31 conv) (F.cnvPortcfgCpl 31) == 1
       && decide (find (s none) 9 = some q) && decide (find (s none) 8 = none) && decide ((find (s (some ([], false))) 9).isSome = true)
       && decide (inHeader ((lane 9).take 2 ++ [0]) = some 9) && !laneCrcOk 1 ((lane 9).take 2 ++ [0])) = true := by decide +kernel

theorem witness_ConverterPorts_rings :
    (let at_ (st : Nat) : State := put conv (F.cnvCapstatState 63) st
     let p := pkt 12 0x1B vnReq 0 (63 + 3 * 2 ^ 8 + 1 * 2 ^ 40) (.units []) .nobody
     let own (o : Nat) : State := flying p (put conv (F.sbOwnerOwner (rd conv (F.cnvCapcfgBank 63))) o)
     let bad := own 0x59
     [2, 3, 4, 5].all (fun st => rd (at_ st) (F.cnvCapstatState 63) == st) && arrives (flying p conv) good0 p 0x1B
       && ((((flying p conv).stn 12).pend.any (·.asker == .ring 63)) == false) && bits p.f 0 8 == 63
       && rd conv (F.cnvCapcfgEn 63) == 1 && rd conv (F.cnvCapsizeSize 63) != 0 && rd hot (F.cnvCapcfgEn 63) != 1
       && rd (own 0x59) (F.sbOwnerOwner (rd (own 0x59) (F.cnvCapcfgBank 63))) == 0x59
       && rd (own 0x10) (F.sbOwnerOwner (rd (own 0x10) (F.cnvCapcfgBank 63))) != 0x59
       && ({ good0 with mem := .uncorrectable } : Deliver).mem == .uncorrectable && arrives bad good0 p 0x1B
       && (List.range 1).all (fun i => (List.range 8).all fun j => !scrBad (own 0x59) (capAddr (own 0x59) 63 (3 + i) + 8 * j))) = true := by
  decide +kernel

/-- Channel 255 is enabled, with a queue of one unit; context 0 has it as its one channel. -/
def drv : State :=
  (put (put conv (F.drvChcfgEn 255) 1) (F.drvChcfgQunits 255) 1).setCtx 0
    { live0 with d := { live0.d with drvfirst := 255, drvcount := 1 } }

theorem witness_DriveOutputs_values :
    (let p := pkt 12 0x03 vnTok 0 255 (.units [1]) .nobody; let e (s : State) := (s.ctx (bits p.f 8 14)).d
     let full := drv.updChan 255 fun x => { x with q := List.replicate 128 0 }
     [0, 1, 2, 3].all (fun st => let s := flying p (put drv (F.drvChstatState 255) st)
       s.up 3 && arrives s good0 p 0x03 && bits p.f 0 8 == 255 && rd s (F.drvChcfgEn 255) == 1
         && decide ((255 + 256 - (e s).drvfirst % 256) % 256 < (e s).drvcount) && rd s (F.drvChstatState 255) == st
         && decide ((s.chan 255).q.length < rd s (F.drvChcfgQunits 255) * 128))
       && decide (rd full (F.drvChcfgQunits 255) * 128 ≤ (full.chan 255).q.length) && arrives (flying p hot) good0 p 0x03
       && rd hot (F.drvChcfgEn 255) != 1) = true := by decide +kernel

theorem witness_DriveOutputs_causes :
    (let s := { put drv F.drvSafecfgHben 1 with heartbeatAt := some 0, now := 1600000 * rd drv F.drvSafecfgHbto }
     let stop := put (put drv (F.drvChstatState 255) 3) F.drvAbortstatCause 2
     rd conv (F.cnvPortcfgEn 31) == 1 && rd conv F.cnvPllcfgLock == 1
       && !hot.activeCauses.contains 2 && ({ hot with activeCauses := [2, 4] } : State).activeCauses.contains 2 && !hot.activeCauses.contains 4
       && rd s F.drvSafecfgHben == 1 && rd hot F.drvSafecfgHben != 1 && decide (s.heartbeatAt = some 0)
       && decide (0 + 1600000 * rd s F.drvSafecfgHbto ≤ s.now) && rd hot F.drvAbortstatCause < 2 ^ 7 && rd hot F.drvAbortstatStall < 2 ^ 16
       && rd stop (F.drvChstatState 255) == 3 && !scopeClear stop 255 && scopeClear (put stop F.drvAbortstatCause 0) 255
       && rd hot (F.drvChstatState 255) != 3) = true := by decide +kernel

/-- Groups that may be enabled (no cause is set), and not (a device-wide cause); channels that ramp and none. -/
theorem witness_DriveOutputs_groups :
    (let may (s : State) (g : Nat) : Bool := rd s F.genQuiesceDone != 1 && !wideSet s
      && (grpChans s g).all fun c => rd s (F.drvChstatState c) == 0 || rd s (F.drvChstatState c) == 1
     let run := put drv (F.drvChstatState 255) 1
     (List.range 8).all (may drv) && !may (put drv F.drvAbortstatCause 4) 0
       && (runChans hot (fun c => ((List.range 8).filter (Nat.testBit 255)).contains (rd hot (F.drvChcfgGrp c)))).isEmpty
       && !(runChans run (fun c => ((List.range 8).filter (Nat.testBit 255)).contains (rd run (F.drvChcfgGrp c)))).isEmpty)
      = true := by decide +kernel

/-! ### Sessions and their commands -/

/-- A submission entry. -/
def entryOf (opc dptr dlen : Nat) (ps : List Nat) : SqEntry := ⟨opc, 0, 1, 0, dptr, dlen, ps⟩

/-- The command of that entry, started. -/
def cmdOf (sess : Nat) (e : SqEntry) : Cmd := ⟨7, sess, e, 1, true, 0, 0, [], 0⟩

/-- The session is ACTIVE and that entry is its one command, not yet started. -/
def active (sess : Nat) (e : SqEntry) (s : State) : State :=
  s.setSess sess { Sess.init with st := .active, sqLog := 6, cqLog := 6, cmds := [{ cmdOf sess e with started := false }] }

def run (sess : Nat) : Run := ⟨sess, [], false, 0⟩

/-- That command starts. -/
def startsOn (sess opc cls : Nat) (buf : Bool) (m : List Nat) (e : SqEntry) (s : State) : Bool :=
  starts (active sess e s) (run sess) opc cls buf m (cmdOf sess e) && decide ((active sess e s).up 6)

theorem witness_SessionCommandChecks :
    EachSessionRow (fun _ opc cls buf m =>
      let e := entryOf opc 0 0 []; let bad := { e with flags := 2 }
      startsOn 0 opc cls buf m e hot = true
        ∧ turn (active 0 bad hot) (run 0) opc (cmdOf 0 bad) = true ∧ outside (active 0 bad hot) (run 0) cls = false
        ∧ badField (cmdOf 0 bad).e buf m = some 1
        ∧ (cls = 1 → turn (active 5 e hot) (run 5) opc (cmdOf 5 e) = true ∧ outside (active 5 e hot) (run 5) cls = true)
        ∧ (cls = 2 → let s := (active 5 e hot).updSess 5 (fun x => { x with fn := 3 })
            turn s (run 5) opc (cmdOf 5 e) = true ∧ outside s (run 5) cls = true)
        ∧ (hot.sess 5).st ≠ .active ∧ nextCmd (hot.sess 0) = none
        ∧ (nextCmd ((active 0 { e with opc := 0 } hot).sess 0)).isSome = true ∧ opc ≠ 0) := by
  unfold EachSessionRow; decide +kernel

theorem witness_DoorbellsAndCompletions :
    (let s : State := hot.setSess 3
       { Sess.init with st := .active, sqLog := 6, cqLog := 6, evLog := 6, sqTail := 4, coalN := 2, cqUns := 1, evUns := 1, coalUs := 1 }
     let x := s.sess 3; let at_ : State := { s with now := 1600 }; let full := s.updSess 3 (fun y => { y with cqTail := 5, cqHead := 6 })
     let y := full.sess 3
     hot.up 3 = true ∧ (hot.sess 3).st ≠ .active ∧ x.st = .active ∧ 2 ^ x.sqLog ≤ 64 ∧ 63 < 2 ^ x.sqLog ∧ 2 ^ x.cqLog ≤ 64
       ∧ 63 < 2 ^ x.cqLog ∧ x.evLog ≠ 0 ∧ 2 ^ x.evLog ≤ 64 ∧ 63 < 2 ^ x.evLog ∧ x.held = [] ∧ cqRoom x = true ∧ cqRoom y = false
       ∧ min 3 (min (min ((x.sqTail + 2 ^ x.sqLog - x.sqHead) % 2 ^ x.sqLog) 64) (2 ^ x.sqLog - x.sqHead)) = 3
       ∧ x.cqUns ≠ 0 ∧ x.evUns ≠ 0 ∧ x.mute = false ∧ 1600 * x.coalUs ≤ at_.now - x.cqSince ∧ 1600 * x.coalUs ≤ at_.now - x.evSince
       ∧ s.now - x.cqSince < 1600 * x.coalUs ∧ s.now - x.evSince < 1600 * x.coalUs
       ∧ (y.cqTail + 1) % 2 ^ y.cqLog = y.cqHead ∧ y.held = [] ∧ (x.cqTail + 1) % 2 ^ x.cqLog ≠ x.cqHead
       ∧ (hot.sess 3).cqUns = 0 ∧ (hot.sess 3).evUns = 0) := by decide +kernel

/-- SESS_CREATE with rings of 64 entries at 1000H and 2000H, on function 0 and on function 1; and with a ring of 8 entries. -/
theorem witness_SessionsAndContexts_create :
    (let p (log fn : Nat) : SqEntry := entryOf 0x01 0 0 [0x1000, 0x2000, log + 6 * 2 ^ 5 + fn * 2 ^ 18, 0, 0]
     let u (e : SqEntry) : State := begun (cmdOf 0 e) (active 0 e hot)
     [p 6 0, p 6 1, p 3 0].all (fun e => startsOn 0 0x01 1 false [full64, full64, full64, full64, 0x7FF] e hot)
       && decide (sessField (u (p 6 0)) (cmdOf 0 (p 6 0)) = none) && decide (sessField (u (p 6 1)) (cmdOf 0 (p 6 1)) = none)
       && decide (sessField (u (p 3 0)) (cmdOf 0 (p 3 0)) = some 40)
       && decide ((freeSess (u (p 6 0)))[0]? = some 1) && (freeSess (u (p 6 0))).length == 4095
       && decide ((freeSlot (u (p 6 1)) 1)[0]? = some 0)
       && (let full : State := { hot with sessions := (List.range 256).map fun k => (k + 1, { Sess.init with st := .active, fn := 1, slot := k }) }
           (freeSlot full 1).isEmpty)) = true := by decide +kernel

/-- SESS_DESTROY of session 5 in each state, and the end of its closing. -/
theorem witness_SessionsAndContexts_destroy :
    (let e (p : Nat) : SqEntry := entryOf 0x02 0 0 [p]
     let s (st : SessState) : State := (hot.setSess 5 { Sess.init with st := st, destroyer := some 7 })
     let ctx (s : State) : State := s.setCtx 3 { live0 with d := { live0.d with session := 5 } }
     [0, 5, 5 + 2 ^ 16].all (fun p => startsOn 0 0x02 1 false [0x10FFF] (e p) hot)
       && decide (((s .free).sess 5).st = .free) && decide (((s .closing).sess 5).st = .closing)
       && decide (((s .active).sess 5).st ≠ .free) && !(sessCtxs (ctx (s .active)) 5).isEmpty && (sessCtxs (s .active) 5).isEmpty
       && decide (((s .closing).sess 5).destroyer = some 7) && (sessLive (forAll (sessLive (s .closing) 5) killCtx (s .closing)) 5).isEmpty
       && ((s .closing).sess 5).cmds.isEmpty
       && !((((s .closing).updSess 5 (fun x => { x with cmds := [cmdOf 5 (e 0)] })).sess 5).cmds).isEmpty) = true := by
  decide +kernel

/-- CTX_CREATE: a descriptor for a template of ring 3 without continuation, one with a reserved bit, and the refusals. -/
theorem witness_SessionsAndContexts_ctxcreate :
    (let ws (w0 : Nat) : List Nat := [w0 + 3 * 16 + 2 ^ 48, 0, 0, 1, 0, 0, 0, 0]
     let ok := ws 0; let d := descOf ok; let bad := ws (3 * 2 ^ 20)
     let wrong (ws : List Nat) (t : Template) : Bool := descReserved ws || (descOf ws).ring != t.d.ring || (descOf ws).mode != t.d.mode
       || !(descOf ws).w0.aligned || !(descOf ws).w1.aligned || !(descOf ws).w2.aligned
       || decide (256 < (descOf ws).drvfirst + (descOf ws).drvcount)
     let full : State := { work with ctxs := (List.range 8192).map fun k => (k, live0) }
     let drv (s : State) : State := s.setCtx 9 { live0 with d := { live0.d with drvfirst := 4, drvcount := 1 } }
     startsOn 0 0x14 0 true [] (entryOf 0x14 0 64 []) work && startsOn 5 0x14 0 true [] (entryOf 0x14 0 64 []) work
       && devQuiesce (put hot F.genQuiesceDone 1) && !devQuiesce work && hot.templates.all (fun t => t.handle != d.tmpl)
       && decide (work.templates.find? (·.handle == d.tmpl) = some tmpl1) && decide (3 ≤ tmpl1.d.ring) && !wrong ok tmpl1 && wrong bad tmpl1
       && rettagOk work 0 d.rettag && !rettagOk work 0 0x8000000000000 && !drvTaken work d
       && drvTaken (drv work) { d with drvfirst := 3, drvcount := 2 } && (findSlot work (lowestCl work tmpl1) 0).isSome
       && decide ({ tmpl1 with d := { tmpl1.d with ring := 1 } }.d.ring < 2) && (full.ctxs.length == 8192)) = true := by decide +kernel

/-- The other context commands, on a context of session 5 in each state, from sessions 0, 5 and 6. -/
theorem witness_SessionsAndContexts_contexts :
    (let e (opc : Nat) (ps : List Nat) : SqEntry := entryOf opc 0 0 ps
     let at_ (st : CtxState) : State := work.setCtx 3 { live0 with state := st, d := { live0.d with session := 5 } }
     [0x15, 0x16, 0x17, 0x19].all (fun opc => [0, 5, 6].all fun n => startsOn n opc 0 false [full64] (e opc [3]) (at_ .live))
       && startsOn 5 0x18 0 false [full64, full64, 0x7F0F] (e 0x18 [3, 1, 9]) (at_ .live)
       && [0, 5].all (fun n => [CtxState.live, .quiesced].all fun st => ctxOpen (at_ st) (cmdOf n (e 0x15 [3])))
       && stale (at_ .live) 4 && !stale (at_ .live) 3 && ((at_ .live).ctx 3).d.session != 6 && refReturning (at_ .returning) 3
       && !refReturning (at_ .live) 3 && devQuiesce (put (at_ .quiesced) F.genQuiesceDone 1) && !devQuiesce (at_ .quiesced)
       && (((template (at_ .live) 1).bind (·.args[0]?)).isSome) && (((template (at_ .live) 1).bind (·.args[1]?)).isNone)
       && 9 % 16 ∈ [0, 1, 2, 3, 4, 5, 6, 9, 0xA] && 7 % 16 ∉ [0, 1, 2, 3, 4, 5, 6, 9, 0xA]) = true := by decide +kernel

theorem witness_ObservationQueuesAtHost :
    (let it : Item := ⟨0, 0, 0, 0, 0, 0, 0⟩
     let q (a : Option Nat) (s : State) : State := s.setQueue 2 { Queue.init with attached := a, items := [it] }
     let ev (s : State) : State := s.updSess 5 fun x => { x with evLog := 6 }
     let s := q (some 5) (ev (active 5 (entryOf 0x1D 0 0 [2]) hot))
     [0, 5].all (fun n => startsOn n 0x1D 0 false [0xF] (entryOf 0x1D 0 0 [2]) hot && startsOn n 0x1E 0 false [0xF] (entryOf 0x1E 0 0 [2]) hot)
       && starts s (run 5) 0x1D 0 false [0xF] (cmdOf 5 (entryOf 0x1D 0 0 [2]))
       && ((begun (cmdOf 5 (entryOf 0x1D 0 0 [2])) s).sess 5).evLog != 0 && (hot.sess 5).evLog == 0
       && decide ((hot.queue 2).attached = none) && decide ((s.queue 2).attached = some 5) && decide (((q (some 6) hot).queue 2).attached = some 6)
       && startsOn 0 0x06 2 false [0xF, full64, full64] (entryOf 0x06 0 0 [2, 1, 1]) hot && rd hot (F.phSrccfgType 2) != 4
       && rd (put hot (F.phSrccfgType 2) 4) (F.phSrccfgType 2) == 4 && hot.up 3 && decide ((s.sess 5).st = .active) && evRoom (s.sess 5)
       && decide (nextQueue s 5 = some 2) && !evRoom (hot.sess 5) && decide (nextQueue hot 5 = none)
       && ((s.queue 2).pop).isSome && (s.sess 5).evTail + 1 != 2 ^ (s.sess 5).evLog
       && ((s.updSess 5 fun x => { x with evTail := 63, evHead := 1 }).sess 5).evTail + 1 == 2 ^ 6
       && evRoom ((s.updSess 5 fun x => { x with evTail := 63, evHead := 1 }).sess 5)) = true := by decide +kernel

/-- IMG_LOAD from the store and from the host, IMG_STORE and IMG_UNLOAD, on a device with one image, and without. -/
theorem witness_ImagesAndMoves_images :
    (let im : Image := ⟨2, 5, [], [1, 2, 3]⟩
     let s : State := { work with images := [im], stored := [(63, [1])] }
     let l (dptr dlen p : Nat) : SqEntry := entryOf 0x11 dptr dlen [0, p]
     [l 16 0 0x100, l 0 4 0x100, l 0 0 0x140, l 0 0 0x13E, l 0 0 0x13F, l 0 4 1, l 0 4 0].all (fun e => startsOn 0 0x11 0 true [0, 0x1FF] e s)
       && decide (mget [] s.stored 62 = []) && decide (mget [] s.stored 63 ≠ []) && (imageOffence []).isSome
       && [64, 63].all (fun p => startsOn 0 0x05 1 false [0xFFFF, 0xFF] (entryOf 0x05 0 0 [2, p]) s)
       && decide (s.images.find? (·.id == 2) = some im) && decide (s.images.find? (·.id == 3) = none)
       && storeUsed { s with stored := mset [] s.stored 63 im.bytes } ≤ 40 * 2 ^ 20
       && [0, 5, 6].all (fun n => startsOn n 0x12 0 false [0xFFFF] (entryOf 0x12 0 0 [2]) s)
       && !imageBusy hot 2 && imageBusy work 0) = true := by decide +kernel

/-- SCR_READ and SCR_WRITE with each offence and none; CAP_READ; grants and their withdrawal. -/
theorem witness_ImagesAndMoves_moves :
    (let e (opc len a v : Nat) : SqEntry := entryOf opc 0 len [a, v]
     let cap (n : Nat) : SqEntry := entryOf 0x1C 0 64 [n, 0, 1]
     let g (opc base size : Nat) : SqEntry := entryOf opc 0 0 [base, size, 3]
     [0x1A, 0x1B].all (fun opc => [e opc 15 0 0, e opc 16 8 0, e opc 16 0 2, e opc 16 0 3, e opc 16 0 0].all fun x =>
         startsOn 5 opc 0 true [0x1FFFFFF, 3] x hot)
       && (let c := { cmdOf 5 (e 0x1A 64 0 0) with left := 64 }; (viewOf (nextChunk c).addr).isSome)
       && startsOn 5 0x1C 0 true [0x3F, 0xFFFFFFFF, 0xFFFFFFFF] (cap 63) conv && ringState hot 63 == 0
       && ringState (put conv (F.cnvCapstatState 63) 2) 63 != 0 && decide (1 * capLen (ringNch conv 63) ≤ 64)
       && [g 0x03 1 0, g 0x03 0 1, g 0x03 0 65536, g 0x03 0 (65 * 2 ^ 30 / 65536 * 65536)].all (fun x =>
         startsOn 0 0x03 1 false [full64, full64, 0xF] x hot)
       && startsOn 0 0x04 1 false [0, 0, 0xF] (entryOf 0x04 0 0 [0, 0, 3]) hot && rd hot (F.clFsstatUsed 3) == 0
       && rd (put hot (F.clFsstatUsed 3) 1) (F.clFsstatUsed 3) != 0 && grantedElse hot 3 + 65536 ≤ 64 * 2 ^ 30
       && !(commitFar 3 0 1 hot).1 && (commitFar 3 0 0x100001 hot).1) = true := by decide +kernel

/-! ### The log engine, the security unit, function-level resets -/

/-- A namespace with an outstanding Flush (command 9, sent at etu 0). -/
def ns0 : Ns :=
  { nsid := 1, qid := 1, qsize := 4, sqBase := 0, cqBase := 0, sqDb := 0, cqDb := 0, stBase := 0, stSize := 4 * 2 ^ 20, lbads := 9,
    mdts := 12, slots := 2, sealedSegs := [], seg := none, cmds := [⟨9, 0, .sealFlush, 0, 0, 0, [], 0, 0⟩], wait := [], nextCid := 10,
    sqTail := 0, cqHead := 0, failed := false }

/-- The log in a state of LOG_STATE, with that namespace as number 7. -/
def logged (st : Nat) : State := setNs 7 (some ns0) (put hot F.logStateState st)

theorem witness_LogEngine_commands :
    (let e (opc p : Nat) : SqEntry := entryOf opc 0 0 [p]
     let busy (s : State) : State := updLog (fun l => { l with createCmd := some 3 }) s
     let bytes := leBytes 4 1 ++ leBytes 2 1 ++ leBytes 2 4 ++ List.replicate 40 0 ++ leBytes 4 (4 * 2 ^ 20) ++ [9, 12, 0, 0] ++ leBytes 8 (2 * 2 ^ 17)
     let x := nsOf bytes
     [0, 1, 2, 3, 4].all (fun st => logState (logged st) == st && startsOn 0 0x41 2 false [7] (e 0x41 7) (logged st)
         && startsOn 0 0x42 2 false [full64] (e 0x42 1) (logged st) && startsOn 0 0x43 2 false [] (e 0x43 0) (logged st)
         && startsOn 0 0x44 2 false [] (e 0x44 0) (logged st) && startsOn 0 0x45 2 false [] (e 0x45 0) (logged st)
         && startsOn 0 0x48 2 false [full64] (e 0x48 1) (logged st))
       && [0, 63, 64].all (fun n => startsOn 0 0x40 2 true [7] (entryOf 0x40 0 n [6]) (logged 1) && startsOn 0 0x46 2 true [] (entryOf 0x46 0 n []) (logged 1))
       && [15, 16, 81888, 81889].all (fun n => startsOn 0 0x47 2 true [] (entryOf 0x47 0 n []) (logged 2))
       && ((logged 1).ns 7).isSome && ((logged 1).ns 6).isNone && !logBusy (logged 1) && logBusy (busy (logged 1))
       && x.fieldsOk 0 && !x.fieldsOk 1 && !x.badFormat hot && { x with mdts := 11 }.badFormat hot
       && (nsList (setNs 7 none (logged 1))).isEmpty && !(nsList (setNs 7 none (setNs 6 (some ns0) (logged 1)))).isEmpty
       && !(nsList (logged 0)).isEmpty && (nsList hot).isEmpty && (lastState (logged 1)).isNone
       && (lastState (updLog (fun l => { l with jstates := [⟨1, 1, [], 0, [], []⟩] }) (logged 1))).isSome
       && !(List.range 64).any (badStream (logged 1)) && (List.range 64).any (badStream (put (logged 1) (F.logStreamcfgEn 3) 1))
       && (logged 2).log.stopCmd.isNone && (updLog (fun l => { l with stopCmd := some 3 }) (logged 2)).log.stopCmd.isSome
       && (let q := put (logged 0) F.genQuiesceDone 1; devQuiesce q && startsOn 2 0x45 2 false [] (e 0x45 0) q && !logBusy q)
       && !devQuiesce (logged 0) && !(logged 2).log.stopping) = true := by decide +kernel

theorem witness_LogEngine_engine :
    (let s := logged 2; let late := { s with now := 2000 * 1600000 }; let c : NvCmd := ⟨9, 0, .sealFlush, 0, 0, 0, [], 0, 0⟩
     let j : JEntry := ⟨1, 1, 0, 0, 0, 0, []⟩; let u := updLog (fun l => { l with jq := [j] }) s
     s.up 3 = true ∧ s.ns 7 = some ns0 ∧ ns0.cmds.find? (·.cid == 9) = some c ∧ ns0.cmds.find? (·.cid == 8) = none
       ∧ s.now - c.sent < 2000 * 1600000 ∧ 2000 * 1600000 ≤ late.now - c.sent ∧ s.log.jq = [] ∧ u.log.jq = [j]
       ∧ (journalWritten j u).log.resumeStep ≠ 3 ∧ (journalWritten j (updLog (fun l => { l with resumeStep := 3 }) u)).log.resumeStep = 3) := by
  decide +kernel

theorem witness_ConfigurationRecord :
    (let busy := put hot F.secCfgctlBusy 1; let set : State := { hot with cfgRec := some { CfgRec.shipped with keySlots := [some [], none, none, none] } }
     let r := set.cfgRec.getD .shipped
     hot.up 3 = true ∧ rd hot F.secCfgctlBusy ≠ 1 ∧ rd busy F.secCfgctlBusy = 1 ∧ ({ hot with variant := 2 } : State).variant = 2
       ∧ rd (put hot (F.secCfgdataData 0) 1) (F.secCfgdataData 0) % 2 = 1 ∧ (r.keySlots.getD (4 % 4) none).isSome = true
       ∧ r.keySlots.getD (7 % 4) none = none ∧ hot.cfgPending = none
       ∧ ({ hot with cfgPending := some .shipped } : State).cfgPending = some .shipped ∧ 15 < 16 ∧ 15 ∉ [1, 2, 3]) := by decide +kernel

theorem witness_SecurityUnit_hash :
    (let s : State := { put hot F.secStatusIdv 1 with quoteCmd := some (7, 0, []) }
     let q (len : Nat) : SqEntry := entryOf 0x50 0 len [1, 2, 3, 4]
     let h : State := { hot with hashReq := some (0x08000000, 16) }
     [10084, 10085].all (fun n => startsOn 5 0x50 0 true [full64, full64, full64, full64] (q n) hot)
       && hot.quoteCmd.isNone && s.quoteCmd.isSome && rd hot F.secStatusIdv != 1 && rd s F.secStatusIdv == 1
       && decide (idxNext hot < { hot with idxL := 4096 }.idxL) && hot.idxL ≤ idxNext hot && 2 ^ 40 < 2 ^ 40 + 4096 && hot.idxL + 4096 ≤ 2 ^ 40
       && (findCmd (active 5 (q 10085) s) 7).isSome && hot.up 6 && rd (put hot F.secHashctlBusy 1) F.secHashctlBusy == 1
       && rd hot F.secHashctlBusy != 1 && h.hashReq.isSome && (hashInput 0x08000000 16 hot).1.isSome
       && (hashInput 0x082BFFFF 16 hot).1.isNone && hot.hashReq.isNone) = true := by decide +kernel

/-- The bit of the index warning: the last reserved indexes are within the warning, and the warning is not yet given. -/
theorem witness_SecurityUnit_indexes :
    (let s : State := { put hot F.secIdxwarnWarn 1 with idxL := 2 ^ 40 - 2 * 4096 }
     s.idxLow = false ∧ 2 ^ 40 - (s.idxL + 4096) < rd s F.secIdxwarnWarn * 2 ^ 24
       ∧ ¬ (2 ^ 40 - (hot.idxL + 4096) < rd hot F.secIdxwarnWarn * 2 ^ 24)) := by decide +kernel

/-- The commands of the security unit with each offence and none (the signature of an image is not evaluated: log entry 10). -/
theorem witness_SecurityUnit_commands :
    (let e (opc len : Nat) (ps : List Nat) : SqEntry := entryOf opc 0 len ps
     let info (n : Nat) : State := { hot with fwInfo := List.replicate 16 0 ++ leBytes 4 n }
     let set : State := { hot with cfgRec := some { CfgRec.shipped with keySlots := [some [], none, none, none] } }
     [(64, 0), (63, 1), (64, 1), (0, 4097)].all (fun (x : Nat × Nat) => startsOn 5 0x51 0 true [0xFFF, 0x1FFF] (e 0x51 x.1 [0, x.2]) hot)
       && decide (0 < { hot with mlog := [[]] }.mlog.length) && decide (hot.mlog.length ≤ 0)
       && [67, 68].all (fun n => startsOn 5 0x52 0 true [] (e 0x52 n []) hot)
       && [(0, 0), (4, 0), (4, 1), (0x800001, 0)].all (fun (x : Nat × Nat) => startsOn 0 0x53 1 true [1] (e 0x53 x.1 [x.2]) hot)
       && rd hot F.secStatusSlot == 0 && (badImage hot [1, 2, 3, 4] 2048 0).isSome
       && startsOn 0 0x54 1 false [] (e 0x54 0 []) hot && startsOn 0 0x55 1 false [0xFFFFFFFF] (e 0x55 0 [3]) (info 3)
       && fieldLe (info 3).fwInfo 0x10 4 == 3 && hot.svnFloor ≤ 3 && fieldLe (info 2).fwInfo 0x10 4 < 3
       && [31, 32].all (fun n => startsOn 0 0x56 1 true [3] (e 0x56 n [3]) hot) && decide ((cfgOf hot).keySlots.getD 3 none = none)
       && ((cfgOf set).keySlots.getD 0 none).isSome && [0x1000, 0x1001].all (fun n => startsOn 0 0x57 1 false [1, 0x7FFFFF] (e 0x57 0 [1, n]) hot)
       && (checkImage hot 2 (slotImage hot 1 0).1 (slotImage hot 1 0).2 != 0) && [0, 1].all (fun n => startsOn 0 0x58 1 false [1] (e 0x58 0 [n]) { hot with variant := 2 })
       && startsOn 0 0x58 1 false [1] (e 0x58 0 [1]) { hot with variant := 1 }) = true := by decide +kernel

theorem witness_FunctionLevelResets :
    (let s (st : SessState) : State := { hot.setSess 5 { Sess.init with st := st, fn := 3 } with flrFns := [3] }
     hot.up 3 = true ∧ hot.up 4 = true ∧ (put hot (F.pwrDomstatState 23) 0).up 4 = true ∧ State.reset.up 4 = false ∧ 63 < 64 ∧ 3 ∉ hot.flrFns
       ∧ 3 ∈ (s .closing).flrFns ∧ flrSess (s .closing) 3 = [5]
       ∧ sessLive (forAll [5] (fun n v => forAll (sessLive v n) killCtx v) (s .closing)) 5 = []
       ∧ ((s .closing).sess 5).cmds = []
       ∧ (((s .closing).updSess 5 fun x => { x with cmds := [cmdOf 5 (entryOf 0x10 0 0 [])] }).sess 5).cmds ≠ []) := by decide +kernel

theorem witness_LinkAndConfiguration :
    (let up_ : State := { hot with pins := mset 0 hot.pins 2 1 }; let low : State := { hot with pins := mset 0 hot.pins 2 0 }
     let l (n : Nat) : State := { up_ with linkState := n }
     perstHigh up_ = true ∧ perstHigh low = false ∧ up_.up 4 = true ∧ (l 4).linkState = 4 ∧ (l 0).linkState = 0
       ∧ ({ up_ with crsWindow := true } : State).crsWindow = true ∧ rd (put up_ F.hifStatusReady 0) F.hifStatusReady ≠ 1
       ∧ rd (put up_ F.hifStatusReady 1) F.hifStatusReady = 1 ∧ ({ up_ with crsWindow := false } : State).crsWindow = false
       ∧ (active 5 (entryOf 0x1A 0 64 []) hot).up 3 = true
       ∧ (((active 5 (entryOf 0x1A 0 64 []) hot).sess 5).cmds.find? (fun c => c.e.dlen != 0)).isSome = true
       ∧ (∀ c ∈ (hot.sess 5).cmds, c.e.dlen = 0) ∧ (logged 1).ns 7 ≠ none ∧ hot.ns 7 = none ∧ (hot.sess 5).st ≠ .active) := by
  decide +kernel

/-! ### Supervisor cores -/

/-- Thread 0 at 0800_0000H in ring 0, with an entry of its memory attributes that lets it execute, read and write there. -/
def core0 : State := hot.updThr 0 fun th => { th with pc := 0x08000000 }

def sup0 : Sup := (su 0)

/-- The thread's register `r` holds `v`. -/
def withG (r v : Nat) (s : State) : State := s.updThr 0 fun th => gWrite th r (BitVec.ofNat 64 v)

/-- SRAM of the core island holds these doublewords from `a` on. -/
def withMem (a : Nat) (ws : List Nat) (s : State) : State := { s with mem := memWrite s.mem a (ws.flatMap (leBytes 8)) }

theorem witness_SupIntegerInstructions :
    (let s := withG 3 (2 ^ 63) core0
     supReady s sup0 false false = true ∧ (gRead (s.thr 0) 3).toInt = -2 ^ 63 ∧ (gRead (withG 4 (2 ^ 64 - 1) s |>.thr 0) 4).toInt = -1) := by
  decide +kernel

/-- Addresses of every place, aligned and not; places that the thread may read and write in ring 0, and not; each port's station. -/
theorem witness_SupMemoryInstructions :
    (let s := core0; let ok (a : Nat) : Bool := allowed s 0 .read a && allowed s 0 .write a
     let user : State := s.updThr 0 fun th => { th with ring := 3 }
     let mat (attr : Nat) (s : State) : State := { s with mats := [(0, ⟨0x08000000, 0x080FF000, attr⟩)] }
     supReady s sup0 false false && ok 0x08000100 && 0x08000101 % 8 != 0 && decide (placeOf 0 0x08000100 = .mem 0x08000100)
       && decide (placeOf 0 0x0E000000 = .rom 0) && decide (placeOf 0 (2 ^ 63 + 8) = .host 8) && decide (placeOf 0 0x03000000 = .none)
       && decide (placeOf 0 0x100000008 = .scratch 0x100000008) && decide (placeOf 0 0x08 = .reg 8) && decide (placeOf 0 0x200000000 = .store 0x200000000)
       && ok 0x100000008 && ok 8 && ok 0x200000000 && ok 0x03000000 && ok (2 ^ 63 + 8)
       && (addrStation 0x100000008).isSome && (addrStation 8).isSome && (addrStation 0x200000000).isSome && decide ((s.thr 0).stores < 8)
       && decide (8 ≤ ((s.updThr 0 fun th => { th with stores := 8 }).thr 0).stores)
       && !allowed user 0 .read 0x08000100 && !allowed user 0 .write 0x08000100
       && allowed (mat 0x7731 (core0.updThr 0 fun th => { th with ring := 0 })) 0 .read 0x08000100
       && !allowed (s.updThr 0 fun th => { th with ring := 3 }) 0 .write 0x0E000008 && 0x0E000008 % 8 == 0
       && decide (((s.stn 24).pend.find? (·.asker == .coreStore 0 8)) = none)
       && (let q : Pending := ⟨0x50, 2, .coreStore 0 8, 6, false, 0, []⟩
           decide (((s.updStn 24 fun y => { y with pend := [q] }).stn 24).pend.find? (·.asker == .coreStore 0 8) = some q))
       && [Ecc.ok, .corrected, .uncorrectable].all (fun e => ({ sup0 with data := e } : Sup).data == e)
       && coreState s (0 / 2) != 0 && coreState s (0 / 2) != 3 && 0x100000000 ≤ 0x100000008) = true := by decide +kernel

theorem witness_SupControlInstructions :
    (let s := core0; let loop (n : Nat) : State := s.updThr 0 fun th => { th with lcount := n }
     let gates := withMem 0x08010000 [0x08000100, 16] (s.updThr 0 fun th =>
       { th with gtbase := 0x08010000, gtcount := 1, sp := [0x08020000, 0, 0, 0] })
     let frame (ws : List Nat) (s : State) : State := withMem 0x08020000 ws (s.updThr 0 fun th => { th with sp := [0x08020000, 0, 0, 0] })
     let ring (r : Nat) (s : State) : State := s.updThr 0 fun th => { th with ring := r }
     [(false, false), (true, false), (false, true)].all (fun (x : Bool × Bool) => supReady s sup0 x.1 x.2)
       && (s.thr 0).lcount == 0 && decide (¬ (0x08000100 < (s.thr 0).pc + 4)) && decide ((gRead (withG 3 5 s |>.thr 0) 3).toNat ≠ 0)
       && (loop 1 |>.thr 0).lcount != 0 && supReady (loop 1) sup0 false true && (ctlRead s 0 0x02).isNone && (ctlRead s 0 0x08).isSome
       && decide (ctlWriteRing 0x19 = none) && (ctlRead s 0 0x19).isSome && decide (ctlWriteRing 0x08 = some 0)
       && (ctlWrite 0 0x08 1 s).isNone && (ctlWrite 0 0x08 2048 s).isSome && (s.thr 0).stores == 0
       && rd s F.dbgCtlAttach != 1 && rd (put s F.dbgCtlAttach 1) F.dbgCtlAttach == 1 && gateReason s 0 0 != 0
       && gateReason gates 0 0 == 0 && supReady gates sup0 false true
       && (let m := s.updThr 0 fun th => { th with sp := [0x08020004, 0, 0, 0] }
           decide (readFrame m 0 6 = .exc 0x06 0x08020004) && decide (readFrame m 0 10 = .exc 0x06 0x08020004) && supReady m sup0 false true)
       && (let b := s.updThr 0 fun th => { th with sp := [0x100000040, 0, 0, 0] }
           decide (readFrame b 0 6 = .bus) && decide (readFrame b 0 10 = .bus) && decide (placeOf 0 0x100000040 = .scratch 0x100000040)
             && supReady b sup0 false true && decide ((b.thr 0).sp.getD (b.thr 0).ring 0 = 0x100000040))
       && ({ sup0 with reserved := true } : Sup).reserved && ({ sup0 with data := .uncorrectable } : Sup).data == .uncorrectable
       && ({ sup0 with frameBad := true } : Sup).frameBad && decide (placeOf 0 0x08010000 = .mem 0x08010000)
       && decide (placeOf 0 0x08020000 = .mem 0x08020000)
       && (match readFrame (frame [0x08000040, 3, 0, 0, 0, 0] s) 0 6 with | .words ws => ws.getD 1 0 % 4 == 3 && supReady (frame ws s) sup0 false true | .exc _ _ => false | .bus => false)
       && (match readFrame (frame [0x08000040, 3, 0, 0, 0, 0, 0, 0, 0, 0] s) 0 10 with
           | .words ws => ws.getD 1 0 % 4 == 3 && ws.getD 1 0 / 16 % 16 != 15 | .exc _ _ => false | .bus => false)
       && (match readFrame (frame [0x08000040, 0xF0, 0, 0, 0, 0, 0, 0, 0, 0] s) 0 10 with | .words ws => ws.getD 1 0 / 16 % 16 == 15 | .exc _ _ => false | .bus => false)
       && ((ring 2 s).thr 0).ring == 2) = true := by decide +kernel

/-- The same in ring 2 and ring 3: fetches allowed by an attribute entry, a frame of an inner ring, RETE refused (R290). -/
theorem witness_SupControlInstructions_rings :
    (let s := withMem 0x08020000 [0x08000040, 0, 0, 0, 0, 0] (core0.updThr 0 fun th => { th with ring := 2, sp := [0, 0, 0x08020000, 0] })
     let s := { s with mats := [(0, ⟨0x08000000, 0x080FF000, 0x3331⟩)] }
     supReady s sup0 false true && (match readFrame s 0 6 with | .words ws => ws.getD 1 0 % 4 < (s.thr 0).ring | .exc _ _ => false | .bus => false)
       && (match ctlRead s 0 0x08 with | some (_, r) => r < (s.thr 0).ring | none => false)
       && (match ctlWriteRing 0x08 with | some r => r < (s.thr 0).ring | none => false) && 2 ≤ (s.thr 0).ring) = true := by decide +kernel

theorem witness_SupExceptionsAndControl :
    (let s := withMem (0x08010000 + 16 * 0x04) [0x08000100, 2 + 2 ^ 8] (core0.updThr 0 fun th =>
       { th with vbase := 0x08010000, sp := [0x08020000, 0, 0, 0], mask := 0 })
     let v := vectorOf s 0 0x04; let w : State := { s.updThr 0 (fun th => { th with wdog := 1 }) with now := 4096 }
     (s.thr 0).mask < 15 ∧ v.valid = true ∧ stackOk s 0 (min v.ring 0) ((s.thr 0).sp.getD 0 0) 80 = true
       ∧ ((s.updThr 0 fun th => { th with mask := 15 }).thr 0).mask = 15 ∧ v.level = 2
       ∧ (let p := s.updThr 0 fun th => { th with wdogPend := true }; threadRuns p 0 = true ∧ (p.thr 0).slot = none ∧ (p.thr 0).loading = false
           ∧ nextEvent p 0 = some (0x0F, 15))
       ∧ nextEvent s 0 = none ∧ threadRuns s 1 = false ∧ irqLine s 38 = true ∧ irqLine s 42 = false ∧ rd (put s (F.fltpendPend 33) 1) (F.fltpendPend 33) ≠ 0
       ∧ rd s (F.fltpendPend 33) = 0
       ∧ (0 < 8 ∧ w.deviceHalted = false ∧ coreState w (0 / 2) = 2 ∧ (w.thr 0).wdog ≠ 0
           ∧ 4096 * (w.thr 0).wdog ≤ 3 * (w.now - (w.thr 0).wdogSince))
       ∧ s.up 6 = true ∧ coreState s 3 = 2 ∧ coreState (put s (F.supCorestatState 3) 4) 3 = 4) := by decide +kernel

/-! ### Power, reset, repair -/

/-- Domain `d` is in a state, and in a phase of its transition. -/
def dom (d st : Nat) (ph : DomPhase) : State := setDomPhase d ph (put hot (F.pwrDomstatState d) st)

theorem witness_DomainPower :
    (let idle (d : Nat) : State := put hot (F.pwrDepthDepth d) 4
     let doze : State := dom 3 0 .steady
     let off20 : State := put hot F.pwrAuxcfgOffen 7
     hot.up 5 && rd hot (F.pwrDomstatState 3) == 0 && decide (domPhase hot 3 = .steady) && rd (dom 3 2 .steady) (F.pwrDomstatState 3) != 0
       && (auxOff off20 22 || auxOff off20 21) && !auxOff hot 22 && auxOff { hot with pins := mset 0 hot.pins 2 0 } 23
       && !auxOff { hot with pins := mset 0 hot.pins 2 1, linkState := 1 } 23
       && ([0, 1, 2, 3, 4].all fun c => (List.range 16).any fun _ => rd (put hot (F.pwrDepthDepth 3) c) (F.pwrDepthDepth 3) == c)
       && decide (selectState (noteEvent 3 (put hot (F.pwrDepthDepth 3) 0)) 3 = 0) && decide (selectState (noteEvent 3 (idle 3)) 3 = 4)
       && decide (selectState (noteEvent 3 (put hot (F.pwrDepthDepth 3) 3)) 3 = 3) && decide (selectState (noteEvent 3 (put hot (F.pwrDepthDepth 3) 1)) 3 = 1)
       && decide (selectState (noteEvent 16 (put hot (F.pwrBgdepthDepth 0) 4)) 16 = 4)
       && decide (domPhase (dom 3 0 (.fenced 3)) 3 = .fenced 3) && openReqs (dom 3 0 (.fenced 3)) 3 == 0 && stillIdle (dom 3 0 (.fenced 3)) 3 3
       && openReqs ((dom 3 0 (.fenced 3)).updStn (stationOfDom 3) fun x => { x with pend := [⟨0, 0, .nobody, 0, false, 0, []⟩] }) 3 != 0
       && !stillIdle (queued (3 * 17) tok0 (dom 3 0 (.fenced 3))) 3 3
       && [1, 2, 3, 4].all (fun t => decide (domPhase (dom 3 0 (.closing t)) 3 = .closing t))
       && parkedAt ((dom 3 0 (.closing 3)).updStn (stationOfDom 3) fun x => { x with parkMgt := [pkt 5 0x40 vnMgt 0x10 0 (.units [8]) .bar] }) (stationOfDom 3)
       && !parkedAt (dom 3 0 (.closing 3)) (stationOfDom 3) && decide (domPhase (dom 17 0 (.closing 4)) 17 = .closing 4)
       && decide (domPhase (dom 22 0 (.closing 4)) 22 = .closing 4) && decide (domPhase (dom 3 4 .waking) 3 = .waking)
       && rd (dom 3 4 .waking) (F.pwrDomstatState 3) == 4 && rd (dom 3 3 .waking) (F.pwrDomstatState 3) == 3 && rd (dom 17 4 .waking) (F.pwrDomstatState 17) == 4
       && decide (domPhase (dom 3 0 .refilling) 3 = .refilling) && rd (put doze (F.rngParkClosed (stationOfDom 3)) 1) (F.rngParkClosed (stationOfDom 3)) == 1
       && sleepState (idle 3) 3 == 0 && sleepState (dom 3 3 .steady) 3 == 3 && depthOf (dom 3 4 .steady) 3 < sleepState (dom 3 4 .steady) 3
       && decide (wakeDue (dom 3 3 .steady) 3 = none) && decide (wakeDue { dom 3 3 .steady with pwrE := [(3, some 0)] } 3 = some 0)) = true := by
  decide +kernel

theorem witness_LedgerAndCounters :
    (let r : WakeReq := ⟨3, 0, 0, 8, 100, 1, false, false⟩; let s : State := { hot with ledger := [r] }
     let tight : State := { put (put s F.pwrQbudgetQ 0) F.pwrSlewbudgetApus 0 with admitted := [⟨4, 0, 8, 100, 1, false⟩] }
     let op (ph : OpPhase) : State := setOpPhase 3 ph hot
     let dif (f : Fld) (s : State) : State := put s f (rd s f + 1)
     hot.up 5 && !hot.deviceHalted && !hot.activeCauses.contains 4 && ({ hot with deviceHalted := true } : State).deviceHalted && decide (s.ledger = [r])
       && !closing s 3 && closing { dom 3 0 (.closing 4) with ledger := [r] } 3 && !r.dvfs && ({ r with dvfs := true } : WakeReq).dvfs
       && fitsBudget s r && !fitsBudget tight r && decide (slewOf hot = (0, 1)) && qwin hot == 0
       && [OpPhase.volt, .relock, .lower, .lowerVolt].all (fun ph => decide (mget OpPhase.none (op ph).opPhase 3 = ph))
       && rd (op .volt) (F.clClkstatFreq 3) == rd (op .volt) (F.clClkcfgFreq 3) && rd (op .lower) (F.clClkstatVolt 3) == rd (op .lower) (F.clClkcfgVolt 3)
       && rd (dif (F.clClkstatFreq 3) (op .volt)) (F.clClkstatFreq 3) != rd (dif (F.clClkstatFreq 3) (op .volt)) (F.clClkcfgFreq 3)
       && rd (dif (F.clClkstatVolt 3) (op .lower)) (F.clClkstatVolt 3) != rd (dif (F.clClkstatVolt 3) (op .lower)) (F.clClkcfgVolt 3)
       && rd (put hot F.statStatusBusy 1) F.statStatusBusy == 1 && rd hot F.statStatusBusy != 1 && hot.snapStep == 0 && hot.up 3
       && ({ hot with snapStep := 1 } : State).snapStep != 0 && !State.reset.up 3 && decide (State.reset.dawn = .unpowered)
       && (let h : State := { hot with dawn := .held }; !h.up 3 && decide (h.dawn ≠ .unpowered))) = true := by decide +kernel

theorem witness_ResetsAndDawn :
    ((fun (d : Dawn) => ({ hot with dawn := d } : State).dawn) <$> [.unpowered, .held, .step 1, .step 2, .step 3, .step 4]
        = [.unpowered, .held, .step 1, .step 2, .step 3, .step 4])
      ∧ (match exec .dawnMramReady { hot with dawn := .step 2 } with | .next t => tripletTerm t && !tripletTerm { hot with dawn := .step 2 } | _ => false) = true
      ∧ tripletTerm (powerReset hot) = false ∧ tripletTerm hot = true
      ∧ hot.up 3 = true ∧ hot.deviceHalted = false ∧ 0x19400 % 65536 = 0x9400 ∧ fieldLe (List.replicate 16 1) 12 4 ≠ crc32c ((List.replicate 16 1).take 12)
      ∧ (0x200000000 ≤ 0x203FFFFFF ∧ 0x203FFFFFF < 0x204000000) ∧ (0x1FFFFFFFF < 0x200000000 ∨ 0x204000000 ≤ 0x1FFFFFFFF) := by
  decide +kernel

theorem witness_BootAndRecovery :
    (let s : State := { hot with dawn := .step 6 }
     s.dawn = .step 6 ∧ s.recovery = false ∧ coreState s 0 = 2 ∧ (cfgOf s).trial = false
       ∧ ({ s with cfgRec := some { CfgRec.shipped with trial := true } } : State).cfgRec.isSome = true ∧ slotCheck s (cfgOf s).prefer ≠ 0
       ∧ slotCheck (event 14 0 0 s) (1 - (cfgOf s).prefer) ≠ 0 ∧ hot.up 6 = true ∧ ({ hot with recovery := true } : State).recovery = true
       ∧ checkImage hot 1 (memRead hot.mem (scrPhys hot 0) 16) [] ≠ 0) := by decide +kernel

theorem witness_FullQuiesce :
    (let q : State := { put hot F.genQuiesceBusy 1 with quiesceStep := 1 }; let d := put hot F.genQuiesceDone 1
     let r : State := { q with quiesceStep := 2 }
     let waitPkt : Packet := { pkt 6 0x10 vnReq 0 0 (.units []) .nobody with epoch := waiting }
     let prof (s : State) : Bool := profA (sampleProfile s) == profA s
     let other := put q F.genProfileSel (1 - rd q F.genProfstatActive)
     hot.up 3 && rd q F.genQuiesceBusy == 1 && rd d F.genQuiesceDone == 1 && !d.deviceHalted && ({ d with deviceHalted := true } : State).deviceHalted && rd hot F.genQuiesceBusy != 1 && rd hot F.genQuiesceDone != 1
       && (busyCtxs hot).isEmpty && !(busyCtxs work).isEmpty && rd hot F.drvEnableAsserted == 0 && rd (put hot F.drvEnableAsserted 1) F.drvEnableAsserted != 0
       && logState hot == 0 && ((List.range 16).any fun c => rd hot (F.clFsstatUsed c) != 0) == false && q.net.isEmpty
       && waitPkt.epoch == waiting && (flying (pkt 6 0x10 vnReq 0 0 (.units []) .nobody) q).net.any (fun p => p.epoch != waiting)
       && (prof q || prof other) && (!prof q || !prof other) && r.quiesceStep == 2 && (List.range 16).all (fun c => decide (mget OpPhase.none r.opPhase c = .none))
       && (rd (put hot F.clkLockLock (2 ^ 25 - 1)) F.clkLockLock).testBit 24 && !(rd (put hot F.clkLockLock 0) F.clkLockLock).testBit 24
       && lockLost (put hot F.clkLockLock 0) 24 && !lockLost (put hot F.clkLockLock (2 ^ 25 - 1)) 24
       && (rd (put hot F.clkRefstatPresent 1) F.clkRefstatPresent).testBit 0 && !(rd (put hot F.clkRefstatPresent 0) F.clkRefstatPresent).testBit 0)
      = true := by decide +kernel

/-- The retirement of PE 5 of cluster 2 runs since etu 0, and waits for firmware. -/
def retiring : State := put { hot with running := some (⟨3, 0, 2 * 32 + 5, 0⟩, 0) } F.repStateWaitfw 1

theorem witness_RepairAndCensus :
    (let q (r : Retire) : State := { hot with retQueue := [r] }; let run (r : Retire) : State := { hot with running := some (r, 0) }
     let bank : Retire := ⟨4, 0, 31, 0⟩
     let p : Patrol := ⟨2, 5, 9, .ok, 0, .ok, .ok⟩; let late : State := { retiring with now := 1600000 * rd retiring F.repRettoMs }
     hot.up 3 && hot.running.isNone && hot.retQueue.isEmpty && !(q bank).retQueue.isEmpty && !hot.deviceHalted
       && rd retiring F.repStateWaitfw == 1 && rd (run bank) F.repStateWaitfw != 1 && decide ((retiring.pe (2 * 17 + 5)).pipe = none)
       && !retiring.copied && ({ retiring with copied := true } : State).copied && ({ retiring with committed := true } : State).committed
       && 1600000 * rd late F.repRettoMs ≤ late.now - 0 && retiring.now - 0 < 1600000 * rd retiring F.repRettoMs
       && decide ((run bank).running = some (bank, 0)) && rd (put (run bank) F.sbSpareState 1) F.sbSpareState == 1
       && rd (put (run bank) F.sbSpareCopied 2048) F.sbSpareCopied == 2048 && rd (run bank) F.sbSpareCopied != 2048
       && hot.up 5 && clRuns hot 2 && !(hot.pe (2 * 17 + 5)).stopped && (hot.pe (2 * 17 + 5)).inq.isEmpty
       && decide ((hot.pe (2 * 17 + 5)).store[p.entry]? = none)
       && decide (((hot.updPe (2 * 17 + 5) fun x => { x with store := [rec0] }).pe (2 * 17 + 5)).store[p.entry]? = some rec0)) = true := by
  decide +kernel

/-- A PE retires onto its cluster's spare, and finds it taken; a second bank finds the spare bank taken. -/
theorem witness_RepairAndCensus_spares :
    (let r : Retire := ⟨3, 0, 2 * 32 + 5, 0⟩; let used := put hot (F.clRemapFailed 2) (2 ^ 16)
     widen hot r = some r ∧ spareLeft hot r = true ∧ spareLeft used r = false) := by decide +kernel

/-! ### Deferred lists, commits, forced faults, store windows -/

/-- A word with an IREAD, an MTAKE and an IREAD deferred. -/
theorem witness_DeferredListServed :
    (let e (take : Bool) : DefE := ⟨8, take, 0, 0, 0, 1, none, [], .nobody⟩
     let s := setDefers 0 [e false, e true, e false] hot
     8 < 2 ^ 25 ∧ (entriesAt s 8).length = 3 ∧ (entriesAt s 8).any (·.take) = true) := by decide +kernel

/-- A shadow register holds `v`. -/
def sh (f : Fld) (v : Nat) (s : State) : State := { s with shadow := mset (rd s f) s.shadow f.key v }

/-- The shadows of reset are in order. -/
theorem witness_CommitsAreWhole :
    (keysRise hot.regs && keysRise hot.shadow && hot.up 3 && hot.up 5 && (findReg 3 0x100).isSome
      && (List.range 16).all (phAgrees hot) && cnvAgrees hot && drvAgrees hot && !hifRefused hot && !clRefused hot 15
      && (List.range 4096).all (routeAgrees hot) && !eventRingTwice hot && !eventDecimates hot && rd hot F.logStateState != 2) = true := by
  decide +kernel

/-- A shadow that each commit refuses; the administrative queue in use, and taken into use. -/
theorem witness_CommitsAreWhole_refused :
    (let adm := sh F.hifAdmcfgSqlog 4 (sh F.hifAdmcfgCqlog 4 (sh F.hifAdmcfgEn 1 (put hot F.hifStatusReady 1))); let on := put adm F.hifAdmcfgEn 1
     !(List.range 16).all (phAgrees (sh (F.phSrccptCptm1 3) 1 (sh (F.phSrccfgType 3) 5 hot)))
       && !cnvAgrees (sh (F.cnvCapcfgEn 63) 1 hot) && !drvAgrees (sh (F.drvChcfgQunits 0) 128 (sh (F.drvChcfgQunits 1) 129 hot))
       && hifRefused (sh F.hifAdmcfgEn 1 hot) && clRefused (sh (F.clFssizeSize 15) 0x100001 hot) 15
       && !(List.range 4096).all (routeAgrees (sh (F.spnRouteValid 7) 1 hot)) && rd (put hot F.logStateState 3) F.logStateState == 3
       && !hifRefused adm && rd (commitOk adm 10) F.hifAdmcfgEn == 1 && rd adm F.hifAdmcfgEn != 1 && rd on F.hifAdmcfgEn == 1
       && rd (commitOk (sh F.hifAdmcfgEn 0 on) 10) F.hifAdmcfgEn != 1) = true := by decide +kernel

theorem witness_ForcedFaults :
    (hot.up 3 && hasSrc 4 5 && !hasSrc 4 29 && decide (mget [] hot.flt 4 = [])
      && decide ((mget [] (fault (FEv.plain 4 0 9) hot).flt 4).length = 1)) = true := by decide +kernel

theorem witness_StoreWindow :
    (let a := 0x200904 + 0x10000 * 15; let at_ (sp : Nat) : State := put hot (F.clSwaddrSpace 15) sp
     let failed (sp : Nat) : State := put (at_ sp) (F.clRemapFailed 15) 1
     hot.up 5 && writeAccepted hot 0x10 a && !writeAccepted hot 0x11 a && rd (put hot (F.clSwctlBusy 15) 1) (F.clSwctlBusy 15) == 1
       && rd hot (F.clSwctlBusy 15) != 1 && [0, 1, 2, 3].all (fun sp => rd (at_ sp) (F.clSwaddrSpace 15) == sp && !swBarred (at_ sp) 15)
       && [0, 1].all (fun sp => swBarred (failed sp) 15) && !gateReserved (swData (at_ 3) 15 % 2 ^ 64)
       && gateReserved (swData (put (at_ 3) (F.clSwdataData 15 0) (2 ^ 22)) 15 % 2 ^ 64)) = true := by decide +kernel

/-- A FORK one of whose extension words has a reserved tag operation. -/
theorem witness_FiringFaults_extension :
    (let w : Insn := { goodWord 0x111 with w3 := 1 }; let g := goodSet 0x111
     let s := (peState w.encode g hot).updPe 0 fun p => { p with imem := mset 0 p.imem (g.ia + 1) (2 ^ 128 - 1) }
     atIssue s fire0 0x111 g none && w.ok && (badExt (afterIssue s fire0 g none) 0 g w fire0.ext).isSome) = true := by decide +kernel

/-! ### The debug port -/

theorem witness_DebugFrames :
    (let life (n : Nat) : State := { hot with lifecycle := n }; let s := put (life 0) F.dbgPortstatErr 1; let b : State := { put (life 0) F.dbgPortstatBusy 1 with dbgBusy := 1 }
     [1, 3].all hot.up && rd s F.dbgPortstatErr != 0 && rd (life 0) F.dbgPortstatErr == 0 && (life 3).lifecycle == 3 && (life 0).lifecycle != 3
       && rd b F.dbgPortstatBusy == 1 && b.dbgBusy == 1 && (life 0).dbgBusy != 1 && rd (life 0) F.dbgPortstatBusy != 1 && mayAccess (life 0) none 0x08000000 && !mayAccess (life 3) none 0x08000000
       && mayAccess (life 0) (some 5) 0x08000000 && !mayAccess (life 3) (some 5) 0x08000000 && mayAccess (life 0) none 0x08000001
       && 0x08000001 % 8 != 0 && mayAccess (life 0) (some 5) 0x08000001 && (addrStation 0x08000000).isSome) = true := by decide +kernel

theorem witness_DebugControl :
    (let life (n : Nat) : State := { hot with lifecycle := n }; let s : State := { life 0 with authBusy := true }
     let lock := put (life 0) F.dbgPortstatLocked 1; let fails (n : Nat) : State := put s F.dbgPortstatAuthfails n
     let halted : State := (peState (goodWord 0).encode (goodSet 0) hot).updCl 0 fun c => { c with halted := true }
     let g := goodSet 0
     let ready : State := (halted.setCtx 0 live0).updPe 0 fun p =>
       { p with pipe := none, stamp := 1, store := [⟨.ready, g.pri, g.ctx, g.iter, g.ia, g.l, g.r, g.t, 0, 0⟩] }
     [1, 5].all hot.up && decide ((life 0).lifecycle = 0) && decide ((life 3).lifecycle = 3) && (List.range 6).all (fun k => (dbgRights (life 0)).testBit k)
       && (List.range 6).all (fun k => !(dbgRights (life 3)).testBit k) && s.authBusy && !(life 0).authBusy && rd lock F.dbgPortstatLocked == 1
       && rd (life 0) F.dbgPortstatLocked != 1 && min (rd (fails 6) F.dbgPortstatAuthfails + 1) 255 < 8 && 8 ≤ min (rd (fails 7) F.dbgPortstatAuthfails + 1) 255
       && rd (put hot (F.supCorestatState 3) 1) (F.supCorestatState 3) == 1 && rd (put hot (F.supCorestatState 3) 4) (F.supCorestatState 3) == 4
       && rd (put hot (F.supCorestatState 3) 0) (F.supCorestatState 3) == 0
       && (drv.ctx 0).d.drvcount != 0 && (busyCtxs drv).contains 0 && rd drv F.dbgCtlForce != 1 && rd (put drv F.dbgCtlForce 1) F.dbgCtlForce == 1
       && templateOn { work with images := [⟨0, 0, [⟨15 * 16 + 3, 0, [0], [false]⟩], []⟩] } 1 (15 * 16 + 3)
       && clRuns halted 0 && (halted.cl 0).halted && decide (nextSet halted 0 = some (g, none)) && canIssue (halted.pe 0) (Insn.decode (word halted 0 g.ia))
       && !(halted.pe 0).stopped && (readSet 0 g none .ok .ok halted).1.isSome && decide (nextSet ready 0 = some (g, some 0)) && (readSet 0 g (some 0) .uncorrectable .ok ready).1.isNone
       && !(ready.pe 0).stopped && canIssue (ready.pe 0) (Insn.decode (word ready 0 g.ia)) && !(hot.cl 0).halted
       && decide (nextSet hot 0 = none)) = true := by decide +kernel

/-- A request that no key of the device made is granted nothing (whether a signature verifies is not evaluated: log entry 10). -/
theorem witness_DebugControl_authentication :
    { hot with authBusy := true }.authBusy = true ∧ granted { hot with authBusy := true } = none := by decide +kernel

/-! ### Registers, and the machine as a whole -/

/-- An undefined offset of every block (its last word), while the block's station runs and while it sleeps. -/
theorem witness_UndefinedOffsets :
    (List.range 34).all (fun b => (findReg b 0xFFFC).isNone) = true ∧ 0xFFFC < 0x10000 ∧ regInit 0x10 = true ∧ hot.up 3 = true
      ∧ blkUp hot 0 = true ∧ stationRuns hot (regStation (blkBase 0 + 0xFFFC)) = true ∧ blkUp hot 4 = true ∧ (0x10 ≠ 0x5B ∨ (0 ≠ 14 ∧ 0 ≠ 16))
      ∧ stationRuns (put hot (F.pwrDomstatState 3) 4) (regStation (blkBase 20 + 0xFFFC)) = false ∧ blkUp (put hot (F.pwrDomstatState 3) 4) 20 = true := by
  decide +kernel

/-- Every register of the table at the least values of its indexes. -/
theorem witness_RegisterFields :
    (List.range 34).all (fun b => (regsOf b).all fun r => (findReg b r.off).isSome) = true := by decide +kernel

theorem witness_RegisterAccesses :
    (let at_ (cmd a : Nat) (init : Nat) : Packet := pkt 0 cmd vnMgt init a (.units [8]) .bar
     let mem (cmd a : Nat) : Packet := { pkt 24 cmd vnMgt 0x10 a (.units [8]) .bar with src := 0 }
     hot.up 3 && !regInit 0x11 && regInit 0x5B && (findReg 2 0).isSome && [2, 3, 10, 11, 12].all (fun b => blkUp hot b && stationRuns hot (regStation (blkBase b)))
       && [2, 3, 10, 11, 12].all (fun b => writeAccepted hot 0x10 (blkBase b))
       && !writeAccepted hot 0x10 (blkBase 16) && [14, 16].all (fun b => blkUp hot b && stationRuns hot (regStation (blkBase b)))
       && [0x40, 0x41].all (fun cmd => [0x10, 0x5B].all fun i => let p := at_ cmd 0 i; arrives (flying p hot) good0 p cmd && p.mgtAddr == 0)
       && [0x40, 0x41].all (fun cmd => [0x08000000, 0x0D000000, 0x0E000000, 0x204000000].all fun a => let p := mem cmd a
            arrives (flying p hot) good0 p cmd && p.mgtAddr == a)
       && decide (blkOf 0 = some 0) && (blkOf (blkBase 14) == some 14) && regsAccepted hot 0x10 0 0 && !regsAccepted hot 0x10 0 (blkBase 16))
      = true := by decide +kernel

theorem witness_StepAndCompletion :
    ({ hot with pending := [.tapBypass] } : State).pending = [.tapBypass] ∧ hot.pending = [] := by decide +kernel

theorem witness_WordsRoundTrip :
    (goodWord 0x181).wf = true ∧ tok0.tag.dev < 2 ^ 12 ∧ tok0.tag.ctx < 2 ^ 14 ∧ tok0.tag.iter < 2 ^ 12 ∧ tok0.tag.ia < 2 ^ 12 ∧ tok0.tag.pe < 2 ^ 8
      ∧ tok0.tag.port < 4 ∧ tok0.tag.pri < 8 ∧ tok0.val.ty < 16
      ∧ (let p := pkt 25 0x01 vnTok 0xFF (2 ^ 88 - 1) (.units [1, 2, 3, 4, 5, 6, 7, 8]) .nobody
         p.dstn < 32 ∧ p.dstp < 32 ∧ p.ring < 4 ∧ p.cmd < 256 ∧ p.vn < 8 ∧ p.epoch < 2 ∧ p.init < 256 ∧ p.len < 16 ∧ p.f < 2 ^ 88
           ∧ headerOk p.header = true ∧ headerOk { p with dstn := 26 }.header = false)
      ∧ (List.replicate 40 (2 ^ 128 - 1)).length = 40 ∧ (∀ u ∈ List.replicate 40 (2 ^ 128 - 1), u < 2 ^ 128) := by decide +kernel

/-- A step that answers a next state, from a state whose memory lists a byte. -/
theorem witness_QueueAndFuses :
    (let s : State := { withMem 0x08000000 [1] hot with pending := [.dbgProvision] }
     (match step s with | .next t => t.pending == [] && t.lifecycle == 1 && Memory.wf t.mem | _ => false)
       && s.lifecycle == 0 && Memory.wf s.mem) = true := by decide +kernel

theorem witness_OtherCommandsKeep :
    (stores .statSnap || unquiet .statSnap || threading .statSnap || sessional .statSnap) = false
      ∧ (match exec .statSnap hot with | .next t => rd t F.statStatusBusy == 1 | _ => false) = true := by decide +kernel

/-! ### The manual's examples -/

/-- The three words of the traced loop in full (03, "Encodings from the traced loop"), decoded and encoded. -/
theorem test_words_of_traced_loop :
    (let d := Insn.decode 0x00000001010009894040024250001400
     let e := Insn.decode 0x04002825010409894041025250002903
     let f := Insn.decode 0x00000000011009C94060022250000112
     [[d.opcode, d.src, d.w3m, d.w3], [e.opcode, e.src, e.w3m], [f.opcode, f.src, f.w3m]] = [[0x000, 1, 1, 1], [0x103, 2, 2], [0x112, 0, 0]]
       ∧ [d.d1, d.d2, e.d1, e.d2, f.d1, f.d2] = [0x04002425, 0x04002625, 0x04102525, 0x04102625, 0x06002225, 0x04402725].map Dst.decode
       ∧ e.d3 = some (Dst.decode3 0x04002825) ∧ [f.d1.pe, f.d1.ia, f.d1.port, f.d1.top, bit f.d1.en] = [0x25, 0x022, 0, 8, 1]
       ∧ [d, e, f].all Insn.ok = true
       ∧ d.encode = 0x00000001010009894040024250001400 ∧ e.encode = 0x04002825010409894041025250002903
       ∧ f.encode = 0x00000000011009C94060022250000112) := by decide +kernel

/-- Instruction D written through the store window of cluster 2 by the last of the six writes of R459's example: SWADDR and SWDATA
stand at the values of the first five. -/
theorem test_store_window_example :
    (let s := writePlain hot 19 0x900 0x05000023
     let s := forAll [(0x940, 0x50001400), (0x944, 0x40400242), (0x948, 0x01000989), (0x94C, 1)] (fun (x : Nat × Nat) u => (writePlain u 19 x.1 x.2).1) s.1
     match exec (.swWrite 0x10 2) s with
     | .next t => mget 0 (t.pe (2 * 17 + 5)).imem 0x23 == 0x00000001010009894040024250001400 && rd t (F.clSwctlErr 2) == 0
     | _ => false) = true := by decide +kernel

/-- A WRITE of 20H to 1_0550_0040H clears bit 5 of the word at scratch address 150_0040H, in bank 21 (09). -/
theorem test_clear_view_example :
    (let p := pkt 8 0x1A vnReq 0 (reqF 0x105500040 1 0) (.units [0x20]) (.pe 0)
     let q := { p with dstn := bgStation 21, dstp := 21 % 8 }
     let s := flying q { put hot (F.sbOwnerOwner 21) 0 with mem := memWrite hot.mem (scrPhys hot 0x1500040) [0xFF, 0xFF] }
     viewOf 0x105500040 = some (2, 0x1500040) ∧ viewOf 0x1060A8000 = some (3, 0x1500000) ∧ 0x1500040 / 2 ^ 20 = 21
       ∧ (match exec (.reqWrite good0) s with
          | .next t => memNat t.mem (scrPhys t 0x1500040) 8 == 0xFFDF
          | _ => false) = true) := by decide +kernel

/-- The rescue entry of core 1, thread 0 (10, "a fault in a delay slot on a bad stack"): the frame of RDPROT in a delay slot on a bad
stack at 0C00_FDB0H. -/
theorem test_rescue_entry_example :
    (let s := withMem (0x08010000 + 16 * 4) [0x08000100, 4 + 2 ^ 8] (withMem (0x08010000 + 16 * 10) [0x08000200, 14 + 2 ^ 8]
       (hot.updThr 2 fun th =>
       { th with pc := 0x08102044, slot := some (0x08102040, 0x08102000, true), ring := 3, mask := 6, vbase := 0x08010000,
                 sp := [0x08280008, 0, 0, 0x08128000] }))
     let t := raiseSync 2 4 0x08200000 true false s
     let w (i : Nat) : Nat := memNat t.mem (0x0D010000 + 0xFDB0 + 8 * i) 8
     [0, 1, 2, 3, 4, 8].map w = [0x08102040, 0x63, 0x07047E0A, 0x08200000, 0x08128000, 0x08280008]
       ∧ (let th := t.thr 2; (th.ring, th.mask, th.sp.getD 0 0, th.inRescue, th.pc) = (0, 14, 0x0C00FDB0, true, 0x08000200))) := by
  decide +kernel

/-- A queue at 1,023 items of PRI 4 with SEQ 100 to 1,122 (11, R345): the pushes and pop of the example. -/
theorem test_queue_example :
    (let it (n p : Nat) : Item := ⟨0, p, 0, n, 0, 0, 0⟩
     let q : Queue := { Queue.init with items := (List.range 1023).map fun i => it (100 + i) 4 }
     let q1 := (q.push (it 1123 4)).1
     match q1.pop with
     | some (a, q2) =>
       let q3 := (q2.push (it 1124 6)).1; let q4 := (q3.push (it 1125 2)).1
       a.seq == 100 && q2.items.length == 1022 && decide ( q1.marker = some ⟨1123, 1123, 1, 4, 0, 0⟩ ∧ q4.marker = some ⟨1123, 1125, 2, 4, 0, 0⟩
         ∧ q4.pop.map (·.1.seq) = some 1124 ∧ (q4.pop.bind fun x => x.2.pop).map (·.1.seq) = some 101)
     | none => false) = true := by decide +kernel

/-- The estimator's velocity over eight counts of 262,144 pu in 15,625 etu is 50 turns per second (05, "releases on a shaft encoder"),
and the extrapolations by 44 etu of that velocity. -/
theorem test_velocity_example :
    (8 * 262144 * 1600000000 / 15625 = 0x3200000000) ∧ (0x3200000000 * 44 / 1600000000 = 0x1711) := by decide

/-- IDCODE of the TAP for stepping 0 (R451). -/
theorem test_idcode : (match exec .tapIdcode hot with | .next t => t.out | _ => []) = [.tap 0x094009EB] := by decide +kernel

/-! ### Single steps of the PE, against hand calculation from R93 to R106 -/

/-- The value that the row's firing sends. -/
def sends (row : Fire → Instr) (op l r t : Nat) : Option (Nat × Nat) :=
  let g := goodSet op
  let set (o : Option Val) (n : Nat) : Option Val := o.map fun v => { v with v := BitVec.ofNat 64 n }
  match exec (row fire0) (peState (goodWord op).encode { g with l := set g.l l, r := set g.r r, t := set g.t t } work) with
  | .next u => (u.pe 0).outq.head?.map fun t => (t.val.v.toNat, t.val.ty)
  | _ => none

theorem test_integer :
    sends .add 0x000 (2 ^ 64 - 1) 1 0 = some (0, 0) ∧ sends .mulhs 0x003 (2 ^ 64 - 1) (2 ^ 64 - 1) 0 = some (0, 0)
      ∧ sends .sar 0x00c (2 ^ 64 - 8) 65 0 = some (2 ^ 64 - 4, 0) ∧ sends .clz 0x013 1 0 0 = some (63, 0)
      ∧ sends .opAbs 0x00e (2 ^ 63) 0 0 = some (2 ^ 63, 0) ∧ sends .madd 0x005 3 5 7 = some (22, 0)
      ∧ sends .popc 0x014 0xFF00FF 0 0 = some (16, 0) ∧ sends .minu 0x011 (2 ^ 64 - 1) 1 0 = some (1, 0)
      ∧ sends .opMin 0x00f (2 ^ 64 - 1) 1 0 = some (2 ^ 64 - 1, 0) := by decide +kernel

/-- 1 + 2^-53 rounds to 1, 1/3, the square root of 2, 0/0 is the canonical NaN, FMIN of -0 and +0, 1.5 × 2 + 3, in binary64 bits. -/
theorem test_floating :
    sends .fadd 0x040 0x3FF0000000000000 0x3CA0000000000000 0 = some (0x3FF0000000000000, 1)
      ∧ sends .fdiv 0x043 0x3FF0000000000000 0x4008000000000000 0 = some (0x3FD5555555555555, 1)
      ∧ sends .fsqrt 0x044 0x4000000000000000 0 0 = some (0x3FF6A09E667F3BCD, 1)
      ∧ sends .fdiv 0x043 0 0 0 = some (0x7FF8000000000000, 1)
      ∧ sends .fma 0x045 0x3FF8000000000000 0x4000000000000000 0x4008000000000000 = some (0x4018000000000000, 1) := by decide +kernel

/-- (1 + 2j)(3 + 4j) = -5 + 10j, |3 + 4j|^2 = 25, in binary32 lanes. -/
theorem test_complex :
    sends .cmul 0x0c2 (0x3F800000 + 0x40000000 * 2 ^ 32) (0x40400000 + 0x40800000 * 2 ^ 32) 0 = some (0xC0A00000 + 0x41200000 * 2 ^ 32, 3)
      ∧ (sends .cabs2 0x0c8 (0x40400000 + 0x40800000 * 2 ^ 32) 0 0).map (·.1 % 2 ^ 32) = some 0x41C80000 := by decide +kernel

theorem test_compare :
    (sends .cmplt 0x102 (2 ^ 64 - 1) 1 0).map (·.1) = some 1 ∧ (sends .cmpltu 0x104 (2 ^ 64 - 1) 1 0).map (·.1) = some 0
      ∧ (sends .fcmplt 0x107 0x7FF8000000000000 0 0).map (·.1) = some 0 ∧ (sends .phcmplt 0x10a (2 ^ 64 - 1) 0 0).map (·.1) = some 1 := by
  decide +kernel

/-! ### Other single steps -/

/-- What a bank answers to IREAD of a FULL word and of an EMPTY one, and to MTAKE (R260). -/
theorem test_presence :
    (let full (s : State) : State := { setPres s 8 1 with mem := memWrite s.mem (scrPhys s 8) [42] }
     let s (cmd : Nat) : State := flying (wordReq cmd) (full banked)
     match exec (.reqMtake good0) (s 0x17), exec (.reqIread good0) (s 0x14) with
     | .next t, .next u => presOf t 8 == 0 && presOf u 8 == 1 && t.net.any (fun p => p.units == [42]) && u.net.any (fun p => p.units == [42])
     | _, _ => false) = true := by decide +kernel

/-- POWER_ON starts the Dawn sequence; before it the phase engine does not tick. -/
theorem test_power_on :
    (match step { State.reset with pending := [.powerOn] } with
     | .next t => decide (t.dawn = .step 1) && t.pending.isEmpty
     | _ => false)
      && (match step { State.reset with pending := [.phaseTick [] [] []] } with | .next t => t.now == 0 | _ => false) = true := by
  decide +kernel
end Sys2Proof.Tests
end

section
/-! PROOF. Outcomes given by a choice; every command completes; the state after power-on reset. -/

namespace Sys2Proof.Machine

open Sys2Proof Sys2Proof.Claims

section
variable {o : Host.Outcome State Fault Refusal} {p : Prop} [Decidable p] {x y : State}

/-- An outcome given by a choice, once the choice is known. -/
theorem next_pos (h : o = .next (if p then x else y)) (hp : p) : o = .next x := by rw [h, if_pos hp]

theorem next_neg (h : o = .next (if p then x else y)) (hp : ¬ p) : o = .next y := by rw [h, if_neg hp]

variable {α : Type} {q : Option α} {f : α → State}

theorem next_none (h : o = .next (q.elim x f)) (hq : q = none) : o = .next x := by rw [h, hq]; rfl

theorem next_some {a : α} (h : o = .next (q.elim x f)) (hq : q = some a) : o = .next (f a) := by rw [h, hq]; rfl

end

/-- Every arm of `exec` is a next state by its definition. -/
theorem exec_isNext (c : Instr) (s : State) : ∃ t, exec c s = .next t := by
  cases c <;> exact ⟨_, rfl⟩

theorem step_cons {s : State} {c : Instr} {cs : List Instr} (h : s.pending = c :: cs) :
    step s = exec c { s with pending := cs } := by
  unfold step; rw [h]

theorem step_nil {s : State} (h : s.pending = []) : step s = .next s := by
  unfold step; rw [h]

theorem step_isNext (s : State) : ∃ t, step s = .next t := by
  cases h : s.pending with
  | nil => exact ⟨s, step_nil h⟩
  | cons c cs => rw [step_cons h]; exact exec_isNext c _

/-- Settles O55. -/
theorem stepAndCompletion : Obligations.StepAndCompletion :=
  ⟨fun _ => ⟨fun _ _ => step_cons, step_nil⟩, fun s => ⟨step_isNext s, fun c => exec_isNext c s⟩⟩

theorem rd_reset (f : Fld) : rd State.reset f = f.rst ∧ rdSh State.reset f = f.rst := ⟨rfl, rfl⟩

theorem reset_up_succ (n : Nat) : State.reset.up (n + 1) = false := rfl

theorem dbgRights_reset : ∀ k < 6, (dbgRights State.reset).testBit k = true := by decide +kernel

/-- Settles O56: every table of the reset state is empty, so each entry is its default. -/
theorem resetState : Obligations.ResetState :=
  ⟨rd_reset, fun b o _ ix fd _ _ => (rd_reset (fldAt b o ix fd)).1, reset_up_succ, rfl, rfl, rfl, rfl, fun _ => rfl,
    dbgRights_reset, fun _ => rfl, fun _ => rfl, fun _ => rfl⟩

end Sys2Proof.Machine
end

section
/-! PROOF. The places of the register index, and what a plain write does to each field of a register. -/

namespace Sys2Proof.Machine
open Sys2Proof Sys2Proof.Claims

/-! ### Places of fields -/

theorem blkOf_congr {a b : Nat} (h : a / 0x10000 = b / 0x10000) : blkOf a = blkOf b := by
  unfold blkOf; rw [h]

theorem blkBase_aligned : ∀ b < 34, blkBase b % 0x10000 = 0 ∧ blkBase b < 0x410000 ∧ blkOf (blkBase b) = some b := by
  decide +kernel

theorem blkOf_blkBase_add {b o : Nat} (hb : b < 34) (ho : o < 0x10000) : blkOf (blkBase b + o) = some b := by
  obtain ⟨h0, -, h⟩ := blkBase_aligned b hb
  rw [← h]; exact blkOf_congr (by omega)

theorem blkBase_add_mod {b o : Nat} (hb : b < 34) (ho : o < 0x10000) : (blkBase b + o) % 0x10000 = o := by
  obtain ⟨h0, -, -⟩ := blkBase_aligned b hb
  omega

/-- A place in the index is the place of one field only. -/
theorem fkey_inj {b b' o o' l l' : Nat} (hb : b < 34) (hb' : b' < 34) (ho : o < 0x10000) (ho' : o' < 0x10000) (hl : l < 32)
    (hl' : l' < 32) (h : fkey b o l = fkey b' o' l') : b = b' ∧ o = o' ∧ l = l' := by
  unfold fkey at h
  have hoff : blkBase b + o = blkBase b' + o' := by omega
  have hblk : some b = some b' := by
    rw [← blkOf_blkBase_add hb ho, ← blkOf_blkBase_add hb' ho', hoff]
  cases hblk
  omega

/-! ### The register index -/

/-- One more than the largest distance from its row's offset that an index reaches. -/
def RegD.span (r : RegD) : Nat := match r.dims with | [] => 1 | (st, n) :: _ => st * n

/-- A row whose fields begin at different bits of one 32-bit word, and whose registers lie within a region. -/
structure RegD.Placed (r : RegD) : Prop where
  lo_lt : ∀ fd ∈ r.fields, fd.lo < 32
  lo_nodup : (r.fields.map (·.lo)).Nodup
  stride_pos : ∀ d ∈ r.dims, 0 < d.1
  fits : r.off + r.span ≤ 0x10000

theorem regsOf_placed {b : Nat} (hb : b < 34) {r : RegD} (hr : r ∈ regsOf b) : r.Placed := by
  have all : ∀ b < 34, ∀ r ∈ regsOf b, (∀ fd ∈ r.fields, fd.lo < 32) ∧ (r.fields.map (·.lo)).Nodup
      ∧ (∀ d ∈ r.dims, 0 < d.1) ∧ r.off + r.span ≤ 0x10000 := by decide +kernel
  obtain ⟨h1, h2, h3, h4⟩ := all b hb r hr
  exact ⟨h1, h2, h3, h4⟩

theorem RegD.Placed.regIdx_lt {r : RegD} (hr : r.Placed) {rel : Nat} {ix : List Nat} (h : regIdx r.dims rel = some ix) :
    rel < r.span := by
  have hpos := hr.stride_pos
  unfold RegD.span
  cases hd : r.dims with
  | nil =>
    rw [hd] at h
    cases rel with
    | zero => exact Nat.one_pos
    | succ n => simp [regIdx] at h
  | cons d ds =>
    obtain ⟨st, n⟩ := d
    rw [hd, regIdx] at h
    have hlt : rel / st < n := Decidable.byContradiction fun hn => by rw [if_neg hn] at h; cases h
    have := (Nat.div_lt_iff_lt_mul (hpos (st, n) (by simp [hd]))).1 hlt
    exact Nat.lt_of_lt_of_eq this (Nat.mul_comm n st)

theorem findReg_some {b o : Nat} {r : RegD} {ix : List Nat} (h : findReg b o = some (r, ix)) :
    r ∈ regsOf b ∧ r.off ≤ o ∧ regIdx r.dims (o - r.off) = some ix := by
  obtain ⟨r', hr', he⟩ := List.exists_of_findSome?_eq_some h
  split at he
  · split at he
    · cases he; exact ⟨hr', by assumption, by assumption⟩
    · cases he
  · cases he

/-- A register's row has its fields apart, and its offset lies in the region of its block. -/
theorem findReg_placed {b o : Nat} (hb : b < 34) {r : RegD} {ix : List Nat} (h : findReg b o = some (r, ix)) :
    r.Placed ∧ o < 0x10000 := by
  obtain ⟨hr, hle, hix⟩ := findReg_some h
  have hp := regsOf_placed hb hr
  have := hp.regIdx_lt hix
  have := hp.fits
  exact ⟨hp, by omega⟩

/-! ### One field written -/

@[simp] theorem fldAt_key (b o : Nat) (ix : List Nat) (fd : FieldD) : (fldAt b o ix fd).key = fkey b o fd.lo := rfl

/-- A read after a write with another default: a value equal to the table's own is not listed. -/
theorem mget_mset_default {α : Type} [DecidableEq α] (d d' : α) (m : FMap α) (k k' : Nat) (v : α) :
    mget d' (mset d m k v) k' = if k = k' then (if v = d then d' else v) else mget d' m k' := by
  unfold mset
  split
  · rw [mget_mdel]
  · rw [mget_mins]

/-- Two states hold the same of a field: the value in force, and the shadow whatever stands for one not listed. -/
def SameField (u s : State) (f : Fld) : Prop := rd u f = rd s f ∧ ∀ d, mget d u.shadow f.key = mget d s.shadow f.key

theorem SameField.rdSh_eq {u s : State} {f : Fld} (h : SameField u s f) : rdSh u f = rdSh s f := by
  unfold rdSh; rw [h.1, h.2]

theorem SameField.trans {u s t : State} {f : Fld} (h : SameField u s f) (h' : SameField s t f) : SameField u t f :=
  ⟨h.1.trans h'.1, fun d => (h.2 d).trans (h'.2 d)⟩

/-- The Profile L value that governs a field now: none in Profile A (R31). -/
def governedNow (s : State) (f : Fld) : Option Nat :=
  if rd s F.genProfstatActive = 1 then none else governed f.blk f.off f.lo

section
variable (s : State) (f g : Fld) {fd : FieldD} (n : Nat)

theorem writeField_kept (h : fd.acc ∈ [Acc.ro, .rc, .wo, .w1s]) : writeField s f fd n = (s, false) := by
  simp only [List.mem_cons, List.not_mem_nil, or_false] at h
  rcases h with h | h | h | h <;> simp [writeField, h]

theorem writeField_w1c (h : fd.acc = .w1c) : writeField s f fd n = (put s f (rd s f - (rd s f &&& n)), false) := by
  simp [writeField, h]

theorem writeField_rw (h : fd.acc = .rw) : writeField s f fd n = match governedNow s f with
    | some g => (s, n != g)
    | none => if fd.ok.holds n then (put s f n, false) else (s, true) := by
  by_cases hp : rd s F.genProfstatActive = 1
  · simp [writeField, h, governedNow, profA, rdB, hp]
  · cases hg : governed f.blk f.off f.lo <;> simp [writeField, h, governedNow, profA, rdB, hp, hg, bne, BEq.comm (a := n)]

theorem writeField_rwl (h : fd.acc = .rwl) : writeField s f fd n =
    if s.locked.contains f.blk then (s, false) else if fd.ok.holds n then (put s f n, false) else (s, true) := by
  simp [writeField, h]

theorem writeField_rwp (h : fd.acc = .rwp) : writeField s f fd n = match governedNow s f with
    | some g => (s, n != g)
    | none => if fd.ok.holds n then ({ s with shadow := mset (rd s f) s.shadow f.key n }, false) else (s, true) := by
  by_cases hp : rd s F.genProfstatActive = 1
  · simp [writeField, h, governedNow, profA, rdB, hp]
  · cases hg : governed f.blk f.off f.lo <;> simp [writeField, h, governedNow, profA, rdB, hp, hg, bne, BEq.comm (a := n)]

variable (fd)

/-- What a write of one field may change: nothing, the field in force, or its shadow. -/
theorem writeField_state : (writeField s f fd n).1 = s ∨ (∃ v, (writeField s f fd n).1 = put s f v)
    ∨ (writeField s f fd n).1 = { s with shadow := mset (rd s f) s.shadow f.key n } := by
  have hput (v : Nat) : put s f v = s ∨ (∃ w, put s f v = put s f w) ∨
      put s f v = { s with shadow := mset (rd s f) s.shadow f.key n } := .inr (.inl ⟨v, rfl⟩)
  unfold writeField
  cases fd.acc with
  | ro | rc | wo | w1s => exact .inl rfl
  | w1c => exact hput _
  | rw =>
    dsimp only; split
    · exact .inl rfl
    · split
      · exact hput _
      · exact .inl rfl
  | rwl =>
    dsimp only; split
    · exact .inl rfl
    · split
      · exact hput _
      · exact .inl rfl
  | rwp =>
    dsimp only; split
    · exact .inl rfl
    · split
      · exact .inr (.inr rfl)
      · exact .inl rfl

theorem writeField_frame : let t := (writeField s f fd n).1
    t.mem = s.mem ∧ t.ctxs = s.ctxs ∧ t.pes = s.pes ∧ t.locked = s.locked := by
  rcases writeField_state s f fd n with e | ⟨v, e⟩ | e <;> rw [e] <;> exact ⟨rfl, rfl, rfl, rfl⟩

variable {f g} in
theorem writeField_other (h : f.key ≠ g.key) : SameField (writeField s f fd n).1 s g := by
  rcases writeField_state s f fd n with e | ⟨v, e⟩ | e <;> rw [e]
  · exact ⟨rfl, fun _ => rfl⟩
  · exact ⟨rd_put_other s f g v h, fun _ => rfl⟩
  · exact ⟨rfl, fun d => by simp only [mget_mset_default, if_neg h]⟩

/-- The write of a field looks at the profile, at its block's lock and at the field. -/
theorem writeField_congr {s u : State} (hp : rd u F.genProfstatActive = rd s F.genProfstatActive) (hl : u.locked = s.locked)
    (hf : SameField u s f) :
    SameField (writeField u f fd n).1 (writeField s f fd n).1 f ∧ (writeField u f fd n).2 = (writeField s f fd n).2 := by
  have hpa : profA u = profA s := by unfold profA rdB; rw [hp]
  have hput (v : Nat) : SameField (put u f v) (put s f v) f := ⟨by simp only [rd_put_same], hf.2⟩
  have hsh : SameField { u with shadow := mset (rd s f) u.shadow f.key n }
      { s with shadow := mset (rd s f) s.shadow f.key n } f :=
    ⟨hf.1, fun d => by simp only [mget_mset_default]; simp⟩
  unfold writeField
  rw [hpa, hl, hf.1]
  cases fd.acc with
  | ro | rc | wo | w1s => exact ⟨hf, rfl⟩
  | w1c => exact ⟨hput _, rfl⟩
  | rw =>
    dsimp only; split
    · exact ⟨hf, rfl⟩
    · split
      · exact ⟨hput _, rfl⟩
      · exact ⟨hf, rfl⟩
  | rwl =>
    dsimp only; split
    · exact ⟨hf, rfl⟩
    · split
      · exact ⟨hput _, rfl⟩
      · exact ⟨hf, rfl⟩
  | rwp =>
    dsimp only; split
    · exact ⟨hf, rfl⟩
    · split
      · exact ⟨hsh, rfl⟩
      · exact ⟨hf, rfl⟩

end

section
variable (s : State) (f : Fld) {fd : FieldD} {n : Nat}

theorem rd_writeField_w1c (h : fd.acc = .w1c) :
    rd (writeField s f fd n).1 f = (rd s f - (rd s f &&& n)) % 2 ^ f.width := by
  rw [writeField_w1c s f n h, rd_put_same]

theorem rd_writeField_rw (hn : n < 2 ^ f.width) (h : fd.acc = .rw) : rd (writeField s f fd n).1 f =
    if governedNow s f = none ∧ fd.ok.holds n = true then n else rd s f := by
  rw [writeField_rw s f n h]
  cases governedNow s f with
  | some g => simp
  | none => by_cases hv : fd.ok.holds n = true <;> simp [hv, Nat.mod_eq_of_lt hn]

theorem rd_writeField_rwl (hn : n < 2 ^ f.width) (h : fd.acc = .rwl) : rd (writeField s f fd n).1 f =
    if f.blk ∉ s.locked ∧ fd.ok.holds n = true then n else rd s f := by
  rw [writeField_rwl s f n h]
  by_cases hl : f.blk ∈ s.locked
  · simp [hl]
  · by_cases hv : fd.ok.holds n = true <;> simp [hl, hv, Nat.mod_eq_of_lt hn]

theorem rd_writeField_rwp (h : fd.acc = .rwp) : rd (writeField s f fd n).1 f = rd s f
    ∧ rdSh (writeField s f fd n).1 f = if governedNow s f = none ∧ fd.ok.holds n = true then n else rdSh s f := by
  rw [writeField_rwp s f n h]
  cases governedNow s f with
  | some g => simp
  | none =>
    by_cases hv : fd.ok.holds n = true
    · simp only [hv, if_true, and_self]; exact ⟨rfl, mget_mset_same _ _ _ _⟩
    · simp [hv]

/-- A field refuses a value: another than the one that governs it, or one out of range (R8, R31). -/
theorem writeField_refused : (writeField s f fd n).2 = true ↔
    (fd.acc = .rw ∨ fd.acc = .rwp) ∧ (match governedNow s f with | some g => n ≠ g | none => fd.ok.holds n = false)
    ∨ fd.acc = .rwl ∧ f.blk ∉ s.locked ∧ fd.ok.holds n = false := by
  cases h : fd.acc with
  | ro | rc | wo | w1s => rw [writeField_kept s f n (by simp [h])]; simp
  | w1c => rw [writeField_w1c s f n h]; simp
  | rw =>
    rw [writeField_rw s f n h]
    cases governedNow s f with
    | some g => simp
    | none => by_cases hv : fd.ok.holds n = true <;> simp [hv]
  | rwp =>
    rw [writeField_rwp s f n h]
    cases governedNow s f with
    | some g => simp
    | none => by_cases hv : fd.ok.holds n = true <;> simp [hv]
  | rwl =>
    rw [writeField_rwl s f n h]
    by_cases hl : f.blk ∈ s.locked
    · simp [hl]
    · by_cases hv : fd.ok.holds n = true <;> simp [hl, hv]

end

/-! ### The fields of a register written in turn -/

/-- The bits of a written value that reach a field. -/
abbrev newBits (v : Nat) (fd : FieldD) : Nat := bits v fd.lo (fd.hi - fd.lo + 1)

/-- The write of one field of a register. -/
abbrev writeAlone (s : State) (b o : Nat) (ix : List Nat) (v : Nat) (fd : FieldD) : State × Bool :=
  writeField s (fldAt b o ix fd) fd (newBits v fd)

section
variable {b o v : Nat} {ix : List Nat}

theorem writeFields_cons (s : State) (fd : FieldD) (fds : List FieldD) :
    writeFields s b o ix v (fd :: fds) =
      let w := writeAlone s b o ix v fd; let t := writeFields w.1 b o ix v fds
      (t.1, w.2 || t.2) := rfl

theorem writeFields_other (fds : List FieldD) (s : State) (g : Fld) (h : ∀ fd ∈ fds, (fldAt b o ix fd).key ≠ g.key) :
    SameField (writeFields s b o ix v fds).1 s g := by
  induction fds generalizing s with
  | nil => exact ⟨rfl, fun _ => rfl⟩
  | cons fd fds ih =>
    have hrest := ih (writeAlone s b o ix v fd).1 fun x hx => h x (List.mem_cons_of_mem _ hx)
    exact hrest.trans (writeField_other s fd (newBits v fd) (h fd List.mem_cons_self))

theorem writeFields_frame (fds : List FieldD) (s : State) : let t := (writeFields s b o ix v fds).1
    t.mem = s.mem ∧ t.ctxs = s.ctxs ∧ t.pes = s.pes ∧ t.locked = s.locked := by
  induction fds generalizing s with
  | nil => exact ⟨rfl, rfl, rfl, rfl⟩
  | cons fd fds ih =>
    obtain ⟨h1, h2, h3, h4⟩ := ih (writeAlone s b o ix v fd).1
    obtain ⟨k1, k2, k3, k4⟩ := writeField_frame s (fldAt b o ix fd) fd (newBits v fd)
    exact ⟨h1.trans k1, h2.trans k2, h3.trans k3, h4.trans k4⟩

/-- Fields at different bits, none of which is the profile's unless it is read only: each is written as if it were alone,
and the register's write is refused as soon as one of them is. -/
theorem writeFields_each (fds : List FieldD) (s : State) (hnd : (fds.map (·.lo)).Nodup)
    (hp : ∀ fd ∈ fds, fkey b o fd.lo = F.genProfstatActive.key → fd.acc = .ro) :
    (∀ fd ∈ fds, SameField (writeFields s b o ix v fds).1 (writeAlone s b o ix v fd).1 (fldAt b o ix fd))
    ∧ ((writeFields s b o ix v fds).2 = true ↔ ∃ fd ∈ fds, (writeAlone s b o ix v fd).2 = true) := by
  induction fds generalizing s with
  | nil => simp [writeFields]
  | cons fd fds ih =>
    rw [List.map_cons, List.nodup_cons] at hnd
    have hne (x : FieldD) (hx : x ∈ fds) : (fldAt b o ix fd).key ≠ (fldAt b o ix x).key := by
      simp only [fldAt_key, fkey]
      have : x.lo ≠ fd.lo := fun e => hnd.1 (e ▸ List.mem_map_of_mem hx)
      omega
    have hprof : rd (writeAlone s b o ix v fd).1 F.genProfstatActive = rd s F.genProfstatActive := by
      by_cases hk : (fldAt b o ix fd).key = F.genProfstatActive.key
      · rw [writeAlone, writeField_kept _ _ _ (by simp [hp fd List.mem_cons_self hk])]
      · exact (writeField_other s fd _ hk).1
    obtain ⟨-, -, -, hlock⟩ := writeField_frame s (fldAt b o ix fd) fd (newBits v fd)
    obtain ⟨ih1, ih2⟩ := ih (writeAlone s b o ix v fd).1 hnd.2 fun x hx => hp x (List.mem_cons_of_mem _ hx)
    have hc (x : FieldD) (hx : x ∈ fds) :=
      writeField_congr (fldAt b o ix x) x (newBits v x) hprof hlock (writeField_other s fd _ (hne x hx))
    rw [writeFields_cons]
    refine ⟨fun x hx => ?_, ?_⟩
    · rcases List.mem_cons.1 hx with rfl | hx
      · exact writeFields_other fds _ _ fun y hy => (hne y hy).symm
      · exact (ih1 x hx).trans (hc x hx).1
    · simp only [Bool.or_eq_true, ih2, List.mem_cons, or_and_right, exists_or, exists_eq_left]
      exact or_congr_right (exists_congr fun x => and_congr_right fun hx => by rw [(hc x hx).2])

end

/-- GEN_PROFSTAT.ACTIVE is read only. -/
theorem findReg_profstat {b o : Nat} (hb : b < 34) {r : RegD} {ix : List Nat} (h : findReg b o = some (r, ix)) {fd : FieldD}
    (hfd : fd ∈ r.fields) (hk : fkey b o fd.lo = F.genProfstatActive.key) : fd.acc = .ro := by
  obtain ⟨hpl, ho⟩ := findReg_placed hb h
  obtain ⟨rfl, rfl, -⟩ := fkey_inj hb (b' := 0) (by decide) ho (o' := 0x14) (by decide) (hpl.lo_lt fd hfd) (by decide) hk
  have hall : ∀ q ∈ findReg 0 0x14, ∀ fd ∈ q.1.fields, fd.acc = .ro := by decide +kernel
  exact hall (r, ix) h fd hfd

/-- A register's plain write reaches each of its fields as if it were written alone, and is refused when one of them is. -/
theorem writePlain_each (s : State) (v : Nat) {b o : Nat} (hb : b < 34) {r : RegD} {ix : List Nat}
    (h : findReg b o = some (r, ix)) :
    (∀ fd ∈ r.fields, SameField (writePlain s b o v).1 (writeAlone s b o ix v fd).1 (fldAt b o ix fd))
    ∧ ((writePlain s b o v).2 = true ↔ ∃ fd ∈ r.fields, (writeAlone s b o ix v fd).2 = true) := by
  have hw : writePlain s b o v = writeFields s b o ix v r.fields := by simp only [writePlain, h]
  rw [hw]
  exact writeFields_each r.fields s (findReg_placed hb h).1.lo_nodup fun fd => findReg_profstat hb h

/-- Settles O53: a field is written as if it were alone (`writePlain_each`), so each access code is looked at by itself. -/
theorem registerFields : Obligations.RegisterFields := by
  intro s b o v r ix hb hr t fld new gov locked
  obtain ⟨heach, herr⟩ := writePlain_each s v hb hr
  have hw : t = writeFields s b o ix v r.fields := by simp only [t, writePlain, hr]
  have hlt (fd : FieldD) : new fd < 2 ^ (fld fd).width := Nat.mod_lt _ (Nat.two_pow_pos _)
  refine ⟨fun fd hfd => ⟨fun ha => ?_, fun ha => ?_, fun ha => ?_, fun ha => ?_, fun ha => ?_⟩, ?_, fun f hf => ?_, ?_⟩
  · have he := heach fd hfd
    rw [writeAlone, writeField_kept s (fld fd) (newBits v fd) ha] at he
    exact ⟨he.1, he.rdSh_eq⟩
  · exact (heach fd hfd).1.trans (rd_writeField_w1c s _ ha)
  · exact (heach fd hfd).1.trans (rd_writeField_rw s _ (hlt fd) ha)
  · exact (heach fd hfd).1.trans (rd_writeField_rwl s _ (hlt fd) ha)
  · obtain ⟨h1, h2⟩ := rd_writeField_rwp s (fld fd) (n := new fd) ha
    exact ⟨(heach fd hfd).1.trans h1, (heach fd hfd).rdSh_eq.trans h2⟩
  · rw [herr]
    exact exists_congr fun fd => and_congr_right fun _ => writeField_refused s (fld fd)
  · have he : SameField t.1 s f := hw ▸ writeFields_other r.fields s f fun fd hfd => (hf fd hfd).symm
    exact ⟨he.1, he.rdSh_eq⟩
  · rw [hw]; exact writeFields_frame r.fields s

end Sys2Proof.Machine
end

section
/-! PROOF. Undefined offsets: no register with an effect of its own stands at one. -/

namespace Sys2Proof.Machine

open Sys2Proof Sys2Proof.Claims

/-- Block `b` has a row at the offset with these indices. -/
def hasRow (b off : Nat) (dims : List (Nat × Nat)) : Bool := (regsOf b).any fun r => r.off == off && r.dims == dims

theorem findReg_ne_none {b o : Nat} {r : RegD} (hr : r ∈ regsOf b) (hle : r.off ≤ o) {ix : List Nat}
    (hix : regIdx r.dims (o - r.off) = some ix) : findReg b o ≠ none := by
  intro h
  have := List.findSome?_eq_none_iff.1 h r hr
  simp [hle, hix] at this

theorem regIdx_single {st n rel : Nat} (hlt : rel < st * n) (h0 : rel % st = 0) :
    regIdx [(st, n)] rel = some [rel / st] := by
  have : rel / st < n := Nat.div_lt_of_lt_mul hlt
  simp [regIdx, this, h0]

section
variable {b o : Nat} (h : findReg b o = none)
include h

theorem undefined_ne {off : Nat} (hr : hasRow b off [] = true) : o ≠ off := by
  rintro rfl
  simp only [hasRow, List.any_eq_true, Bool.and_eq_true, beq_iff_eq] at hr
  obtain ⟨r, hmem, rfl, hd⟩ := hr
  exact findReg_ne_none hmem (Nat.le_refl _) (ix := []) (by simp [hd, regIdx]) h

theorem undefined_off_row {off st n : Nat} (hr : hasRow b off [(st, n)] = true) :
    ¬ (off ≤ o ∧ o < off + st * n ∧ (o - off) % st = 0) := by
  rintro ⟨hle, hlt, h0⟩
  simp only [hasRow, List.any_eq_true, Bool.and_eq_true, beq_iff_eq] at hr
  obtain ⟨r, hmem, rfl, hd⟩ := hr
  exact findReg_ne_none hmem hle (hd ▸ regIdx_single (by omega) h0) h

theorem plainWrite_undefined (v : Nat) (s : State) : plainWrite b o v s = s := by
  simp [plainWrite, writePlain, h]

end

section
variable {o : Nat} (v : Nat) (s : State)

theorem writeGen_undefined (h : findReg 0 o = none) (init : Nat) : writeGen init o v s = s := by
  unfold writeGen
  rw [if_neg (undefined_ne h (by decide +kernel)), if_neg (undefined_ne h (by decide +kernel)),
    if_neg (undefined_ne h (by decide +kernel)), plainWrite_undefined h]

theorem writeCnv_undefined (h : findReg 4 o = none) : writeCnv o v s = s := by
  have := undefined_off_row h (show hasRow 4 0x101C [(64, 64)] = true by decide +kernel)
  unfold writeCnv
  rw [if_neg (by omega), plainWrite_undefined h]

theorem writeDrv_undefined (h : findReg 5 o = none) (h4 : o % 4 = 0) : writeDrv o v s = s := by
  have := undefined_off_row h (show hasRow 5 0x1400 [(4, 256)] = true by decide +kernel)
  unfold writeDrv
  rw [if_neg (undefined_ne h (by decide +kernel)), if_neg (undefined_ne h (by decide +kernel)),
    if_neg (undefined_ne h (by decide +kernel)), if_neg (undefined_ne h (by decide +kernel)), if_neg (by omega),
    plainWrite_undefined h]

theorem writeRng_undefined (h : findReg 6 o = none) : writeRng o v s = s := by
  unfold writeRng
  rw [if_neg (undefined_ne h (by decide +kernel)), if_neg (by simp [h]), plainWrite_undefined h]

theorem writeLck_undefined (h : findReg 9 o = none) (h4 : o % 4 = 0) (master : Nat) : writeLck master o v s = s := by
  have := undefined_off_row h (show hasRow 9 0 [(4, 256)] = true by decide +kernel)
  unfold writeLck
  rw [if_neg (by omega), if_neg (undefined_ne h (by decide +kernel))]

theorem writeSec_undefined (h : findReg 14 o = none) (init : Nat) : writeSec init o v s = s := by
  unfold writeSec
  rw [if_neg (undefined_ne h (by decide +kernel)), if_neg (undefined_ne h (by decide +kernel)),
    if_neg (undefined_ne h (by decide +kernel)), plainWrite_undefined h]

theorem writeSup_undefined (h : findReg 15 o = none) (init : Nat) : writeSup init o v s = s := by
  have := undefined_off_row h (show hasRow 15 0x100 [(32, 4)] = true by decide +kernel)
  unfold writeSup
  rw [if_neg (undefined_ne h (by decide +kernel)), if_neg (by omega), plainWrite_undefined h]

theorem writeDbg_undefined (h : findReg 16 o = none) (h4 : o % 4 = 0) : writeDbg o v s = s := by
  have := undefined_off_row h (show hasRow 16 0x100 [(64, 4)] = true by decide +kernel)
  have := undefined_off_row h (show hasRow 16 0x800 [(64, 16)] = true by decide +kernel)
  have := undefined_off_row h (show hasRow 16 0x1000 [(4, 768)] = true by decide +kernel)
  unfold writeDbg
  rw [if_neg (undefined_ne h (by decide +kernel)), if_neg (undefined_ne h (by decide +kernel)), if_neg (by omega),
    if_neg (undefined_ne h (by decide +kernel)), if_neg (by omega), if_neg (by omega), plainWrite_undefined h]

/-- The rows of a cluster that act when written. -/
theorem hasRow_cluster : ∀ b < 34, 17 ≤ b → b ≤ 32 → hasRow b 0x904 [] = true ∧ hasRow b 0x900 [] = true
    ∧ hasRow b 0x460 [] = true ∧ hasRow b 0x940 [(4, 16)] = true := by
  decide +kernel

theorem writeCl_undefined {b : Nat} (h : findReg b o = none) (hb : 17 ≤ b ∧ b ≤ 32) (h4 : o % 4 = 0) :
    writeCl (b - 17) o v s = s := by
  obtain ⟨h904, h900, h460, h940⟩ := hasRow_cluster b (by omega) hb.1 hb.2
  have := undefined_off_row h h940
  have h900 := undefined_ne h h900
  unfold writeCl
  rw [if_neg (undefined_ne h h904), if_neg (by omega), if_neg (by simp [h900]), if_neg (undefined_ne h h460)]
  rw [show 17 + (b - 17) = b by omega, plainWrite_undefined h]

/-- The rows of the fault register group that act when written. -/
theorem hasRow_faults : ∀ b < 34,
    hasRow b 0xF008 [] = true ∧ hasRow b 0xF01C [] = true ∧ hasRow b 0xF00C [] = true := by
  decide +kernel

theorem writeFlt_undefined {b : Nat} (hb : b < 34) (h : findReg b o = none) : writeFlt b o v s = s := by
  obtain ⟨h1, h2, h3⟩ := hasRow_faults b hb
  unfold writeFlt
  rw [if_neg (undefined_ne h h1), if_neg (undefined_ne h h2), if_neg (undefined_ne h h3), plainWrite_undefined h]

/-- A block without a COMMIT register has nothing to commit (R460). -/
theorem commitBlk_undefined {b : Nat} (hb : b < 34) (h : findReg b 0xF0 = none) : commitBlk b s = s := by
  have hall : ∀ b < 34, findReg b 0xF0 = none →
      b = 1 ∨ b = 2 ∨ 6 ≤ b ∧ b ≤ 8 ∨ b = 11 ∨ 14 ≤ b ∧ b ≤ 16 ∨ b = 33 := by decide +kernel
  have := hall b hb h
  unfold commitBlk
  split
  · omega
  · split
    iterate 7 · omega
    rfl

theorem writeReg_undefined {b : Nat} (hb : b < 34) (h : findReg b o = none) (init agent : Nat) :
    writeReg init agent b o v s = s := by
  unfold writeReg
  by_cases h4 : o % 4 = 0
  · rw [if_neg (by omega)]
    by_cases hf : 0xF000 ≤ o
    · rw [if_pos hf, writeFlt_undefined v s hb h]
    rw [if_neg hf]
    by_cases hc : o = 0xF0 ∧ b ≠ 9
    · obtain ⟨rfl, -⟩ := id hc
      rw [if_pos hc, commitBlk_undefined s hb h, ite_self]
    rw [if_neg hc]
    by_cases hcl : 17 ≤ b ∧ b ≤ 32
    · rw [if_pos hcl, writeCl_undefined v s h hcl h4]
    rw [if_neg hcl]
    split
    · exact writeGen_undefined v s h init
    · have := undefined_off_row h (show hasRow 1 0x100 [(4, 16)] = true by decide +kernel)
      have := undefined_off_row h (show hasRow 1 0x140 [(4, 4)] = true by decide +kernel)
      rw [if_neg (by omega), plainWrite_undefined h]
    · exact writeCnv_undefined v s h
    · exact writeDrv_undefined v s h h4
    · exact writeRng_undefined v s h
    · rw [if_neg (undefined_ne h (by decide +kernel)), plainWrite_undefined h]
    · have := undefined_off_row h (show hasRow 8 0x100 [(4, 32)] = true by decide +kernel)
      rw [if_neg (by omega), plainWrite_undefined h]
    · exact writeLck_undefined v s h h4 _
    · have := undefined_off_row h (show hasRow 13 0x100 [(32, 4)] = true by decide +kernel)
      rw [if_neg (by omega), plainWrite_undefined h]
    · exact writeSec_undefined v s h init
    · exact writeSup_undefined v s h init
    · exact writeDbg_undefined v s h h4
    · rw [if_neg (undefined_ne h (by decide +kernel)), if_neg (undefined_ne h (by decide +kernel)), plainWrite_undefined h]
    · exact plainWrite_undefined h v s
  · rw [if_pos h4]

/-- A read latches other registers only at PH_SRC_PHLO, which is a register (R163). -/
theorem readRegEff_undefined {b : Nat} (h : findReg b o = none) : readRegEff b o s = (0, s) := by
  have hph : ¬ (b = 3 ∧ 0x100 ≤ o ∧ o < 0x500 ∧ o % 64 = 0x20) := by
    rintro ⟨rfl, hrow⟩
    have := undefined_off_row h (show hasRow 3 0x120 [(64, 16)] = true by decide +kernel)
    omega
  simp only [readRegEff, h, if_neg hph]

end

section
variable {s : State} {init b o : Nat} (hup : s.up 3 = true) (hb : b < 34) (ho : o < 0x10000) (hblk : blkUp s b = true)
  (hinit : regInit init = true)
include hup hb ho hblk hinit

/-- A write of a running block's register, accepted by it. -/
theorem regWrite_runs (v : Nat) (hrun : stationRuns s (regStation (blkBase b + o)) = true) :
    exec (.regWrite init (blkBase b + o) v) s = .next
      (if writeAccepted s init (blkBase b + o) && debugOk s init (blkBase b + o) v then
        writeReg init 0 b o (v % 2 ^ 32) s else s) := by
  obtain ⟨-, hbase, -⟩ := blkBase_aligned b hb
  refine (act_up _ hup).trans (congrArg _ ?_)
  rw [regWriteEff, hinit, if_neg (by simp; omega), blkOf_blkBase_add hb ho]
  simp only [hblk, hrun, blkBase_add_mod hb ho, Bool.not_true, Bool.false_eq_true, if_false]

theorem regWrite_asks (v : Nat) (hrun : stationRuns s (regStation (blkBase b + o)) = false) :
    exec (.regWrite init (blkBase b + o) v) s = .next
      (askReg init 0x41 (blkBase b + o) [storeUnit v 4 0 8] .nobody s) := by
  obtain ⟨-, hbase, -⟩ := blkBase_aligned b hb
  refine (act_up _ hup).trans (congrArg _ ?_)
  rw [regWriteEff, hinit, if_neg (by simp; omega), blkOf_blkBase_add hb ho]
  simp only [hblk, hrun, Bool.not_true, Bool.not_false, Bool.false_eq_true, if_false, if_true]

theorem regReadClear_hidden (h : init = 0x5B ∧ (b = 14 ∨ b = 16)) :
    exec (.regReadClear init (blkBase b + o)) s = .next (emitOut (.barData 1 0) s) := by
  obtain ⟨-, hbase, -⟩ := blkBase_aligned b hb
  refine (act_up _ hup).trans (congrArg _ ?_)
  rw [regReadEff, hinit, if_neg (by simp; omega), blkOf_blkBase_add hb ho]
  simp only [hblk, h, Bool.not_true, Bool.false_eq_true, if_false, and_self, if_true]

theorem regReadClear_runs (h : init ≠ 0x5B ∨ (b ≠ 14 ∧ b ≠ 16))
    (hrun : stationRuns s (regStation (blkBase b + o)) = true) :
    exec (.regReadClear init (blkBase b + o)) s =
      .next (emitOut (.barData 0 (readRegEff b o s).1) (readRegEff b o s).2) := by
  obtain ⟨-, hbase, -⟩ := blkBase_aligned b hb
  refine (act_up _ hup).trans (congrArg _ ?_)
  rw [regReadEff, hinit, if_neg (by simp; omega), blkOf_blkBase_add hb ho]
  have hseen : ¬ (init = 0x5B ∧ (b = 14 ∨ b = 16)) := by omega
  simp only [hblk, hrun, hseen, blkBase_add_mod hb ho, Bool.not_true, Bool.false_eq_true, if_false]

theorem regReadClear_asks (h : init ≠ 0x5B ∨ (b ≠ 14 ∧ b ≠ 16))
    (hrun : stationRuns s (regStation (blkBase b + o)) = false) :
    exec (.regReadClear init (blkBase b + o)) s = .next (askReg init 0x40 (blkBase b + o) [4] .bar s) := by
  obtain ⟨-, hbase, -⟩ := blkBase_aligned b hb
  refine (act_up _ hup).trans (congrArg _ ?_)
  rw [regReadEff, hinit, if_neg (by simp; omega), blkOf_blkBase_add hb ho]
  have hseen : ¬ (init = 0x5B ∧ (b = 14 ∨ b = 16)) := by omega
  simp only [hblk, hrun, hseen, Bool.not_true, Bool.not_false, Bool.false_eq_true, if_false, if_true]

end

/-- Settles O52: every register with an effect of its own is a row of the index, so none stands at an undefined offset. -/
theorem undefinedOffsets : Obligations.UndefinedOffsets := by
  intro s b o hb ho h
  have hread := readRegEff_undefined s h
  refine ⟨hread, fun init agent v => writeReg_undefined v s hb h init agent,
    fun hup hblk hrun init hinit => ⟨fun v => ?_, fun hi => ?_⟩,
    fun hup hblk hrun init hinit => ⟨fun v => regWrite_asks hup hb ho hblk hinit v hrun,
      fun hi => regReadClear_asks hup hb ho hblk hinit hi hrun⟩⟩
  · rw [regWrite_runs hup hb ho hblk hinit v hrun, writeReg_undefined _ s hb h, ite_self]
  · rw [regReadClear_runs hup hb ho hblk hinit hi hrun, hread]

end Sys2Proof.Machine
end

section
/-! PROOF. Register accesses of the host, and REGRD and REGWR at their target. -/

namespace Sys2Proof.Machine

open Sys2Proof Sys2Proof.Claims

theorem regWrite_nowhere {s : State} {init off : Nat} (v : Nat) (hup : s.up 3 = true)
    (h : regInit init = false ∨ 0x1000000 ≤ off) : exec (.regWrite init off v) s = .next s := by
  refine (act_up _ hup).trans (congrArg _ ?_)
  rw [regWriteEff, if_pos (by simpa using h)]

theorem regReadClear_nowhere {s : State} {init off : Nat} (hup : s.up 3 = true)
    (h : regInit init = false ∨ 0x1000000 ≤ off) : exec (.regReadClear init off) s = .next s := by
  refine (act_up _ hup).trans (congrArg _ ?_)
  rw [regReadEff, if_pos (by simpa using h)]

theorem debugOk_iff (s : State) (init off v : Nat) :
    debugOk s init off v = true ↔ (init = 0x5D → mayAccess s (some v) off = true) := by
  simp only [debugOk, Bool.or_eq_true, bne_iff_ne, ne_eq, Decidable.imp_iff_not_or]

/-- The blocks whose registers have no effect of their own but COMMIT and the fault group. -/
theorem writeReg_plain {b o : Nat} (hb : b ∈ [2, 3, 10, 11, 12]) (h4 : o % 4 = 0) (hf : o < 0xF000) (hc : o ≠ 0xF0)
    (init agent v : Nat) (s : State) : writeReg init agent b o v s = plainWrite b o v s := by
  unfold writeReg
  rw [if_neg (by omega), if_neg (by omega), if_neg (by omega)]
  simp only [List.mem_cons, List.not_mem_nil, or_false] at hb
  rcases hb with rfl | rfl | rfl | rfl | rfl <;> rfl

theorem readRegEff_defined {b o : Nat} {r : RegD} {ix : List Nat} (s : State) (h : findReg b o = some (r, ix))
    (hph : b = 3 → o < 0x100) : readRegEff b o s = (readReg s b o, clearRc s b o ix r.fields) := by
  have : ¬ (b = 3 ∧ 0x100 ≤ o ∧ o < 0x500 ∧ o % 64 = 0x20) := by omega
  simp only [readRegEff, h, if_neg this]

/-- A packet that arrives is taken from its buffer and acts; a response would be counted (R224, R226, R241). -/
theorem deliverEff_arrives {s : State} {d : Deliver} {p : Packet} {cmd : Nat} (cmds : List Nat)
    (f : Packet → State → Option State) (h : arrives (rest s) d p cmd = true) (hcmd : cmds.contains cmd = true)
    (hvn : cmdVn cmd ≠ some vnRsp) :
    deliverEff d cmds f s = (f p (taken (rest s) d)).getD (rest s) := by
  simp only [arrives, Bool.and_eq_true, decide_eq_true_eq, beq_iff_eq, Bool.not_eq_true'] at h
  obtain ⟨⟨⟨⟨⟨⟨hp, harr⟩, hhdr⟩, rfl⟩, hv⟩, hpark⟩, hrun⟩ := h
  have hne : p.vn ≠ vnRsp := fun e => hvn (e ▸ hv)
  have harrive : arrive d (rest s) = .deliver p (taken (rest s) d) := by
    simp [arrive, hp, harr, hhdr, hv, hpark, hrun, taken]
  simp only [deliverEff, deliverAt, harrive, hcmd, if_true]
  simp [hne]

section
variable {s : State} {d : Deliver} {p : Packet} {x : State} (hup : s.up 3 = true)
include hup

theorem regrd_answers (h : arrives (rest s) d p 0x40 = true) (hx : regrdAt d p (taken (rest s) d) = some x) :
    exec (.regrd d) s = .next x := by
  refine (act_up _ hup).trans (congrArg _ ?_)
  rw [regrdEff, deliverEff_arrives [0x40] _ h (by decide) (by decide), hx, Option.getD_some]

theorem regwr_answers (h : arrives (rest s) d p 0x41 = true) (hx : regwrAt d p (taken (rest s) d) = some x) :
    exec (.regwr d) s = .next x := by
  refine (act_up _ hup).trans (congrArg _ ?_)
  rw [regwrEff, deliverEff_arrives [0x41] _ h (by decide) (by decide), hx, Option.getD_some]

end

/-! ### REGRD and REGWR by the region of their address (R454, R456) -/

/-- The memory of the core island (R454). -/
def inIsland (a : Nat) : Prop := (0x08000000 ≤ a ∧ a < 0x082C0000) ∨ (0x0D000000 ≤ a ∧ a < 0x0D040000)

/-- No region holds an address beyond the persistent store. -/
theorem viewOf_beyond {a : Nat} (h : 0x204000000 ≤ a) : viewOf (a / 8 * 8) = none := by
  unfold viewOf scrBase
  split
  · rfl
  · simp only
    repeat rw [if_neg (by omega)]

section
variable {d : Deliver} {p : Packet} (t : State)

theorem regrdAt_register {b : Nat} (ha : p.mgtAddr < 0x1000000) (hblk : blkOf p.mgtAddr = some b) (hup : blkUp t b = true)
    (hseen : p.init = 0x5B → b ≠ 14 ∧ b ≠ 16) : regrdAt d p t =
      let q := readRegs (p.mgtAddr / 4 * 4) ((p.mgtAddr % 4 + p.asked + 3) / 4) t
      some (mgtData p (bits q.1 (8 * (p.mgtAddr % 4)) (8 * p.asked)) q.2) := by
  have : ¬ (p.init = 0x5B ∧ (b = 14 ∨ b = 16)) := by omega
  simp only [regrdAt, if_pos ha, hblk, hup, this, Bool.not_true, Bool.false_eq_true, if_false]

theorem regrdAt_hidden {b : Nat} (ha : p.mgtAddr < 0x1000000) (hblk : blkOf p.mgtAddr = some b) (hup : blkUp t b = true)
    (hi : p.init = 0x5B) (hb : b = 14 ∨ b = 16) : regrdAt d p t = some (mgtAck p stREFUSED t) := by
  simp only [regrdAt, if_pos ha, hblk, hup, hi, hb, and_self, Bool.not_true, Bool.false_eq_true, if_false, if_true]

theorem regrdAt_island (ha : inIsland p.mgtAddr) :
    regrdAt d p t = some (mgtMem p p.mgtAddr p.asked d.mem (supMemErr 3 p.mgtAddr) (supMemErr 4 p.mgtAddr) t) := by
  have hreg : ¬ p.mgtAddr < 0x1000000 := by unfold inIsland at ha; omega
  unfold inIsland at ha
  simp only [regrdAt, if_neg hreg, if_pos ha]

theorem regrdAt_beyond (ha : 0x204000000 ≤ p.mgtAddr) : regrdAt d p t = some (mgtAck p stNOTARGET t) := by
  unfold regrdAt
  simp only [viewOf_beyond ha]
  repeat rw [if_neg (by omega)]

theorem regwrAt_register {b : Nat} (hd : d.data ≠ .uncorrectable) (ha : p.mgtAddr < 0x1000000)
    (hblk : blkOf p.mgtAddr = some b) (hup : blkUp t b = true) : regwrAt d p t =
      if regsAccepted t p.init (p.units.headD 0) p.mgtAddr then some (mgtAck p stOK (writeRegs p.init p.agent (p.units.headD 0)
        p.mgtAddr (p.mgtAddr / 4 * 4) ((p.mgtAddr % 4 + 11) / 4) t))
      else some (mgtAck p stREFUSED t) := by
  simp only [regwrAt, if_pos ha, hblk, hup, hd, Bool.not_true, Bool.false_eq_true, if_false]
  cases regsAccepted t p.init (p.units.headD 0) p.mgtAddr <;> rfl

theorem regwrAt_island (hd : d.data ≠ .uncorrectable) (ha : inIsland p.mgtAddr) :
    regwrAt d p t = some (mgtAck p stOK (memUnit (p.units.headD 0) p.mgtAddr t)) := by
  have hreg : ¬ p.mgtAddr < 0x1000000 := by unfold inIsland at ha; omega
  unfold inIsland at ha
  simp only [regwrAt, if_neg hreg, if_neg hd, if_pos ha]

theorem regwrAt_rom (hd : d.data ≠ .uncorrectable) (ha : 0x0E000000 ≤ p.mgtAddr) (ha' : p.mgtAddr < 0x0E010000) :
    regwrAt d p t = some (mgtAck p stREFUSED t) := by
  unfold regwrAt
  rw [if_neg (by omega), if_neg hd, if_neg (by omega), if_pos ⟨ha, ha'⟩]

theorem regwrAt_beyond (hd : d.data ≠ .uncorrectable) (ha : 0x204000000 ≤ p.mgtAddr) :
    regwrAt d p t = some (mgtAck p stNOTARGET t) := by
  unfold regwrAt
  simp only [viewOf_beyond ha]
  rw [if_neg (by omega), if_neg hd, if_neg (by omega), if_neg (by omega), if_neg (by omega)]

end

/-- Settles O54: the host's accesses by the block's registers, and the management requests by the region of their address. -/
theorem registerAccesses : Obligations.RegisterAccesses := by
  intro s hup
  refine ⟨fun init off v h => ⟨regWrite_nowhere v hup h, regReadClear_nowhere hup h⟩, ?_, ?_⟩
  · intro init b o v hb ho hblk hrun hinit off ok
    have ho' : o < 0x10000 := by omega
    have hok : (writeAccepted s init off && debugOk s init off v) = true ↔ ok := by
      rw [Bool.and_eq_true, debugOk_iff]
    have hw := regWrite_runs hup hb ho' hblk hinit v hrun
    refine ⟨fun hn => ?_, fun hy hplain h4 hc => ?_, fun r ix hr hph hi => ?_, fun hi hsec => ?_⟩
    · rw [hw, if_neg (fun h => hn (hok.1 h))]
    · rw [hw, if_pos (hok.2 hy), writeReg_plain hplain h4 ho hc]; rfl
    · rw [regReadClear_runs hup hb ho' hblk hinit hi hrun, readRegEff_defined s hr hph]
    · exact regReadClear_hidden hup hb ho' hblk hinit ⟨hi, hsec⟩
  · intro d p u t a n w island done
    refine ⟨fun h => ⟨fun b ha hb hbu hs => ?_, fun b ha hb hbu hi hs => ?_, fun hi hm => ?_, fun hi hm => ?_⟩,
      fun h hd => ⟨fun b ha hb hbu => ?_, fun hi => ?_, fun hl hr => ?_⟩, fun ha => ⟨fun h => ?_, fun h hd => ?_⟩⟩
    · exact regrd_answers hup h (regrdAt_register t ha hb hbu hs)
    · exact regrd_answers hup h (regrdAt_hidden t ha hb hbu hi hs)
    · refine regrd_answers hup h ((regrdAt_island t hi).trans ?_)
      rw [hm]; rfl
    · refine regrd_answers hup h ((regrdAt_island t hi).trans ?_)
      rw [hm]; rfl
    · have hw := regwrAt_register t hd ha hb hbu
      refine ⟨fun hacc => regwr_answers hup h (hw.trans ?_), fun hacc => regwr_answers hup h (hw.trans ?_)⟩
      · rw [if_neg (ne_true_of_eq_false hacc)]; rfl
      · rw [if_pos hacc]; rfl
    · exact regwr_answers hup h (regwrAt_island t hd hi)
    · exact regwr_answers hup h (regwrAt_rom t hd hl hr)
    · exact regrd_answers hup h (regrdAt_beyond t ha)
    · exact regwr_answers hup h (regwrAt_beyond t hd ha)

end Sys2Proof.Machine
end

section
/-! PROOF. What a commit of a block puts in force, and the COMMIT of each block. -/

namespace Sys2Proof.Machine

open Sys2Proof Sys2Proof.Claims

/-! ### Shadows taking effect (R12) -/

theorem mget_filter {α : Type} (d : α) (p : Nat → Bool) (m : FMap α) (k : Nat) :
    mget d (m.filter fun e => p e.1) k = if p k then mget d m k else d := by
  induction m with
  | nil => simp [mget]
  | cons e m ih =>
    obtain ⟨a, v⟩ := e
    by_cases hk : a = k
    · subst hk
      cases hp : p a <;> simp [hp, mget, ih]
    · cases hp : p a <;> simp [hp, mget, ih, hk]

theorem mget_unlisted {α : Type} (d : α) {m : FMap α} {k : Nat} (h : ∀ e ∈ m, k < e.1) : mget d m k = d := by
  induction m with
  | nil => rfl
  | cons e m ih =>
    have hlt := h e List.mem_cons_self
    rw [show e = (e.1, e.2) from rfl, mget, if_neg (by omega)]
    exact ih fun x hx => h x (List.mem_cons_of_mem _ hx)

theorem applyShadow_cons (s : State) (b k v : Nat) (m : FMap Nat) : applyShadow s b ((k, v) :: m) =
    applyShadow (if inBlk b k then { s with regs := mset (rstOfKey b k) s.regs k v } else s) b m := rfl

/-- Only the fields in force change. -/
theorem applyShadow_frame (b : Nat) (m : FMap Nat) (s : State) : let t := applyShadow s b m
    t.shadow = s.shadow ∧ t.mem = s.mem ∧ t.ctxs = s.ctxs ∧ t.pes = s.pes ∧ t.sessions = s.sessions
    ∧ t.chans = s.chans := by
  induction m generalizing s with
  | nil => exact ⟨rfl, rfl, rfl, rfl, rfl, rfl⟩
  | cons e m ih =>
    rw [show e = (e.1, e.2) from rfl, applyShadow_cons]
    split
    · exact ih { s with regs := _ }
    · exact ih s

theorem mget_applyShadow_other (d b k : Nat) (m : FMap Nat) (s : State) (h : inBlk b k = false) :
    mget d (applyShadow s b m).regs k = mget d s.regs k := by
  induction m generalizing s with
  | nil => rfl
  | cons e m ih =>
    rw [show e = (e.1, e.2) from rfl, applyShadow_cons, ih]
    split
    · rename_i hb
      have hne : e.1 ≠ k := by rintro rfl; simp [hb] at h
      simp only [mget_mset_default, if_neg hne]
    · rfl

/-- A field whose reset value the index gives holds its shadow's value where one is listed. -/
theorem mget_applyShadow {b k : Nat} (hk : inBlk b k = true) {m : FMap Nat} (hm : m.Pairwise fun e f => e.1 < f.1)
    (s : State) : mget (rstOfKey b k) (applyShadow s b m).regs k = mget (mget (rstOfKey b k) s.regs k) m k := by
  induction m generalizing s with
  | nil => rfl
  | cons e m ih =>
    obtain ⟨a, v⟩ := e
    rw [List.pairwise_cons] at hm
    rw [applyShadow_cons, ih hm.2, mget]
    by_cases ha : a = k
    · subst ha
      rw [if_pos hk, if_pos rfl, mget_mset_same]
      exact mget_unlisted v hm.1
    · rw [if_neg ha]
      split
      · rw [mget_mset_default, if_neg ha]
      · rfl

theorem commitOk_frame (s : State) (b : Nat) : let t := commitOk s b
    t.mem = s.mem ∧ t.ctxs = s.ctxs ∧ t.pes = s.pes ∧ t.sessions = s.sessions ∧ t.chans = s.chans := by
  obtain ⟨-, h⟩ := applyShadow_frame b s.shadow s
  unfold commitOk; dsimp only
  split <;> exact h

theorem commitOk_regs (s : State) (b : Nat) : (commitOk s b).regs = (applyShadow s b s.shadow).regs := by
  unfold commitOk; dsimp only; split <;> rfl

theorem commitOk_shadow (s : State) (b : Nat) : (commitOk s b).shadow = s.shadow.filter fun e => !inBlk b e.1 := by
  have h := (applyShadow_frame b s.shadow s).1
  unfold commitOk dropShadow; dsimp only; rw [h]; split <;> rfl

theorem commitOk_locks (s : State) (b : Nat) : (commitOk s b).locked.contains b = true := by
  unfold commitOk; dsimp only
  split
  · assumption
  · simp

theorem rd_commitOk_other {s : State} {b : Nat} {f : Fld} (h : inBlk b f.key = false) : rd (commitOk s b) f = rd s f := by
  unfold rd; rw [commitOk_regs, mget_applyShadow_other _ _ _ _ _ h]

/-- Among fields at different bits a field is found by its lowest bit. -/
theorem find?_lo_of_nodup {l : List FieldD} (hnd : (l.map (·.lo)).Nodup) {fd : FieldD} (hfd : fd ∈ l) :
    l.find? (fun x => x.lo == fd.lo) = some fd := by
  induction l with
  | nil => cases hfd
  | cons x l ih =>
    rw [List.map_cons, List.nodup_cons] at hnd
    rcases List.mem_cons.1 hfd with rfl | hl
    · exact List.find?_cons_of_pos (beq_self_eq_true fd.lo)
    · have hne : x.lo ≠ fd.lo := fun he => hnd.1 (he ▸ List.mem_map_of_mem hl)
      rw [List.find?_cons_of_neg (by simpa using hne), ih hnd.2 hl]

section
variable {b o : Nat} (hb : b < 34) {r : RegD} {ix : List Nat} (h : findReg b o = some (r, ix))
  {fd : FieldD} (hfd : fd ∈ r.fields)
include hb h hfd

theorem inBlk_fldAt : inBlk b (fldAt b o ix fd).key = true := by
  obtain ⟨hpl, ho⟩ := findReg_placed hb h
  have := hpl.lo_lt fd hfd
  rw [inBlk, Bool.and_eq_true, decide_eq_true_eq, decide_eq_true_eq, fldAt_key, fkey]
  omega

/-- The index finds a field's reset value by its place. -/
theorem rstOfKey_fldAt : rstOfKey b (fldAt b o ix fd).key = (fldAt b o ix fd).rst := by
  obtain ⟨hpl, ho⟩ := findReg_placed hb h
  have hlt := hpl.lo_lt fd hfd
  have hoff : (fldAt b o ix fd).key / 32 - blkBase b = o := by simp only [fldAt_key, fkey]; omega
  have hlo : (fldAt b o ix fd).key % 32 = fd.lo := by simp only [fldAt_key, fkey]; omega
  have hfind := find?_lo_of_nodup hpl.lo_nodup hfd
  unfold rstOfKey
  simp only [hoff, hlo, h, hfind]
  rfl

/-- A commit puts a field's shadow in force, and its shadow is the value in force again. -/
theorem commitOk_field {s : State} (hs : keysRise s.shadow = true) : let f := fldAt b o ix fd
    rd (commitOk s b) f = rdSh s f ∧ rdSh (commitOk s b) f = rdSh s f := by
  intro f
  have hin : inBlk b f.key = true := inBlk_fldAt hb h hfd
  have hrd : rd (commitOk s b) f = rdSh s f := by
    have := mget_applyShadow hin ((keysRise_iff _).1 hs) s
    rw [rstOfKey_fldAt hb h hfd] at this
    rw [rd, commitOk_regs, this]; rfl
  refine ⟨hrd, ?_⟩
  rw [rdSh, hrd, commitOk_shadow, mget_filter _ (fun k => !inBlk b k)]
  simp [hin]

end

/-! ### GEN_COMMIT -/

/-- Acts that leave each other's conditions alone: each looks at the state before all of them. -/
theorem forAll_if_eq_filter {α : Type} (c : α → State → Prop) [∀ a s, Decidable (c a s)] (f : α → State → State)
    {l : List α} (hnd : l.Nodup) (hc : ∀ a ∈ l, ∀ b ∈ l, a ≠ b → ∀ u, c b (f a u) ↔ c b u) (s : State) :
    forAll l (fun a s => if c a s then f a s else s) s = forAll (l.filter fun a => decide (c a s)) f s := by
  induction l generalizing s with
  | nil => rfl
  | cons a l ih =>
    rw [List.nodup_cons] at hnd
    have ih := ih hnd.2 fun x hx y hy => hc x (List.mem_cons_of_mem _ hx) y (List.mem_cons_of_mem _ hy)
    show forAll l _ (if c a s then f a s else s) = _
    rw [ih]
    by_cases ha : c a s
    · rw [if_pos ha, List.filter_cons_of_pos (by simpa using ha)]
      have hkeep : l.filter (fun b => decide (c b (f a s))) = l.filter fun b => decide (c b s) :=
        List.filter_congr fun b hb => decide_eq_decide.2
          (hc a List.mem_cons_self b (List.mem_cons_of_mem _ hb) (fun e => hnd.1 (e ▸ hb)) s)
      rw [hkeep]; rfl
    · rw [if_neg ha, List.filter_cons_of_neg (by simpa using ha)]

/-- A span port that is enabled and down (R248). -/
def spanIdle (p : Nat) (s : State) : Prop := rd s (F.spnPortcfgEn p) = 1 ∧ rd s (F.spnPortstatState p) = 0

theorem spanIdle_setSpanState {p q : Nat} (h : q ≠ p) (v : Nat) (s : State) :
    spanIdle p (setSpanState q v s) ↔ spanIdle p s := by
  have hen : (F.spnPortstatState q).key ≠ (F.spnPortcfgEn p).key := by
    simp only [Fld.key, fkey, F.spnPortstatState, F.spnPortcfgEn]; omega
  have hst : (F.spnPortstatState q).key ≠ (F.spnPortstatState p).key := by
    simp only [Fld.key, fkey, F.spnPortstatState]; omega
  unfold spanIdle setSpanState
  rw [rd_put_other _ _ _ _ hen, rd_put_other _ _ _ _ hst]

theorem spanIdle_commitOk {p : Nat} (s : State) : spanIdle p (commitOk s 0) ↔ spanIdle p s := by
  have hb0 : blkBase 0 = 0 := rfl
  have hb13 : blkBase 13 = 0xF0000 := rfl
  have hen : inBlk 0 (F.spnPortcfgEn p).key = false := by
    simp [inBlk, Fld.key, fkey, F.spnPortcfgEn, hb0, hb13]; omega
  have hst : inBlk 0 (F.spnPortstatState p).key = false := by
    simp [inBlk, Fld.key, fkey, F.spnPortstatState, hb0, hb13]; omega
  unfold spanIdle
  rw [rd_commitOk_other hen, rd_commitOk_other hst]

/-- GEN_COMMIT trains the ports that were idle before it. -/
theorem genCommitEff_eq (s : State) : genCommitEff s = forAll ((List.range 4).filter fun p =>
      decide (rd s (F.spnPortcfgEn p) = 1 ∧ rd s (F.spnPortstatState p) = 0))
    (fun p u => put u (F.spnPortstatState p) 1) (commitOk s 0) := by
  have h := forAll_if_eq_filter
    (fun p u => rd u (F.spnPortcfgEn p) = 1 ∧ rd u (F.spnPortstatState p) = 0) (fun p u => setSpanState p 1 u)
    (List.nodup_range (n := 4)) (fun a _ b _ hab u => spanIdle_setSpanState hab 1 u) (commitOk s 0)
  refine h.trans ?_
  have hsame : (fun p => decide (rd (commitOk s 0) (F.spnPortcfgEn p) = 1 ∧ rd (commitOk s 0) (F.spnPortstatState p) = 0))
      = fun p => decide (rd s (F.spnPortcfgEn p) = 1 ∧ rd s (F.spnPortstatState p) = 0) :=
    funext fun p => decide_eq_decide.2 (spanIdle_commitOk s)
  rw [hsame]; rfl

/-! ### The queues of drive channels after DRV_COMMIT (R201) -/

theorem chan_setChan (s : State) (c k : Nat) (x : Chan) : (s.setChan c x).chan k = if c = k then x else s.chan k :=
  mget_mset _ _ _ _ _

theorem shrinkQ_chan (s : State) (c k : Nat) :
    ((shrinkQ c s).chan k).q = if c = k then (s.chan k).q.take (chCap s k) else (s.chan k).q := by
  unfold shrinkQ
  dsimp only
  split
  · rename_i hle
    split
    · rename_i hk; subst hk; exact (List.take_of_length_le hle).symm
    · rfl
  · show ((s.setChan c _).chan k).q = _
    rw [chan_setChan]
    split
    · rename_i hk; subst hk; rfl
    · rfl

theorem shrinkQ_chCap (s : State) (c k : Nat) : chCap (shrinkQ c s) k = chCap s k := by
  have hd : (F.drvChstatDiscards c).key ≠ (F.drvChcfgQunits k).key := by
    simp only [Fld.key, fkey, F.drvChstatDiscards, F.drvChcfgQunits]; omega
  have hq : (F.drvChstatQdepth c).key ≠ (F.drvChcfgQunits k).key := by
    simp only [Fld.key, fkey, F.drvChstatQdepth, F.drvChcfgQunits]; omega
  unfold shrinkQ
  dsimp only
  split
  · rfl
  · unfold chCap putSat setChQ
    rw [rd_put_other _ _ _ _ hd, rd_put_other _ _ _ _ hq]; rfl

/-- Each channel of a list keeps what its queue holds now. -/
theorem forAll_shrinkQ (l : List Nat) (hnd : l.Nodup) (s : State) (k : Nat) :
    ((forAll l shrinkQ s).chan k).q = (if k ∈ l then (s.chan k).q.take (chCap s k) else (s.chan k).q)
      ∧ chCap (forAll l shrinkQ s) k = chCap s k := by
  induction l generalizing s with
  | nil => exact ⟨rfl, rfl⟩
  | cons c l ih =>
    rw [List.nodup_cons] at hnd
    obtain ⟨hq, hcap⟩ := ih hnd.2 (shrinkQ c s)
    rw [shrinkQ_chCap s c k] at hq hcap
    refine ⟨hq.trans ?_, hcap⟩
    rw [shrinkQ_chan]
    by_cases hc : c = k
    · subst hc; rw [if_neg hnd.1, if_pos rfl, if_pos List.mem_cons_self]
    · simp [hc, Ne.symm hc]

theorem releaseGroups_chan (s : State) (k : Nat) : (releaseGroups s).chan k = s.chan k := rfl

theorem releaseGroups_chCap (s : State) (k : Nat) : chCap (releaseGroups s) k = chCap s k := by
  have h : F.drvEnableAsserted.key ≠ (F.drvChcfgQunits k).key := by
    simp only [Fld.key, fkey, F.drvEnableAsserted, F.drvChcfgQunits]; omega
  show rd (put s F.drvEnableAsserted _) (F.drvChcfgQunits k) * 128 = _
  rw [rd_put_other _ _ _ _ h]; rfl

/-- Schedules that start afresh touch no channel. -/
theorem forAll_schedFresh_chans (l : List Nat) (s : State) : (forAll l (fun n u =>
    { u with schedU := mset 0 u.schedU n 0, schedAt := mset 0 u.schedAt n 0 }) s).chans = s.chans := by
  induction l generalizing s with
  | nil => rfl
  | cons n l ih => exact ih _

/-! ### The COMMIT of each block -/

theorem rdB_eq_decide (s : State) (f : Fld) : rdB s f = decide (rd s f = 1) := rfl

theorem rdShB_eq_decide (s : State) (f : Fld) : rdShB s f = decide (rdSh s f = 1) := rfl

theorem shChanges_eq_decide (s : State) (f : Fld) : shChanges s f = decide (rdSh s f ≠ rd s f) := by
  rw [shChanges, decide_not]; rfl

section
variable {s : State}

theorem phCommitEff_refused (h : (List.range 16).all (phAgrees s) = false) : phCommitEff s = cfgErr 3 (dropShadow s 3) := by
  rw [phCommitEff, if_neg (ne_true_of_eq_false h)]

theorem phCommitEff_applied (h : (List.range 16).all (phAgrees s) = true) : phCommitEff s =
    let rs := (List.range 16).filter (restarts s)
    let u := withStates (fun u => forAll rs restartSrc (commitOk u 3)) s
    forAll ((List.range 16).filter fun m => rs.any fun n => follows u n 17 m) (fun m v => drvStall m (stallPolicy m v)) u := by
  rw [phCommitEff, if_pos h]

theorem cnvCommitEff_refused (h : cnvAgrees s = false) : cnvCommitEff s = cfgErr 4 (dropShadow s 4) := by
  rw [cnvCommitEff, if_neg (ne_true_of_eq_false h)]

/-- The state of the converter complex once its shadows are in force: the PLL unlocks when PLLMUL changes, and switched ports
start anew. -/
theorem cnvCommitEff_applied (h : cnvAgrees s = true) : cnvCommitEff s =
    let on := (List.range 64).filter fun r => decide (rd s (F.cnvCapcfgEn r) = 1)
    let u := commitOk (forAll ((List.range 32).filter (portRetimed s)) endFraming s) 4
    let v := if rdSh s F.cnvPllcfgPllmul = rd s F.cnvPllcfgPllmul then u else put u F.cnvPllcfgLock 0
    let w := forAll ((List.range 32).filter fun n => decide (rdSh s (F.cnvPortcfgEn n) ≠ rd s (F.cnvPortcfgEn n)))
      (fun n u => put ((clearSent n u).setPort n .init) (F.cnvPortstatSync n) 0) v
    syncLive (forAll (List.range 64) (ringCommit on) w) := by
  rw [cnvCommitEff, if_pos h]
  simp only [shChanges_eq_decide, decide_eq_true_eq, ite_not]
  rfl

theorem drvCommitEff_refused (h : drvAgrees s = false) : drvCommitEff s = cfgErr 5 (dropShadow s 5) := by
  rw [drvCommitEff, if_neg (ne_true_of_eq_false h)]

/-- A schedule is new that a commit enables, or whose MODE it changes. -/
theorem drvCommitEff_applied (h : drvAgrees s = true) : drvCommitEff s =
    let fresh (n : Nat) : Bool := decide (rdSh s (F.drvSchedcfgEn n) = 1
      ∧ (rd s (F.drvSchedcfgEn n) ≠ 1 ∨ rdSh s (F.drvSchedcfgMode n) ≠ rd s (F.drvSchedcfgMode n)))
    releaseGroups (forAll (List.range 256) shrinkQ (forAll ((List.range 16).filter fresh) (fun n u =>
      { u with schedU := mset 0 u.schedU n 0, schedAt := mset 0 u.schedAt n 0 }) (commitOk s 5))) := by
  have hfresh : (fun n => rdShB s (F.drvSchedcfgEn n)
        && (shChanges s (F.drvSchedcfgEn n) || shChanges s (F.drvSchedcfgMode n)))
      = fun n => decide (rdSh s (F.drvSchedcfgEn n) = 1
        ∧ (rd s (F.drvSchedcfgEn n) ≠ 1 ∨ rdSh s (F.drvSchedcfgMode n) ≠ rd s (F.drvSchedcfgMode n))) := by
    funext n
    rw [rdShB_eq_decide, shChanges_eq_decide, shChanges_eq_decide, ← Bool.decide_or, ← Bool.decide_and]
    refine decide_eq_decide.2 (and_congr_right fun hen => ?_)
    rw [hen, ne_comm]
  rw [drvCommitEff, if_pos h, hfresh]

theorem drvCommitEff_queues (h : drvAgrees s = true) {c : Nat} (hc : c < 256) : let t := drvCommitEff s
    (t.chan c).q = (s.chan c).q.take (rd t (F.drvChcfgQunits c) * 128) := by
  intro t
  have hchans (l : List Nat) : (forAll l (fun n u =>
      { u with schedU := mset 0 u.schedU n 0, schedAt := mset 0 u.schedAt n 0 }) (commitOk s 5)).chan c = s.chan c := by
    obtain ⟨-, -, -, -, hchans⟩ := commitOk_frame s 5
    unfold State.chan
    rw [forAll_schedFresh_chans, hchans]
  have ht : t = drvCommitEff s := rfl
  rw [drvCommitEff_applied h] at ht
  show (t.chan c).q = (s.chan c).q.take (chCap t c)
  rw [ht, releaseGroups_chan, releaseGroups_chCap]
  obtain ⟨hq, hcap⟩ := forAll_shrinkQ (List.range 256) List.nodup_range _ c
  rw [hq, hcap, if_pos (List.mem_range.2 hc), hchans]

theorem hifCommitEff_refused (h : hifRefused s = true) : hifCommitEff s = cfgErr 10 (dropShadow s 10) := by
  rw [hifCommitEff, if_pos h]

/-- Session 0 as HIF_COMMIT starts it from the admin registers (R377). -/
def admSess (u : State) : Sess :=
  { Sess.init with
    st := .active, sqBase := rd u F.hifAdmsqloAddr + rd u F.hifAdmsqhiAddr * 2 ^ 32,
    cqBase := rd u F.hifAdmcqloAddr + rd u F.hifAdmcqhiAddr * 2 ^ 32, sqLog := rd u F.hifAdmcfgSqlog,
    cqLog := rd u F.hifAdmcfgCqlog, vec := rd u F.hifAdmcfgVec, rot := 15 }

/-- An agreed HIF_COMMIT goes by ADMCFG.EN before it and after it. -/
theorem hifCommitEff_applied (h : hifRefused s = false) : hifCommitEff s =
    let u := commitOk s 10
    if rd u F.hifAdmcfgEn = 1 ∧ rd s F.hifAdmcfgEn ≠ 1 then put (u.setSess 0 (admSess u)) F.hifStatusAdmen 1
    else if rd u F.hifAdmcfgEn ≠ 1 ∧ rd s F.hifAdmcfgEn = 1 then put (u.setSess 0 .init) F.hifStatusAdmen 0
    else u.setSess 0 { u.sess 0 with vec := rd u F.hifAdmcfgVec } := by
  rw [hifCommitEff, if_neg (ne_true_of_eq_false h)]
  simp only [rdB_eq_decide, Bool.and_eq_true, Bool.not_eq_true', decide_eq_true_eq, decide_eq_false_iff_not]
  rfl

theorem logCommitEff_eq : logCommitEff s =
    if rd s F.logStateState = 2 ∨ rd s F.logStateState = 3 ∨ eventRingTwice s = true ∨ eventDecimates s = true
    then cfgErr 12 (dropShadow s 12) else commitOk s 12 := rfl

theorem spnCommitEff_eq : spnCommitEff s =
    if (List.range 4096).all (routeAgrees s) then commitOk s 13 else cfgErr 13 (dropShadow s 13) := rfl

theorem clCommitEff_eq {cl : Nat} (hcl : cl < 16) : clCommitEff cl s =
    if clRefused s cl then cfgErr (17 + cl) (dropShadow s (17 + cl)) else
      let u := forAll (List.range 8) (fun w => drainWin cl w (nearWin rd s cl w)) (commitOk s (17 + cl))
      let v := newFarRegion cl (farRegion rd s cl) (clearDirectory cl (nearWin rd s cl 0) u)
      if oppoint v cl = oppoint s cl then v else startOppoint cl v := by
  rw [clCommitEff, if_neg (by omega)]

end

/-- Settles O27: what a commit puts in force is read off the index; each COMMIT goes by whether its block agrees. -/
theorem commitsAreWhole : Obligations.CommitsAreWhole := by
  intro s
  refine ⟨fun _ hsh b hb => ?_, fun hup => ⟨?_, fun h => ?_, fun h => ?_, fun h => ?_, fun h => ?_, fun h => ?_, fun h => ?_,
    fun h => ?_, fun h => ?_, ?_, fun h => ?_, fun h => ?_⟩, fun hup cl hcl => ⟨fun h => ?_, fun h => ?_⟩⟩
  · obtain ⟨hmem, hctx, hpe, hsess, -⟩ := commitOk_frame s b
    exact ⟨fun o _ r ix hr fd hfd => commitOk_field hb hr hfd hsh, commitOk_locks s b, hmem, hctx, hpe, hsess⟩
  · exact (act_up _ hup).trans (congrArg _ (genCommitEff_eq s))
  · exact (act_up _ hup).trans (congrArg _ (phCommitEff_refused h))
  · exact (act_up _ hup).trans (congrArg _ (phCommitEff_applied h))
  · exact (act_up _ hup).trans (congrArg _ (cnvCommitEff_refused h))
  · exact (act_up _ hup).trans (congrArg _ (cnvCommitEff_applied h))
  · exact (act_up _ hup).trans (congrArg _ (drvCommitEff_refused h))
  · have happ := drvCommitEff_applied h
    exact ⟨(act_up _ hup).trans (congrArg _ happ), fun c hc => happ ▸ drvCommitEff_queues h hc⟩
  · exact (act_up _ hup).trans (congrArg _ (hifCommitEff_refused h))
  · have hc := (act_up hifCommitEff hup).trans (congrArg _ (hifCommitEff_applied h))
    intro u en was sq cq adm
    refine ⟨fun he hw => next_pos hc ⟨he, hw⟩, fun he hw => ?_, fun hiff => ?_⟩
    · exact next_pos (next_neg hc fun h => he h.1) ⟨he, hw⟩
    · exact next_neg (next_neg hc fun h => h.2 (hiff.1 h.1)) fun h => h.1 (hiff.2 h.2)
  · have hc := act_up logCommitEff hup
    rw [logCommitEff_eq] at hc
    exact ⟨next_pos hc, next_neg hc⟩
  · exact (act_up _ hup).trans (by rw [spnCommitEff_eq, if_neg (ne_true_of_eq_false h)])
  · exact (act_up _ hup).trans (by rw [spnCommitEff_eq, if_pos h])
  · exact (act_up _ hup).trans (by rw [clCommitEff_eq hcl, if_pos h])
  · exact (act_up _ hup).trans (by rw [clCommitEff_eq hcl, if_neg (ne_true_of_eq_false h)])

end Sys2Proof.Machine
end

section
/-! PROOF. Commands on images, and data moved for the host. -/

namespace Sys2Proof.Machine

open Sys2Proof Sys2Proof.Claims

/-- A row that runs a session's command does what the command does once it has started. -/
theorem session_row {row : Run → Instr} {s : State} {r : Run} {opc cls : Nat} {buf : Bool} {m : List Nat} {c : Cmd}
    {f : Cmd → State → State} (hx : exec (row r) s = act 6 s (runCmd r opc cls buf m f))
    (h : starts s r opc cls buf m c = true) : exec (row r) s = .next (f c (begun c s)) := by
  rw [hx, act_up _ (starts_up h), runCmd_starts f h]

/-! ### Images (R337) -/

section
variable {c : Cmd} {u : State} {bs : List Nat}

theorem checkedImage_offends {o : Nat} (h : imageOffence bs = some o) :
    checkedImage c bs u = finishCmd c scIMGINVALID 0 o 0 u := by
  simp only [checkedImage, h]

theorem checkedImage_sound (h : imageOffence bs = none) :
    checkedImage c bs u = placeImage c (bs.take (fieldLe bs 8 4)) u := by
  simp only [checkedImage, h, imgField]

/-- A template of the image is of a ring that the session may not give it (R337). -/
def ringShut (c : Cmd) (bs : List Nat) : Bool :=
  ((sections bs).filter (·.typ == 2)).any fun x => (x.template bs 0 0).d.ring < (if c.sess = 0 then 2 else 3)

/-- The store or a failed PE leaves the image no room (R16, R397). -/
def noRoom (bs : List Nat) (u : State) : Prop :=
  storeSize < storeUsed u + bs.length ∨ (placesOf bs).any (fun p => lpeFailed u p.pe) = true

theorem placeImage_shut (h : ringShut c bs = true) : placeImage c bs u = failCmd c scRING u := by
  unfold placeImage
  exact if_pos h

theorem placeImage_conflict (h : ringShut c bs = false) (hp : placeConflict u (placesOf bs) = true) :
    placeImage c bs u = failCmd c scPLACECONFLICT u := by
  unfold placeImage
  exact (if_neg (ne_true_of_eq_false h)).trans (if_pos hp)

theorem placeImage_noRoom (h : ringShut c bs = false) (hp : placeConflict u (placesOf bs) = false) (hr : noRoom bs u) :
    placeImage c bs u = failCmd c scNORESOURCE u := by
  unfold placeImage
  refine (if_neg (ne_true_of_eq_false h)).trans ((if_neg (ne_true_of_eq_false hp)).trans (if_pos ?_))
  simpa [noRoom] using hr

/-- The image `id` with its templates from handle `h` on, its words placed, and its hash measured (R337, R434). -/
def withImage (c : Cmd) (bs : List Nat) (h id : Nat) (u : State) : State :=
  measure 4 0 id ((bs.drop 16).take 32) (forAll (placesOf bs) writePlaced { u with
    images := u.images ++ [⟨id, c.sess, placesOf bs, bs⟩],
    templates := u.templates ++ ((sections bs).filter (·.typ == 2)).map fun x => x.template bs id (h + x.aux) })

theorem placeImage_placed (h : ringShut c bs = false) (hp : placeConflict u (placesOf bs) = false) (hr : ¬ noRoom bs u)
    {n id : Nat} (hn : lowestRun (u.templates.map (·.handle)) 1 ((sections bs).filter (·.typ == 2)).length = some n)
    (hid : lowestRun (u.images.map (·.id)) 0 1 = some id) : placeImage c bs u =
      succeed c (n + ((sections bs).filter (·.typ == 2)).length * 2 ^ 16) id (withImage c bs n id u) := by
  unfold placeImage
  refine (if_neg (ne_true_of_eq_false h)).trans ((if_neg (ne_true_of_eq_false hp)).trans ((if_neg ?_).trans ?_))
  · simpa [noRoom] using hr
  · simp only [hn, hid, withImage]

end

section
variable {s : State} {r : Run} {c : Cmd}

/-- An image from a slot of the store. -/
theorem imgLoad_stored (h : starts s r 0x11 0 true [0, 0x1FF] c = true) (hp : (c.par 1).testBit 8 = true) :
    exec (.imgLoad r) s = .next (let u := begun c s
      if c.e.dptr ≠ 0 then invField c 8 u else if c.e.dlen ≠ 0 then invField c 16 u
      else if 64 ≤ c.par 1 % 256 then invField c 32 u
      else if mget [] u.stored (c.par 1 % 256) = [] then failCmd c scNOTFOUND u
      else checkedImage c (mget [] u.stored (c.par 1 % 256)) u) := by
  rw [session_row (row := .imgLoad) rfl h]
  simp only [hp, if_true]
  cases mget [] (begun c s).stored (c.par 1 % 256) with
  | nil => simp only [if_true]
  | cons b bs => simp only [reduceCtorEq, if_false]

/-- An image from the buffer. -/
theorem imgLoad_buffer (h : starts s r 0x11 0 true [0, 0x1FF] c = true) (hp : (c.par 1).testBit 8 = false) :
    exec (.imgLoad r) s = .next (let u := begun c s
      if c.par 1 ≠ 0 then invField c 32 u else if r.bad then bufferError c u
      else checkedImage c (r.data.take c.e.dlen) u) := by
  rw [session_row (row := .imgLoad) rfl h]
  simp only [hp, Bool.false_eq_true, if_false]

theorem imgStore_starts (h : starts s r 0x05 1 false [0xFFFF, 0xFF] c = true) :
    exec (.imgStore r) s = .next (let u := begun c s
    if 64 ≤ c.par 1 then invField c 32 u
    else (u.images.find? (·.id == c.par 0)).elim (failCmd c scNOTFOUND u) fun im =>
      let v := { u with stored := mset [] u.stored (c.par 1) im.bytes }
      if storeSize < storeUsed v then failCmd c scNORESOURCE u else succeed c im.bytes.length 0 v) := by
  rw [session_row (row := .imgStore) rfl h]
  dsimp only
  cases (begun c s).images.find? (·.id == c.par 0) with
  | none => rw [Option.elim_none]
  | some im => rw [Option.elim_some]

theorem imgUnload_starts (h : starts s r 0x12 0 false [0xFFFF] c = true) : exec (.imgUnload r) s = .next (let u := begun c s
    (u.images.find? (·.id == c.par 0)).elim (failCmd c scNOTFOUND u) fun im =>
      if c.sess ≠ 0 ∧ c.sess ≠ im.sess then failCmd c scNOTPERMITTED u
      else if imageBusy u (c.par 0) then failCmd c scBUSY u
      else succeed c 0 0 { u with
        images := u.images.filter (·.id != c.par 0), templates := u.templates.filter (·.image != c.par 0) }) := by
  rw [session_row (row := .imgUnload) rfl h]
  dsimp only
  cases (begun c s).images.find? (·.id == c.par 0) with
  | none => rw [Option.elim_none]
  | some im => rw [Option.elim_some]

end

/-! ### Transfers (R332) -/

section
variable {s : State} {r : Run} {c : Cmd}

/-- What R332 refuses of a transfer, in its order: the length, the address, the view. -/
theorem moveField_eq (c : Cmd) : moveField c =
    let pres := c.e.opc = 0x1A ∧ c.par 1 = 3; let n := c.e.dlen; let a := c.par 0
    if n < 16 ∨ 1048576 < n ∨ n % 16 ≠ 0 then some 16
    else if a % (if pres then 256 else 16) ≠ 0 ∨ 0x2000000 < a + (if pres then 32 * n else n) then some 24
    else if (if c.e.opc = 0x1A then c.par 1 ≠ 0 ∧ c.par 1 ≠ 3 else c.par 1 = 3) then some 32 else none := by
  simp only [moveField, Bool.and_eq_true, beq_iff_eq]

theorem startMove_refused {o : Nat} (u : State) (h : moveField c = some o) : startMove r c u = invField c o u := by
  simp only [startMove, h]

/-- A transfer in range sends its first packet, unless its buffer cannot be read. -/
theorem startMove_runs (u : State) (h : moveField c = none) : startMove r c u = if r.bad then bufferError c u else
    let e := { c with left := c.e.dlen, acc := if c.e.opc = 0x1B then r.data.take c.e.dlen else [] }
    sendChunk e (updCmd c (fun _ => e) u) := by
  simp only [startMove, h]

theorem move_starts {row : Run → Instr} {k : Nat} (hrow : (row, k) ∈ [(Instr.scrRead, 0x1A), (.scrWrite, 0x1B)])
    (h : starts s r k 0 true [0x1FFFFFF, 3] c = true) : exec (row r) s = .next (startMove r c (begun c s)) := by
  simp only [List.mem_cons, List.not_mem_nil, or_false, Prod.mk.injEq] at hrow
  rcases hrow with ⟨rfl, rfl⟩ | ⟨rfl, rfl⟩
  · exact session_row (row := .scrRead) rfl h
  · exact session_row (row := .scrWrite) rfl h

theorem starts_opc {opc cls : Nat} {buf : Bool} {m : List Nat} (h : starts s r opc cls buf m c = true) : c.e.opc = opc := by
  simp only [starts, Bool.and_eq_true] at h
  obtain ⟨-, -, -, ho⟩ := turn_cases h.1.1
  exact ho

/-- A packet goes to the bank of its view's address (R332). -/
theorem sendChunk_view {e : Cmd} {v a : Nat} (h : viewOf (nextChunk e).addr = some (v, a)) (s : State) : sendChunk e s =
    request 1 (bgStation (a / 2 ^ 20)) (a / 2 ^ 20 % 8) (if e.e.opc = 0x1A then 0x19 else 0x1A) (0x10 + (s.sess e.sess).fn)
      (nextChunk e).addr (if e.e.opc = 0x1A then [(nextChunk e).units]
        else (List.range (nextChunk e).units).map fun i => ofLe ((e.acc.drop (e.e.dlen - e.left + 16 * i)).take 16))
      (.host e.id) s := by
  simp only [sendChunk, h, fnInit]

theorem capRead_starts (h : starts s r 0x1C 0 true [0x3F, 0xFFFFFFFF, 0xFFFFFFFF] c = true) :
    exec (.capRead r) s = .next (let u := begun c s; let k := c.par 0
      if ringState u k = 0 then failCmd c scNOTFOUND u
      else if c.e.dlen < c.par 2 * capLen (ringNch u k) then invField c 16 u
      else if r.bad then bufferError c u
      else sendRingrd { c with left := c.par 2 } (updCmd c (fun _ => { c with left := c.par 2 }) u)) :=
  session_row (row := .capRead) rfl h

/-! ### Far-spill memory (R333) -/

theorem spillGrant_starts (h : starts s r 0x03 1 false [full64, full64, 0xF] c = true) :
    exec (.spillGrant r) s = .next (let u := begun c s; let done := commitFar (c.par 2) (c.par 0) (c.par 1 / 65536) u
      if c.par 0 % 65536 ≠ 0 then invField c 24 u
      else if c.par 1 % 65536 ≠ 0 then invField c 32 u
      else if rd u (F.clFsstatUsed (c.par 2)) ≠ 0 then failCmd c scBUSY u
      else if 64 * 2 ^ 30 < grantedElse u (c.par 2) + c.par 1 then invField c 32 u
      else if done.1 then failCmd c scDEVERR done.2
      else succeed c 0 0 { done.2 with grants := mset 0 done.2.grants (c.par 2) (c.par 1) }) := by
  rw [session_row (row := .spillGrant) rfl h]
  dsimp only
  rcases commitFar (c.par 2) (c.par 0) (c.par 1 / 65536) (begun c s) with ⟨_ | _, v⟩ <;> simp

theorem spillRevoke_starts (h : starts s r 0x04 1 false [0, 0, 0xF] c = true) :
    exec (.spillRevoke r) s = .next (let u := begun c s
      let done := commitFar (c.par 2) (rdSh u (F.clFsbaseloAddr (c.par 2)) + rdSh u (F.clFsbasehiAddr (c.par 2)) * 2 ^ 32) 0 u
      if rd u (F.clFsstatUsed (c.par 2)) ≠ 0 then failCmd c scFARSPILL u
      else if done.1 then failCmd c scDEVERR done.2
      else succeed c 0 0 { done.2 with grants := mset 0 done.2.grants (c.par 2) 0 }) := by
  rw [session_row (row := .spillRevoke) rfl h]
  dsimp only
  rcases commitFar (c.par 2) (rdSh (begun c s) (F.clFsbaseloAddr (c.par 2))
    + rdSh (begun c s) (F.clFsbasehiAddr (c.par 2)) * 2 ^ 32) 0 (begun c s) with ⟨_ | _, v⟩ <;> simp

end

/-- Settles O34: each command's checks in their order. -/
theorem imagesAndMoves : Obligations.ImagesAndMoves := by
  refine ⟨fun s r c => ?images, fun s r c => ?moves⟩
  case images =>
    intro u p
    refine ⟨fun h => ?load, fun h => ?store, fun h => ?unload⟩
    case load =>
      intro data slot stored
      refine ⟨fun hp => ?_, fun hp => ?_⟩
      · have hx := imgLoad_stored h hp
        refine ⟨fun h1 => next_pos hx h1, fun h1 h2 => ?_, fun h1 h2 => ?_⟩
        · exact next_pos (next_neg hx (not_not_intro h1)) h2
        have hx := next_neg (next_neg hx (not_not_intro h1)) (not_not_intro h2)
        refine ⟨fun h3 => next_pos hx h3, fun h3 h4 => ?_, fun h3 h4 => ?_⟩
        · exact next_pos (next_neg hx (Nat.not_le.2 h3)) h4
        · exact next_neg (next_neg hx (Nat.not_le.2 h3)) h4
      · have hx := imgLoad_buffer h hp
        refine ⟨fun h1 => next_pos hx h1, fun h1 hb => next_pos (next_neg hx (not_not_intro h1)) hb, fun h1 hb => ?_⟩
        have hx := next_neg (next_neg hx (not_not_intro h1)) (ne_true_of_eq_false hb)
        refine ⟨fun o ho => hx.trans (congrArg _ (checkedImage_offends ho)), fun ho => ?_⟩
        have hx := hx.trans (congrArg _ (checkedImage_sound ho))
        intro bs ps xs shut
        refine ⟨fun hs => hx.trans (congrArg _ (placeImage_shut hs)),
          fun hs hp => hx.trans (congrArg _ (placeImage_conflict hs hp)),
          fun hs hp => ⟨fun hr => hx.trans (congrArg _ (placeImage_noRoom hs hp hr)), fun n id hlen hpe hn hid => ?_⟩⟩
        have hroom : ¬ noRoom bs u := not_or.2 ⟨Nat.not_lt.2 hlen, ne_true_of_eq_false hpe⟩
        exact hx.trans (congrArg _ (placeImage_placed hs hp hroom hn hid))
    case store =>
      intro found
      have hx := imgStore_starts h
      refine ⟨fun h1 => next_pos hx h1, fun h1 hf => next_none (next_neg hx (Nat.not_le.2 h1)) hf, fun im h1 hf => ?_⟩
      have hx := next_some (next_neg hx (Nat.not_le.2 h1)) hf
      exact ⟨fun hfull => next_pos hx hfull, fun hfit => next_neg hx (Nat.not_lt.2 hfit)⟩
    case unload =>
      intro id found
      have hx := imgUnload_starts h
      refine ⟨fun hf => next_none hx hf, fun im hf => ?_⟩
      have hx := next_some hx hf
      refine ⟨fun h1 h2 => next_pos hx ⟨h1, h2⟩, fun hown => ?_⟩
      have hx := next_neg hx (by omega)
      exact ⟨fun hb => next_pos hx hb, fun hb => next_neg hx (ne_true_of_eq_false hb)⟩
  case moves =>
    intro u
    refine ⟨?transfer, fun e v a hv => ?packet, fun h => ?capture, fun h => ?grant, fun h => ?revoke⟩
    case transfer =>
      rintro ⟨row, k⟩ hrow h
      have hx := move_starts hrow h
      obtain rfl : c.e.opc = k := starts_opc h
      intro pres n a badLen badAddr badView
      have hm := moveField_eq c
      refine ⟨fun hl => ?_, fun hl ha => ?_, fun hl ha hv => ?_, fun hl ha hv => ?_⟩
      · exact hx.trans (congrArg _ (startMove_refused u (hm.trans (if_pos hl))))
      · exact hx.trans (congrArg _ (startMove_refused u (hm.trans ((if_neg hl).trans (if_pos ha)))))
      · exact hx.trans (congrArg _ (startMove_refused u (hm.trans ((if_neg hl).trans ((if_neg ha).trans (if_pos hv))))))
      · have hx := hx.trans (congrArg _ (startMove_runs u (hm.trans ((if_neg hl).trans ((if_neg ha).trans (if_neg hv))))))
        exact ⟨fun hb => next_pos hx hb, fun hb => next_neg hx (ne_true_of_eq_false hb)⟩
    case packet =>
      have hx := sendChunk_view hv s
      exact ⟨fun ho => hx.trans (by rw [if_pos ho, if_pos ho]), fun ho => hx.trans (by rw [if_neg ho, if_neg ho])⟩
    case capture =>
      have hx := capRead_starts h
      refine ⟨fun h1 => next_pos hx h1, fun h1 => ⟨fun h2 => next_pos (next_neg hx h1) h2, fun h2 => ?_⟩⟩
      have hx := next_neg (next_neg hx h1) (Nat.not_lt.2 h2)
      exact ⟨fun hb => next_pos hx hb, fun hb => next_neg hx (ne_true_of_eq_false hb)⟩
    case grant =>
      have hx := spillGrant_starts h
      refine ⟨fun h1 => next_pos hx h1, fun h1 => ?_⟩
      have hx := next_neg hx (not_not_intro h1)
      refine ⟨fun h2 => next_pos hx h2, fun h2 => ?_⟩
      have hx := next_neg hx (not_not_intro h2)
      refine ⟨fun h3 => next_pos hx h3, fun h3 => ?_⟩
      have hx := next_neg hx (not_not_intro h3)
      refine ⟨fun h4 => next_pos hx h4, fun h4 => ?_⟩
      have hx := next_neg hx (Nat.not_lt.2 h4)
      exact ⟨fun hd => next_pos hx hd, fun hd => next_neg hx (ne_true_of_eq_false hd)⟩
    case revoke =>
      have hx := spillRevoke_starts h
      refine ⟨fun h1 => next_pos hx h1, fun h1 => ?_⟩
      have hx := next_neg hx (not_not_intro h1)
      exact ⟨fun hd => next_pos hx hd, fun hd => next_neg hx (ne_true_of_eq_false hd)⟩

end Sys2Proof.Machine
end

section
/-! PROOF. The store window of a cluster: how an operation goes by its guards, and what it leaves in the state. -/

namespace Sys2Proof.Machine

open Sys2Proof Sys2Proof.Claims

/-! ### One PE, and fields written in turn -/

theorem pe_updPe (s : State) (k j : Nat) (f : Pe → Pe) :
    (s.updPe k f).pe j = if k = j then f (s.pe k) else s.pe j := mget_mset _ _ _ _ _

section
variable (f : Nat → Fld) (v : Nat → Nat) (m : Nat) (s : State)

/-- Fields with keys of their own, written in turn: those in range hold their values, the others are as before. -/
theorem rd_forAll_put_range (hf : ∀ i j, (f i).key = (f j).key → i = j) (j : Nat) :
    rd (forAll (List.range m) (fun k u => put u (f k) (v k)) s) (f j)
      = if j < m then v j % 2 ^ (f j).width else rd s (f j) := by
  induction m with
  | zero => rfl
  | succ m ih =>
    have hlast : forAll (List.range (m + 1)) (fun k u => put u (f k) (v k)) s
        = put (forAll (List.range m) (fun k u => put u (f k) (v k)) s) (f m) (v m) := by
      simp only [forAll, List.range_succ, List.foldl_append, List.foldl_cons, List.foldl_nil]
    rw [hlast]
    by_cases hj : m = j
    · subst hj; rw [rd_put_same, if_pos (Nat.lt_succ_self m)]
    · rw [rd_put_other _ _ _ _ fun h => hj (hf m j h), ih]
      simp only [show j < m ↔ j < m + 1 by omega]

/-- Fields written in turn leave the tables of contexts, PEs and gates and the memory. -/
theorem forAll_put_frame (l : List Nat) : let t := forAll l (fun k u => put u (f k) (v k)) s
    t.pes = s.pes ∧ t.ctxs = s.ctxs ∧ t.gateTable = s.gateTable ∧ t.mem = s.mem := by
  induction l generalizing s with
  | nil => exact ⟨rfl, rfl, rfl, rfl⟩
  | cons k l ih => exact ih (put s (f k) (v k))

end

/-! ### The words of SWDATA (R458) -/

theorem clSwdataData_key_inj (n i j : Nat) (h : (F.clSwdataData n i).key = (F.clSwdataData n j).key) : i = j := by
  simp only [Fld.key, fkey, F.clSwdataData] at h; omega

/-- An item of `w` words in SWDATA, as a READ puts it there (`swReadEff_open`). -/
def swFill (n w item : Nat) (s : State) : State :=
  forAll (List.range w) (fun k u => put u (F.clSwdataData n k) (bits item (32 * k) 32)) s

theorem rd_swFill (n w item : Nat) (s : State) (j : Nat) : rd (swFill n w item s) (F.clSwdataData n j)
    = if j < w then item / 2 ^ (32 * j) % 2 ^ 32 else rd s (F.clSwdataData n j) := by
  have hwidth : (F.clSwdataData n j).width = 32 := rfl
  rw [swFill, rd_forAll_put_range _ _ w s (clSwdataData_key_inj n), bits, hwidth, Nat.mod_mod]

theorem swFill_frame (n w item : Nat) (s : State) : let t := swFill n w item s
    t.pes = s.pes ∧ t.ctxs = s.ctxs ∧ t.gateTable = s.gateTable ∧ t.mem = s.mem :=
  forAll_put_frame (F.clSwdataData n) _ s _

/-! ### The beginning of an operation -/

section
variable (n e : Nat) (s : State)

@[simp] theorem swStart_pe (k : Nat) : (swStart n e s).pe k = s.pe k := rfl
@[simp] theorem swStart_gateTable : (swStart n e s).gateTable = s.gateTable := rfl
@[simp] theorem swStart_mem : (swStart n e s).mem = s.mem := rfl

@[simp] theorem swStart_busy : rd (swStart n e s) (F.clSwctlBusy n) = 1 := by
  have hkey : (F.clSwctlErr n).key ≠ (F.clSwctlBusy n).key := by
    simp only [Fld.key, fkey, F.clSwctlErr, F.clSwctlBusy]; omega
  rw [swStart, rd_put_other _ _ _ _ hkey, rd_put_same]; rfl

@[simp] theorem swStart_err : rd (swStart n e s) (F.clSwctlErr n) = e % 8 := rd_put_same _ _ _

@[simp] theorem swStart_data (j : Nat) : rd (swStart n e s) (F.clSwdataData n j) = rd s (F.clSwdataData n j) := by
  have herr : (F.clSwctlErr n).key ≠ (F.clSwdataData n j).key := by
    simp only [Fld.key, fkey, F.clSwctlErr, F.clSwdataData]; omega
  have hbusy : (F.clSwctlBusy n).key ≠ (F.clSwdataData n j).key := by
    simp only [Fld.key, fkey, F.clSwctlBusy, F.clSwdataData]; omega
  rw [swStart, rd_put_other _ _ _ _ herr, rd_put_other _ _ _ _ hbusy]

end

/-! ### The operations by their guards (R456, R459) -/

section
variable {s : State} {n : Nat}

/-- An operation named alone is discarded unless its initiator may write, and answers CFGERR while another runs. -/
theorem swOp_eq {b : Nat} (hn : n < 16) (hb : b = 1 ∨ b = 2) (init : Nat) (s : State) :
    swOp init n b s = if writeAccepted s init (0x200904 + 0x10000 * n) = true then
      if rd s (F.clSwctlBusy n) = 1 then cfgErr (17 + n) s else if b = 2 then swWriteEff n s else swReadEff n s
      else s := by
  rcases hb with rfl | rfl <;> simp [swOp, swctlWrite, hn, rdB, Nat.testBit]

section
variable (hup : s.up 5 = true) (hn : n < 16) (init : Nat)
include hup hn

theorem exec_swRead : exec (.swRead init n) s = .next (if writeAccepted s init (0x200904 + 0x10000 * n) = true then
    if rd s (F.clSwctlBusy n) = 1 then cfgErr (17 + n) s else swReadEff n s else s) :=
  (act_up _ hup).trans (congrArg _ (swOp_eq hn (.inl rfl) init s))

theorem exec_swWrite : exec (.swWrite init n) s = .next (if writeAccepted s init (0x200904 + 0x10000 * n) = true then
    if rd s (F.clSwctlBusy n) = 1 then cfgErr (17 + n) s else swWriteEff n s else s) :=
  (act_up _ hup).trans (congrArg _ (swOp_eq hn (.inr rfl) init s))

theorem exec_swOpDone : exec (.swOpDone n) s = .next (put s (F.clSwctlBusy n) 0) :=
  (act_up _ hup).trans (congrArg _ (if_pos hn))

end

/-! ### A READ (R458) -/

theorem swReadEff_barred (h : swBarred s n = true) : swReadEff n s = swStart n 2 s := if_pos h

theorem swReadEff_open (h : swBarred s n = false) :
    swReadEff n s = swStart n 0 (swFill n (swWords (rd s (F.clSwaddrSpace n))) (swItem s n) s) :=
  if_neg (ne_true_of_eq_false h)

/-! ### A WRITE (R114, R458) -/

/-- A PE is barred in its own stores only. -/
theorem swBarred_of_le (h : 2 ≤ rd s (F.clSwaddrSpace n)) : swBarred s n = false := by
  rw [swBarred, decide_eq_false (Nat.not_lt.2 h), Bool.false_and]

theorem swWriteEff_readOnly (h : rd s (F.clSwaddrSpace n) = 1 ∨ rd s (F.clSwaddrSpace n) = 2) :
    swWriteEff n s = swStart n 1 s := if_pos h

theorem swWriteEff_barred (hsp : rd s (F.clSwaddrSpace n) = 0) (h : swBarred s n = true) :
    swWriteEff n s = swStart n 2 s := (if_neg (by omega)).trans (if_pos h)

theorem swWriteEff_insn (hsp : rd s (F.clSwaddrSpace n) = 0) (h : swBarred s n = false) :
    swWriteEff n s = swStart n 0 (s.updPe (n * 17 + rd s (F.clSwaddrPpe n)) fun p =>
      { p with imem := mset 0 p.imem (rd s (F.clSwaddrIndex n)) (swData s n % 2 ^ 128) }) :=
  ((if_neg (by omega)).trans (if_neg (ne_true_of_eq_false h))).trans (if_pos hsp)

theorem swWriteEff_gate (hsp : rd s (F.clSwaddrSpace n) = 3) :
    swWriteEff n s = if gateReserved (swData s n % 2 ^ 64) = true then swStart n 4 s else
      swStart n 0 { s with
        gateTable := mset 0 s.gateTable (n * 256 + rd s (F.clSwaddrIndex n)) (swData s n % 2 ^ 64) } :=
  ((if_neg (by omega)).trans (if_neg (ne_true_of_eq_false (swBarred_of_le (by omega))))).trans (if_neg (by omega))

end

/-- Settles O29: an operation that passes its guards answers by the space named and by whether the PE is barred. -/
theorem storeWindow : Obligations.StoreWindow := by
  intro s init n hup hn sp i k stop
  have hread := exec_swRead hup hn init
  have hwrite := exec_swWrite hup hn init
  refine ⟨exec_swOpDone hup hn, fun hacc => ?_, fun hacc hbusy => ?_, fun hacc hbusy => ?_⟩
  · exact ⟨next_neg hread (ne_true_of_eq_false hacc), next_neg hwrite (ne_true_of_eq_false hacc)⟩
  · exact ⟨next_pos (next_pos hread hacc) hbusy, next_pos (next_pos hwrite hacc) hbusy⟩
  have hread := next_neg (next_pos hread hacc) hbusy
  have hwrite := next_neg (next_pos hwrite hacc) hbusy
  refine ⟨fun _ hbar => ?readBarred, fun hbar => ?readOpen, fun hsp => ?readOnly, fun hsp hbar => ?writeBarred,
    fun hsp hbar => ?insn, fun hsp hres => ?reserved, fun hsp hres => ?gate⟩
  case readBarred => exact hread.trans (congrArg _ (swReadEff_barred hbar))
  case readOpen =>
    have hx := hread.trans (congrArg _ (swReadEff_open hbar))
    refine ⟨_, hx, swStart_busy n 0 _, swStart_err n 0 _, fun j hj => ?_, fun j hj _ => ?_, swFill_frame ..⟩
    · rw [swStart_data, rd_swFill, if_pos hj]
    · rw [swStart_data, rd_swFill, if_neg (Nat.not_lt.2 hj)]
  case readOnly => exact hwrite.trans (congrArg _ (swWriteEff_readOnly hsp))
  case writeBarred => exact hwrite.trans (congrArg _ (swWriteEff_barred hsp hbar))
  case insn =>
    have hx := hwrite.trans (congrArg _ (swWriteEff_insn hsp hbar))
    refine ⟨_, hx, swStart_busy n 0 _, swStart_err n 0 _, ?_, fun a ha => ?_, ?_, fun j hj => ?_, ?_, ?_⟩
    · rw [swStart_pe, pe_updPe, if_pos rfl, mget_mset_same]
    · rw [swStart_pe, pe_updPe, if_pos rfl, mget_mset_other _ _ _ ha.symm]
    · rw [swStart_pe, pe_updPe, if_pos rfl]
    · rw [swStart_pe, pe_updPe, if_neg hj.symm]
    · rw [swStart_gateTable, State.updPe_gateTable]
    · rw [swStart_mem, State.updPe_mem]
  case reserved => exact next_pos (hwrite.trans (congrArg _ (swWriteEff_gate hsp))) hres
  case gate =>
    have hx := next_neg (hwrite.trans (congrArg _ (swWriteEff_gate hsp))) (ne_true_of_eq_false hres)
    refine ⟨_, hx, swStart_err n 0 _, ?_, fun a ha => ?_, rfl, rfl⟩
    · rw [swStart_gateTable, mget_mset_same]
    · rw [swStart_gateTable, mget_mset_other _ _ _ ha.symm]

end Sys2Proof.Machine
end

section
/-! PROOF. Phase counters: a step of the count and its position, a level change at one source, and the holding copies. -/

namespace Sys2Proof.Machine

open Sys2Proof Sys2Proof.Claims

/-! ### The count and its position (R151) -/

section
variable {k cpt : Nat} (turns : Int) (h : k < cpt)
include h

/-- One step moves the total count by one: within the turn, or over its end into the next. -/
theorem nextCount_total (rev : Bool) : (nextCount turns k cpt rev).1 * cpt + (nextCount turns k cpt rev).2
    = turns * cpt + k + (if rev then -1 else 1) := by
  unfold nextCount
  cases rev with
  | true =>
    by_cases h0 : k = 0
    · simp only [h0, if_true, Int.sub_mul]; omega
    · simp only [h0, if_true, if_false]; omega
  | false =>
    by_cases h1 : k + 1 < cpt
    · simp only [h1, Bool.false_eq_true, if_true, if_false]; omega
    · simp only [h1, Bool.false_eq_true, if_false, Int.add_mul]; omega

theorem nextCount_lt (rev : Bool) : (nextCount turns k cpt rev).2 < cpt := by
  unfold nextCount
  cases rev with
  | true =>
    by_cases h0 : k = 0
    · simp only [h0, if_true]; omega
    · simp only [h0, if_true, if_false]; omega
  | false =>
    by_cases h1 : k + 1 < cpt
    · simp only [h1, Bool.false_eq_true, if_true, if_false]
    · simp only [h1, Bool.false_eq_true, if_false]; omega

theorem posOf_bounds : turns * 2 ^ 32 ≤ posOf turns k cpt ∧ posOf turns k cpt < (turns + 1) * 2 ^ 32 := by
  have hq : k * 2 ^ 32 / cpt < 2 ^ 32 := Nat.div_lt_of_lt_mul ((Nat.mul_lt_mul_right (by decide)).2 h)
  unfold posOf
  generalize k * 2 ^ 32 / cpt = q at hq
  omega

/-- The position lies within a turn at the fraction k / cpt, rounded down to a unit of 2^-32 turn. -/
theorem posOf_fraction : (posOf turns k cpt - turns * 2 ^ 32) * cpt ≤ k * 2 ^ 32
    ∧ (k * 2 ^ 32 : Int) < (posOf turns k cpt - turns * 2 ^ 32 + 1) * cpt := by
  have hpart : posOf turns k cpt - turns * 2 ^ 32 = (k * 2 ^ 32 / cpt : Nat) := by
    rw [posOf, Int.add_comm, Int.add_sub_cancel]
  rw [hpart]
  exact_mod_cast And.intro (Nat.div_mul_le_self (k * 2 ^ 32) cpt)
    ((Nat.div_lt_iff_lt_mul (by omega)).1 (Nat.lt_succ_self (k * 2 ^ 32 / cpt)))

end

/-! ### Level changes (R150) -/

section
variable {s : State} {tri n : Nat} (a b : Bool) (te : Nat)

/-- The levels of A and B of a triplet kept. -/
def keepLevels (tri : Nat) (a b : Bool) (u : State) : State :=
  { u with inputs := mset 0 (mset 0 u.inputs (tri * 4) (bit a)) (tri * 4 + 1) (bit b) }

theorem exec_countEvent (hup : s.up 3 = true) (hn : sourcesOn s tri [1, 2, 3] = [n]) :
    exec (.countEvent tri a b te) s = .next (keepLevels tri a b (countAt tri a b te n s)) :=
  (act_up _ hup).trans (by rw [countEventEff, hn]; rfl)

theorem exec_mainsEdge (hup : s.up 3 = true) (hn : sourcesOn s tri [5] = [n]) :
    exec (.mainsEdge tri te) s = .next (countStep n false te s) :=
  (act_up _ hup).trans (by rw [mainsEdgeEff, hn]; rfl)

theorem countAt_pulse (h : srcType s n = 2) : countAt tri a b te n s =
    if a && !lineLevel s tri 0 then countStep n (rdB s (F.phSrccfgDirinv n)) te s else s := by
  simp only [countAt, h]; rfl

theorem countAt_stepdir (h : srcType s n = 3) : countAt tri a b te n s =
    if a && !lineLevel s tri 0 then countStep n (b == rdB s (F.phSrccfgDirinv n)) te s else s := by
  have hdir : ∀ b inv : Bool, ((!b) != inv) = (b == inv) := by decide
  simp only [countAt, h, hdir]; rfl

/-- A change of one line is a step back exactly when it lies one place before in the forward sequence. -/
theorem quadPos_reverse : ∀ a b a0 b0 : Bool, ¬ (a ≠ a0 ∧ b ≠ b0) → (a ≠ a0 ∨ b ≠ b0) →
    ((quadPos a b + 4 - quadPos a0 b0) % 4 == 3) = ((a == a0) == (a0 == b0)) := by decide

theorem countAt_quad (h : srcType s n = 1) : countAt tri a b te n s =
    let a0 := lineLevel s tri 0; let b0 := lineLevel s tri 1
    if a ≠ a0 ∧ b ≠ b0 then event 3 4 n (put s (F.phSrcstatGlitched n) 1)
    else if a = a0 ∧ b = b0 then s
    else countStep n (((a == a0) == (a0 == b0)) != rdB s (F.phSrccfgDirinv n)) te s := by
  simp only [countAt, h, if_true]
  by_cases hboth : a ≠ lineLevel s tri 0 ∧ b ≠ lineLevel s tri 1
  · rw [if_pos hboth, if_pos hboth]
  rw [if_neg hboth, if_neg hboth]
  by_cases hone : a ≠ lineLevel s tri 0 ∨ b ≠ lineLevel s tri 1
  · rw [if_pos hone, if_neg (fun he => hone.elim (· he.1) (· he.2)), quadPos_reverse a b _ _ hboth hone]
  · obtain ⟨ha, hb⟩ := not_or.1 hone
    rw [if_neg hone, if_pos ⟨Decidable.not_not.1 ha, Decidable.not_not.1 hb⟩]

end

/-- Settles O23: a change of levels by the type of its source. -/
theorem phaseCounters : Obligations.PhaseCounters := by
  refine ⟨fun s tri te n a b hup => ?levels, fun turns k cpt rev h => ?count, fun s n hup => ?holding⟩
  case levels =>
    intro a0 b0 inv held
    refine ⟨exec_mainsEdge te hup, fun hn => ?_⟩
    have hx := exec_countEvent a b te hup hn
    refine ⟨fun hpulse => ?_, fun hstep => ?_, fun hquad => ?_⟩
    · exact hx.trans (congrArg _ (congrArg _ (countAt_pulse a b te hpulse)))
    · exact hx.trans (congrArg _ (congrArg _ (countAt_stepdir a b te hstep)))
    · exact hx.trans (congrArg _ (congrArg _ (countAt_quad a b te hquad)))
  case count =>
    obtain ⟨hlo, hhi⟩ := posOf_bounds turns h
    exact ⟨nextCount_total turns h rev, nextCount_lt turns h rev, hlo, hhi, posOf_fraction turns h⟩
  case holding => exact act_up _ hup

end Sys2Proof.Machine
end

section
/-! PROOF. NOON marks, the timeouts of a source, and phase frames. -/

namespace Sys2Proof.Machine

open Sys2Proof Sys2Proof.Claims

/-! ### NOON marks (R157) -/

section
variable {s : State} {tri n : Nat} (te : Nat)

theorem exec_noonMark (hup : s.up 3 = true) (hn : sourcesOn s tri [1, 2, 3] = [n]) :
    exec (.noonMark tri te) s = .next (noonAt te n s) :=
  (act_up _ hup).trans (by rw [noonMarkEff, hn]; rfl)

theorem noonAt_off (hm : rd s (F.phSrccfgNoonmode n) = 0) : noonAt te n s = s := if_pos hm

/-- The first mark homes the source. -/
theorem noonAt_home (hm : rd s (F.phSrccfgNoonmode n) ≠ 0) (hh : (s.ph n).homed = false) :
    noonAt te n s = put (s.setPh n (home te (s.ph n) (srcCpt s n))) (F.phSrcstatHomed n) 1 :=
  (if_neg hm).trans (if_pos (by rw [hh]; rfl))

/-- The distance of a mark recorded, and NOONERR raised beyond the tolerance. -/
def noonRecord (n : Nat) (s : State) : State :=
  let d := noonDist (s.ph n).k (srcCpt s n)
  let u := put s (F.phSrcnoonerrErr n) (wrap 32 d)
  if rd s (F.phSrcnoonNoontol n) < d.natAbs then event 3 3 n u else u

section
variable (hh : (s.ph n).homed = true)
include hh

theorem noonAt_homed (hm : rd s (F.phSrccfgNoonmode n) ≠ 0) : noonAt te n s =
    if rd s (F.phSrccfgNoonmode n) = 1 then s
    else if rd s (F.phSrccfgNoonmode n) = 3 then
      (noonRecord n s).setPh n (noonCorrect (s.ph n) (srcCpt s n)) else noonRecord n s :=
  (if_neg hm).trans (if_neg (by rw [hh]; decide))

theorem noonAt_homeOnly (hm : rd s (F.phSrccfgNoonmode n) = 1) : noonAt te n s = s := by
  rw [noonAt_homed te hh (by omega), if_pos hm]

theorem noonAt_record (hm : rd s (F.phSrccfgNoonmode n) = 2) : noonAt te n s = noonRecord n s := by
  rw [noonAt_homed te hh (by omega), if_neg (by omega), if_neg (by omega)]

theorem noonAt_correct (hm : rd s (F.phSrccfgNoonmode n) = 3) :
    noonAt te n s = (noonRecord n s).setPh n (noonCorrect (s.ph n) (srcCpt s n)) := by
  rw [noonAt_homed te hh (by omega), if_neg (by omega), if_pos hm]

end
end

/-! ### Timeouts (R158, R160, R161) -/

/-- What follows from changed states depends on the changed state only. -/
theorem withStates_congr {f g : State → State} {s : State} (h : f s = g s) : withStates f s = withStates g s := by
  simp only [withStates, h]

/-- One of two effects, chosen before the state is given. -/
theorem chosen_apply {p : Prop} [Decidable p] (f g : State → State) (s : State) :
    (if p then f else g) s = if p then f s else g s := by
  by_cases h : p
  · rw [if_pos h, if_pos h]
  · rw [if_neg h, if_neg h]

/-- COASTING begins (R158). -/
def coast (n : Nat) (v : State) : State := v.updPh n fun y => { y with state := 3, coastAt := v.now }

section
variable {s : State} {n : Nat} (hup : s.up 3 = true) (hn : n < 16) (hev : hasEvents (srcType s n) = true)
include hup hn hev

theorem exec_edgeTimeout (hst : (s.ph n).state = 2) (hlate : (s.ph n).lastEvent + edgeTimeout s n ≤ s.now) :
    exec (.edgeTimeout n) s = .next (withStates (fun v =>
      if (s.ph n).switched then coast n v
      else if altLocked v n then switchAlt n (coast n v)
      else if rd v (F.phSrctimeHorizon n) = 0 then v.updPh n stallSrc
      else coast n v) (s.setPh n { s.ph n with sinceTimeout := 0 })) :=
  (act_up _ hup).trans (congrArg _ (if_pos (by simp [hn, hev, hst, hlate])))

theorem exec_horizonExpire (hst : (s.ph n).state = 3) (hsw : (s.ph n).switched = false)
    (hlate : (s.ph n).coastAt + usEtu (rd s (F.phSrctimeHorizon n)) ≤ s.now) :
    exec (.horizonExpire n) s = .next (withStates
      (fun v => if altLocked v n then switchAlt n v else v.updPh n stallSrc) s) :=
  (act_up _ hup).trans (congrArg _ (if_pos (by simp [hn, hev, hst, hsw, hlate])))

end

/-! ### Phase frames (R177, R178) -/

/-- A frame that comes from no port goes to every trained one. -/
theorem sendFrame_all (f data : Nat) (s : State) : sendFrame 4 f data s =
    forAll ((List.range 4).filter fun p => rd s (F.spnPortstatState p) == 5) (fun p => spanSend p (phframePacket f data)) s := by
  rw [sendFrame]
  refine congrArg (forAll · _ s) (List.filter_congr fun p hp => ?_)
  have hne : (p != 4) = true := bne_iff_ne.2 (Nat.ne_of_lt (List.mem_range.1 hp))
  rw [hne, Bool.true_and]
  rfl

/-- The SPAN sources that a frame names. -/
def namedBy (s : State) (f : Nat) : List Nat :=
  (List.range 16).filter fun n => srcType s n == 7 && rd s (F.phSrcauxAux n) % 2 ^ 16 == bits f 0 16

section
variable {s : State} (hup : s.up 3 = true)
include hup

theorem exec_phaseExport : exec .phaseExport s = .next (if s.now - s.exportAt < 8 * rd s F.phExportInt then s else
    forAll ((List.range 16).filter (rd s F.phExportEn).testBit) (fun n u =>
      sendFrame 4 (phframeF (devnum u) n (u.bs (18 * 16 + n)).status 0 0)
        ((u.bs (18 * 16 + n)).pb + (u.bs (18 * 16 + n)).v * 2 ^ 64) u) { s with exportAt := s.now }) :=
  act_up _ hup

theorem exec_phframe {port : Nat} (f data : Nat) (hp : port < 4) (ht : rd s (F.spnPortstatState port) = 5) :
    exec (.phframe port f data) s = .next (let u := withStates (forAll (namedBy s f) (frameAt port f data)) s
      if (namedBy s f).any (fun n => (rd s F.phExportEn).testBit n) ∧ bits f 20 4 < 8 then
        sendFrame port (phframeF (bits f 0 12) (bits f 12 4) (bits f 16 4) (bits f 20 4 + 1)
          (bits f 24 32 + rd s (F.spnPortlatPs port))) data u
      else u) := by
  have hrow : (decide (port < 4) && spanTrained s port) = true := by simp [hp, spanTrained, spanState, ht]
  refine (act_up _ hup).trans (congrArg _ ((if_pos hrow).trans ?_))
  exact ite_congr (by rw [Bool.and_eq_true, decide_eq_true_eq]; rfl) (fun _ => rfl) (fun _ => rfl)

end

/-- Settles O24: a mark by the mode of its source, a timeout by what takes the source over, a frame by who names it. -/
theorem noonMarksAndFrames : Obligations.NoonMarksAndFrames := by
  refine ⟨fun s tri te n hup hn => ?marks, fun s n hup hn hev => ?timeouts, fun s hup => ?frames⟩
  case marks =>
    have hx := exec_noonMark te hup hn
    intro x cpt mode d u v
    refine ⟨fun hm => hx.trans (congrArg _ (noonAt_off te hm)),
      fun hm hh => hx.trans (congrArg _ (noonAt_home te hm hh)), fun hh => ⟨fun hm => ?_, fun hm => ?_, fun hm => ?_⟩⟩
    · exact hx.trans (congrArg _ (noonAt_homeOnly te hh hm))
    · exact hx.trans (congrArg _ (noonAt_record te hh hm))
    · exact hx.trans (congrArg _ (noonAt_correct te hh hm))
  case timeouts =>
    intro x
    refine ⟨fun hst hlate => ?_, fun hst hsw hlate => ?_⟩
    · have hx := exec_edgeTimeout hup hn hev hst hlate
      intro u coast
      refine ⟨fun hsw => ?_, fun hsw halt => ?_, fun hsw halt => ?_⟩
      · exact hx.trans (congrArg _ (withStates_congr (if_pos hsw)))
      · exact hx.trans (congrArg _ (withStates_congr ((if_neg (ne_true_of_eq_false hsw)).trans (if_pos halt))))
      · refine hx.trans (congrArg _ (withStates_congr
          ((if_neg (ne_true_of_eq_false hsw)).trans ((if_neg (ne_true_of_eq_false halt)).trans ?_))))
        rw [chosen_apply]
        rfl
    · refine (exec_horizonExpire hup hn hev hst hsw hlate).trans (congrArg _ (withStates_congr ?_))
      rw [chosen_apply]
  case frames =>
    have hx := exec_phaseExport hup
    refine ⟨fun hearly => next_pos hx hearly, fun hdue => ?_, fun port f data hp ht => exec_phframe hup f data hp ht⟩
    simpa only [sendFrame_all] using next_neg hx (Nat.not_lt.2 hdue)

end Sys2Proof.Machine
end

section
/-! PROOF. Observation queues at the host, their courier, and network time. -/

namespace Sys2Proof.Machine

open Sys2Proof Sys2Proof.Claims

/-! ### Commands on queues, and NETTIME (R153, R329) -/

section
variable {s : State} {r : Run} {c : Cmd}

theorem obqAttach_starts (h : starts s r 0x1D 0 false [0xF] c = true) : exec (.obqAttach r) s = .next (let u := begun c s
    if (u.sess c.sess).evLog = 0 then invField c 24 u
    else (u.queue (c.par 0)).attached.elim
      (succeed c 0 0 (u.setQueue (c.par 0) { u.queue (c.par 0) with attached := some c.sess }))
      fun n => if n = c.sess then succeed c 0 0 u else failCmd c scBUSY u) := by
  rw [session_row (row := .obqAttach) rfl h]
  dsimp only
  cases ((begun c s).queue (c.par 0)).attached with
  | none => rw [Option.elim_none, State.updQueue]
  | some n => rw [Option.elim_some]

theorem obqDetach_starts (h : starts s r 0x1E 0 false [0xF] c = true) : exec (.obqDetach r) s = .next (let u := begun c s
    if c.sess = 0 ∨ (u.queue (c.par 0)).attached = some c.sess then
      succeed c 0 0 (u.setQueue (c.par 0) { u.queue (c.par 0) with attached := none })
    else failCmd c scNOTPERMITTED u) :=
  session_row (row := .obqDetach) rfl h

theorem nettime_starts (h : starts s r 0x06 2 false [0xF, full64, full64] c = true) :
    exec (.nettime r) s = .next (let u := begun c s
      if srcType u (c.par 0) ≠ 6 then invField c 24 u
      else succeed c 0 0 (nettimeStep (c.par 0) (signed 64 (c.par 1)) (c.par 2 * 64) u)) :=
  session_row (row := .nettime) rfl h

end

/-! ### The courier (R344, R345) -/

@[simp] theorem sess_setSess_same (s : State) (n : Nat) (x : Sess) : (s.setSess n x).sess n = x := mget_mset_same _ _ _ _

theorem updSess_updSess (s : State) (n : Nat) (f g : Sess → Sess) :
    (s.updSess n f).updSess n g = (s.updSess n f).setSess n (g (f (s.sess n))) := by
  rw [State.updSess, State.updSess, sess_setSess_same]

section
variable {s : State} {n : Nat} (b : Bool)

/-- The courier of a session that is not ACTIVE, or has no room or nothing to deliver, leaves the state. -/
theorem courierEff_idle (h : (s.sess n).st ≠ .active ∨ evRoom (s.sess n) = false ∨ nextQueue s n = none) (m : Bool) :
    courierEff n m b s = s := by
  by_cases hshut : ((s.sess n).st != .active || !evRoom (s.sess n)) = true
  · exact if_pos hshut
  obtain ⟨hst, hroom⟩ : (s.sess n).st = .active ∧ evRoom (s.sess n) = true := by simpa using hshut
  have hnone : nextQueue s n = none := by simpa [hst, hroom] using h
  refine (if_neg hshut).trans ?_
  rw [hnone]

/-- The session once it has been served from queue `k`. -/
def servedFrom (k : Nat) (x : Sess) : Sess := { x with rot := k }

/-- The place in the event ring after an item, and the pass that it lies in. -/
def afterItem (x : Sess) : Sess :=
  { x with evTail := if x.evTail + 1 = 2 ^ x.evLog then 0 else x.evTail + 1,
           evPass := if x.evTail + 1 = 2 ^ x.evLog then x.evPass + 1 else x.evPass }

variable {k : Nat} (hst : (s.sess n).st = .active) (hroom : evRoom (s.sess n) = true) (hq : nextQueue s n = some k)
include hst hroom hq

theorem courierEff_mismatch : courierEff n true b s = queueReset k s := by
  refine (if_neg (by simp [hst, hroom])).trans ?_
  rw [hq]
  rfl

theorem courierEff_item {it : Item} {rest : Queue} (hpop : (s.queue k).pop = some (it, rest)) : courierEff n false b s =
    let v := (s.setQueue k rest).setSess n (servedFrom k (s.sess n))
    if b = true then ringError n v
    else posted n true (emitOut (.event n (s.sess n).evTail (itemBytes it ((s.sess n).evPass % 2) k))
      (v.setSess n (afterItem (servedFrom k (s.sess n))))) := by
  refine (if_neg (by simp [hst, hroom])).trans ?_
  rw [hq]
  dsimp only
  rw [hpop, if_neg Bool.false_ne_true]
  simp only [updSess_updSess, beq_iff_eq]
  rfl

end

/-- Settles O33: each command's checks in their order, and one turn of the courier. -/
theorem observationQueuesAtHost : Obligations.ObservationQueuesAtHost := by
  intro s r c u q
  refine ⟨fun h => ?attach, fun h => ?detach, fun h => ?nettime, fun hup n => ?courier⟩
  case attach =>
    have hx := obqAttach_starts h
    refine ⟨fun hev => next_pos hx hev, fun hev => ?_⟩
    have hx := next_neg hx hev
    refine ⟨fun hfree => next_none hx hfree, fun hown => ?_, fun n hother hne => ?_⟩
    · have hx := next_some hx hown
      exact next_pos hx rfl
    · have hx := next_some hx hother
      exact next_neg hx hne
  case detach =>
    have hx := obqDetach_starts h
    exact ⟨fun hmay => next_pos hx hmay, fun h0 hq => next_neg hx (not_or.2 ⟨h0, hq⟩)⟩
  case nettime =>
    have hx := nettime_starts h
    exact ⟨fun hty => next_pos hx hty, fun hty => next_neg hx (not_not_intro hty)⟩
  case courier =>
    intro x wraps
    have hrow (m b : Bool) : exec (.courierWrite n m b) s = .next (courierEff n m b s) := act_up _ hup
    refine ⟨fun hidle m b => (hrow m b).trans (congrArg _ (courierEff_idle b hidle m)), fun k hst hroom hq => ⟨fun b => ?_, ?_⟩⟩
    · exact (hrow true b).trans (congrArg _ (courierEff_mismatch b hst hroom hq))
    · intro it rest hpop v
      have hx (b : Bool) := (hrow false b).trans (congrArg _ (courierEff_item b hst hroom hq hpop))
      refine ⟨next_pos (hx true) rfl, ?_⟩
      rw [show v.sess n = servedFrom k x from sess_setSess_same _ _ _]
      exact next_neg (hx false) Bool.false_ne_true

end Sys2Proof.Machine
end

section
/-! PROOF. The wake ledger, changes of operating point, the snapshot of counters, and the tick. -/

namespace Sys2Proof.Machine

open Sys2Proof Sys2Proof.Claims

/-! ### Admission in order (R411 to R413) -/

theorem rd_putSat_same (s : State) (f : Fld) (n : Nat) : rd (putSat s f n) f = min (rd s f + n) (2 ^ f.width - 1) := by
  have hpos := Nat.two_pow_pos f.width
  rw [putSat, rd_put_same, Nat.mod_eq_of_lt (by omega)]

section
variable {s : State} {r : WakeReq} (rs : List WakeReq)

/-- The first request that does not fit stops admission: those that were not counted before are counted. -/
def deferRest (s : State) : State :=
  { putSat s F.pwrLedgerDeferred (s.ledger.filter (!·.counted)).length with
    ledger := s.ledger.map fun q => { q with counted := true } }

theorem admitAll_waits (hc : closing s r.dom = true) (hd : r.dvfs = false) : admitAll (r :: rs) s = admitAll rs s := by
  rw [admitAll, hc, hd]; rfl

section
variable (h : closing s r.dom = false ∨ r.dvfs = true)
include h

theorem admitAll_may : admitAll (r :: rs) s = if fitsBudget s r = true then admitAll rs (admitReq r s) else deferRest s := by
  rw [admitAll, if_neg (by rcases h with h | h <;> simp [h])]
  rfl

theorem admitAll_fits (hf : fitsBudget s r = true) : admitAll (r :: rs) s = admitAll rs (admitReq r s) :=
  (admitAll_may rs h).trans (if_pos hf)

theorem admitAll_stops (hf : fitsBudget s r = false) : admitAll (r :: rs) s = deferRest s :=
  (admitAll_may rs h).trans (if_neg (ne_true_of_eq_false hf))

end

theorem rd_deferRest (s : State) : rd (deferRest s) F.pwrLedgerDeferred
    = min (rd s F.pwrLedgerDeferred + (s.ledger.filter (!·.counted)).length) 0xFFF := rd_putSat_same s F.pwrLedgerDeferred _

/-- A request stands alone while nothing ramps and no charge lies in the window. -/
theorem fitsBudget_alone (r : WakeReq) (hs : slewOf s = (0, 1)) (hq : qwin s = 0) : fitsBudget s r = true := by
  simp [fitsBudget, hs, hq]

end

theorem ledgerOrder_perm (l : List WakeReq) : (ledgerOrder l).Perm l := List.mergeSort_perm l _

theorem ledgerOrder_pairwise (l : List WakeReq) :
    (ledgerOrder l).Pairwise fun a b => a.at_ < b.at_ ∨ (a.at_ = b.at_ ∧ a.dom ≤ b.dom) := by
  refine (List.pairwise_mergeSort (fun a b c => ?_) (fun a b => ?_) l).imp fun h => ?_
  · simp only [Bool.or_eq_true, Bool.and_eq_true, decide_eq_true_eq, beq_iff_eq]; omega
  · simp only [Bool.or_eq_true, Bool.and_eq_true, decide_eq_true_eq, beq_iff_eq]; omega
  · simpa only [Bool.or_eq_true, Bool.and_eq_true, decide_eq_true_eq, beq_iff_eq] using h

/-- The admitted requests that still count: those that ramp or whose charge lies in the window. -/
def dropPast (s : State) : State :=
  { s with admitted := s.admitted.filter fun a => (ramping s).contains a || (inWindow s).contains a }

theorem up_of_le {s : State} {m n : Nat} (hmn : m ≤ n) (h : s.up n = true) : s.up m = true :=
  decide_eq_true (Nat.le_trans hmn (of_decide_eq_true h))

theorem exec_ledgerAdmit {s : State} (hup : s.up 5 = true) : exec .ledgerAdmit s = .next (
    if (s.deviceHalted || s.activeCauses.contains 4) = true then s
    else admitAll (ledgerOrder s.ledger) (dropPast s)) := act_up _ (up_of_le (by decide) hup)

/-! ### Operating points (R415) -/

section
variable {s : State} {cl : Nat} (hup : s.up 5 = true)
include hup

theorem exec_voltageReached : exec (.voltageReached cl) s = .next (voltageEff cl s) := act_up _ hup

theorem exec_oppointRelockDone : exec (.oppointRelockDone cl) s = .next (relockEff cl s) := act_up _ hup

end

section
variable {s : State} {cl : Nat}

theorem voltageEff_volt (h : mget OpPhase.none s.opPhase cl = .volt) : voltageEff cl s =
    if rd s (F.clClkstatFreq cl) = rd s (F.clClkcfgFreq cl) then oppointDone cl s
    else setOpPhase cl .relock (put s (F.clClkstatVolt cl) (rd s (F.clClkcfgVolt cl))) := by
  rw [voltageEff, h]

theorem voltageEff_lowerVolt (h : mget OpPhase.none s.opPhase cl = .lowerVolt) : voltageEff cl s = oppointDone cl s := by
  rw [voltageEff, h]

theorem relockEff_relock (h : mget OpPhase.none s.opPhase cl = .relock) : relockEff cl s = oppointDone cl s := by
  rw [relockEff, h]

theorem relockEff_lower (h : mget OpPhase.none s.opPhase cl = .lower) : relockEff cl s =
    if rd s (F.clClkstatVolt cl) = rd s (F.clClkcfgVolt cl) then oppointDone cl s
    else setOpPhase cl .lowerVolt (put s (F.clClkstatFreq cl) (rd s (F.clClkcfgFreq cl))) := by
  rw [relockEff, h]

end

/-! ### The snapshot of counters (R417) -/

section
variable {s : State}

theorem statSnapEff_busy (h : rd s F.statStatusBusy = 1) : statSnapEff s = cfgErr 7 s := if_pos (beq_iff_eq.2 h)

theorem statSnapEff_starts (h : rd s F.statStatusBusy ≠ 1) : statSnapEff s =
    let a := put (put s F.statStatusBusy 1) F.statSeqSeq (rd s F.statSeqSeq + 1)
    let b := put (put a F.statPhloPhase (phase0 s % 2 ^ 32)) F.statPhhiPhase (phase0 s / 2 ^ 32)
    put (put { b with snapStep := 1, snapAt := s.now } F.statTickloTick (tick s % 2 ^ 32)) F.statTickhiTick (tick s / 2 ^ 32) :=
  if_neg (mt beq_iff_eq.1 h)

/-- What the swap finds latched: the units latch now, unless the strobe has reached them. -/
def swapFrom (s : State) : State := if s.snapStep = 1 then latch s else s

theorem snapSwapEff_swaps (h : s.snapStep ≠ 0) : (snapSwapEff s).snapStep = 0 ∧ rd (snapSwapEff s) F.statStatusBusy = 0
    ∧ (snapSwapEff s).snapshot = (swapFrom s).latched ∧ (snapSwapEff s).latched = (swapFrom s).snapshot := by
  have hs : snapSwapEff s = let v := put (put (swapFrom s) F.statStatusHalf (1 - rd (swapFrom s) F.statStatusHalf)) F.statStatusBusy 0
      { v with snapStep := 0, snapshot := v.latched, latched := v.snapshot,
               stations := v.stations.map fun e => (e.1, { e.2 with shadow := e.2.latched, latched := e.2.shadow }) } := if_neg h
  rw [hs]
  exact ⟨rfl, rd_put_same _ F.statStatusBusy 0, rfl, rfl⟩

end

/-! ### The tick (R403) -/

theorem exec_phaseTick (bad corr : List Nat) (gates : List (Nat × Nat)) (s : State) :
    exec (.phaseTick bad corr gates) s = .next (if s.up 3 = true then
      recompute (strobe (changeoverTick (phaseTickEff bad corr gates s)))
      else if s.dawn = .unpowered then s else { s with now := s.now + 8 }) :=
  act_up _ (decide_eq_true (Nat.zero_le _))

/-- Settles O45: the ledger by what becomes of its first request; a change of operating point by its phase. -/
theorem ledgerAndCounters : Obligations.LedgerAndCounters := by
  refine ⟨fun s hup => ?power, fun s => ⟨fun hup => ?counters, fun hdown bad corr gates => ?early⟩⟩
  case power =>
    intro u
    refine ⟨fun hstop => ?_, fun hrun hsup => ?admits, fun r => fitsBudget_alone r, fun cl => ?oppoint⟩
    · exact next_pos (exec_ledgerAdmit hup) (Bool.or_eq_true_iff.2 hstop)
    case admits =>
      have hx : exec .ledgerAdmit s = .next (admitAll (ledgerOrder s.ledger) u) :=
        next_neg (exec_ledgerAdmit hup) (by rw [hrun, hsup]; decide)
      refine ⟨⟨_, ledgerOrder_perm _, ledgerOrder_pairwise _, hx⟩, fun r hr => ?_⟩
      have hx : exec .ledgerAdmit s = .next (admitAll [r] u) := by
        rwa [hr, ledgerOrder, List.mergeSort_singleton] at hx
      refine ⟨fun hc hd => ?_, fun hmay hf => ?_, fun hmay hf => ⟨deferRest u, ?_, ?_, ?_⟩⟩
      · exact hx.trans (congrArg _ (admitAll_waits (s := u) [] hc hd))
      · exact hx.trans (congrArg _ (admitAll_fits (s := u) [] hmay hf))
      · exact hx.trans (congrArg _ (admitAll_stops (s := u) [] hmay hf))
      · show s.ledger.map _ = _
        rw [hr]; rfl
      · refine (rd_deferRest u).trans ?_
        show min (rd s _ + (s.ledger.filter _).length) _ = _
        rw [hr]
        cases hcnt : r.counted <;> simp [hcnt]
    case oppoint =>
      intro cfg ph done
      have hv := exec_voltageReached (cl := cl) hup
      have hp := exec_oppointRelockDone (cl := cl) hup
      refine ⟨fun h he => ?_, fun h hne => ?_, fun h => ?_, fun h => ?_, fun h he => ?_, fun h hne => ?_⟩
      · exact next_pos (hv.trans (congrArg _ (voltageEff_volt h))) he
      · exact next_neg (hv.trans (congrArg _ (voltageEff_volt h))) hne
      · exact hv.trans (congrArg _ (voltageEff_lowerVolt h))
      · exact hp.trans (congrArg _ (relockEff_relock h))
      · exact next_pos (hp.trans (congrArg _ (relockEff_lower h))) he
      · exact next_neg (hp.trans (congrArg _ (relockEff_lower h))) hne
  case counters =>
    have hsnap : exec .statSnap s = .next (statSnapEff s) := act_up _ hup
    have hswap : exec .snapshotSwap s = .next (snapSwapEff s) := act_up _ hup
    refine ⟨fun hb => hsnap.trans (congrArg _ (statSnapEff_busy hb)), fun hb => hsnap.trans (congrArg _ (statSnapEff_starts hb)),
      fun h0 => hswap.trans (congrArg _ (if_pos h0)), fun h0 => ⟨_, hswap, ?_⟩, fun bad corr gates => ?_⟩
    · obtain ⟨hstep, hbusy, hread, hspare⟩ := snapSwapEff_swaps h0
      exact ⟨hstep, hbusy, hread.trans (apply_ite State.latched _ _ _), hspare⟩
    · exact next_pos (exec_phaseTick bad corr gates s) hup
  case early =>
    have hx := next_neg (exec_phaseTick bad corr gates s) (ne_true_of_eq_false hdown)
    exact ⟨fun h => next_pos hx h, fun h => next_neg hx h⟩

end Sys2Proof.Machine
end

section
/-! PROOF. Converter ports: the clock, strobes and input frames; the capture rings and their read service. -/

namespace Sys2Proof.Machine

open Sys2Proof Sys2Proof.Claims

/-! ### The clock of the converter (R182, R218, R423) -/

section
variable {s : State}

theorem pllLockEff_locks (hc : (rd s F.clkRefstatPresent).testBit 2 = true) (hm : rd s F.cnvPllcfgPllmul ≠ 0) :
    pllLockEff s = setLive 4 0 false (clockBit 6 true (put s F.cnvPllcfgLock 1)) := if_pos (by simp [cmclk, hc, hm])

theorem pllUnlockEff_unlocks (h : rd s F.cnvPllcfgLock = 1) :
    pllUnlockEff s = condition 4 0 0 (clockBit 6 false (put s F.cnvPllcfgLock 0)) := if_pos (beq_iff_eq.2 h)

theorem cmclkLossEff_lost (hc : (rd s F.clkRefstatPresent).testBit 2 = true) :
    cmclkLossEff s = condition 4 1 0 (put s F.clkRefstatPresent (rd s F.clkRefstatPresent - 4)) := if_pos hc

end

/-! ### Strobes and input frames (R189, R190) -/

section
variable {s : State} {n : Nat} (hn : n < 32) (hen : rd s (F.cnvPortcfgEn n) = 1)
include hn hen

theorem port_enabled : (decide (n < 32) && portOn s n) = true := by simp [hn, portOn, rdB, hen]

/-- A strobe is numbered, and stamped at its instant. -/
theorem ostbEff_strobe (te : Nat) (hlock : rd s F.cnvPllcfgLock = 1) : ostbEff n te s =
    let u := applyFrame n (closeOldest n s); let src := rd u (F.cnvPortcfgSrc n)
    let at_ : Int := (te : Int) + signed 16 (rd u (F.cnvPorttimeStampofs n)); let seq := (u.port n).ostbs % 2 ^ 22
    put (u.setPort n { u.port n with
      ostbs := (u.port n).ostbs + 1,
      strobes := (u.port n).strobes ++ [⟨seq, src, (stampAt u src at_).1, (stampAt u src at_).2, at_, none, false⟩] })
      (F.cnvPortstatSeq n) seq :=
  if_pos (by rw [port_enabled hn hen, rdB, hlock]; rfl)

theorem frameMissingEff_closes : frameMissingEff n s = closeOldest n s := if_pos (port_enabled hn hen)

section
variable {l0 l1 : List Nat} {a : Nat} (h0 : inHeader l0 = some a) (h1 : inHeader l1 = some a)
include h0 h1

/-- A frame with the number of no outstanding strobe is ignored. -/
theorem inputFrameEff_unknown (hq : ((closeOldest n s).port n).strobes.find? (fun q => q.seq % 256 == a) = none) :
    inputFrameEff n l0 l1 s = closeOldest n s := by
  simp only [inputFrameEff, port_enabled hn hen, h0, h1, hq, if_true, ne_eq, not_true_eq_false, if_false]

/-- A frame of an outstanding strobe goes by whether one was accepted before and by its checks. -/
theorem inputFrameEff_outstanding {q : Strobe}
    (hq : ((closeOldest n s).port n).strobes.find? (fun q => q.seq % 256 == a) = some q) :
    inputFrameEff n l0 l1 s = let u := closeOldest n s; let p := u.port n; let cpl := rd u (F.cnvPortcfgCpl n)
      let mf := (l0.headD 0).testBit 0 || (l1.headD 0).testBit 0
      let ss := p.strobes.map fun y => if y.seq = q.seq then { q with got := some (laneWords cpl l0 l1, mf) } else y
      if q.got.isSome = true then putSat u (F.cnvPortcntDupl n) 1
      else if (!(laneCrcOk cpl l0 && laneCrcOk cpl l1)) = true then event 4 3 n (putSat u (F.cnvPortcntCrcerr n) 1)
      else settlePort n ss (u.setPort n { p with strobes := ss }) := by
  simp only [inputFrameEff, port_enabled hn hen, h0, h1, hq, if_true, ne_eq, not_true_eq_false, if_false]

end
end

/-! ### The states of a ring (R197 to R199) -/

section
variable {s : State} {r : Nat} (hr : r < 64)
include hr

theorem capArmEff_arms (hlo : 2 ≤ rd s (F.cnvCapstatState r)) (hhi : rd s (F.cnvCapstatState r) ≤ 5) : capArmEff r s =
    let x := s.ring r; let now := s.bs (256 + rd s (F.cnvPortcfgSrc (rd s (F.cnvCapchFirst r) / 32)))
    put (put (put (s.setRing r { x with
        since := if rd s (F.cnvCapcfgMarksel r) = 1 then min (rd s (F.cnvCapprePre r)) x.avail else 0,
        trigPh := rd s (F.cnvCaptphloTrigph r) + rd s (F.cnvCaptphhiTrigph r) * 2 ^ 32, armRev := now.status.testBit 3 })
      (F.cnvCapstatState r) 3) (F.cnvCapstatMarkvalid r) 1) (F.cnvCapstatHistshort r) 0 := by
  refine (if_pos (by simp [hr, ringState, hlo, hhi])).trans ?_
  simp only [rdB_eq_decide, decide_eq_true_eq]
  rfl

theorem capTrigEff_asks : capTrigEff r s = s.setRing r { s.ring r with swTrig := true } := if_pos hr

theorem capStopEff_waits (hlo : 3 ≤ rd s (F.cnvCapstatState r)) (hhi : rd s (F.cnvCapstatState r) ≤ 5) :
    capStopEff r s = put s (F.cnvCapstatState r) 2 := if_pos (by simp [hr, ringState, hlo, hhi])

end

/-! ### Words read by the complex as the bank's owner (R262, R264, R269) -/

section
variable {s : State}

theorem readWord_good {a : Nat} (h : scrBad s a = false) : readWord a .ok s = (false, s) := by simp [readWord, h]

/-- Words of which none is lost are read as they stand, and nothing changes. -/
theorem readWords_good {a n : Nat} (i : Nat) (h : ∀ j < n, scrBad s (a + 8 * j) = false) :
    readWords a i n .ok s = ((List.range n).map (fun j => scrGet s (a + 8 * j)), false, s) := by
  induction n generalizing a i with
  | zero => rfl
  | succ n ih =>
    have hhead : readWord a .ok s = (false, s) := readWord_good (h 0 (Nat.succ_pos n))
    have hstep : ∀ j, a + 8 * (j + 1) = a + 8 + 8 * j := fun j => by omega
    have htail := ih (a := a + 8) (i - 1) fun j hj => hstep j ▸ h (j + 1) (Nat.succ_lt_succ hj)
    simp only [readWords, ite_self, hhead, htail, List.range_succ_eq_map, List.map_cons, List.map_map, Bool.or_self]
    simp only [Function.comp_def, hstep, Nat.mul_zero, Nat.add_zero]

section
variable {init a b : Nat} (hb : a / 2 ^ 20 = b) (n i : Nat) (e : Ecc)
include hb

theorem complexRead_notOwner (h : ownerAccepts (rd s (F.sbOwnerOwner b)) init false = false) :
    complexRead init a n i e s = (none, event 8 2 b s) := by
  subst hb
  simp only [complexRead, h, Bool.not_false, if_true]

theorem complexRead_fenced (h : ownerAccepts (rd s (F.sbOwnerOwner b)) init false = true)
    (hf : rdB s (F.sbOwnerFence b) = true) : complexRead init a n i e s = (none, s) := by
  subst hb
  simp only [complexRead, h, hf, Bool.not_true, Bool.false_eq_true, if_false, if_true]

theorem complexRead_good (h : ownerAccepts (rd s (F.sbOwnerOwner b)) init false = true)
    (hf : rdB s (F.sbOwnerFence b) = false) (hgood : ∀ j < n, scrBad s (a + 8 * j) = false) :
    complexRead init a n i .ok s = (some ((List.range n).map (fun j => scrGet s (a + 8 * j)), false), s) := by
  subst hb
  simp only [complexRead, h, hf, readWords_good i hgood, Bool.not_true, Bool.false_eq_true, if_false]

end

/-! ### The records of a ring (R196) -/

/-- Where record `k` of a ring lies, counted over its wraps. -/
def recordAt (s : State) (r k : Nat) : Nat := capAddr s r (k % rd s (F.cnvCapsizeSize r))

/-- How many words a record holds. -/
def recordLen (s : State) (r : Nat) : Nat := capLen (ringNch s r) / 8

/-- The words of record `k` as they stand. -/
def recordWords (s : State) (r k : Nat) : List Nat := (List.range (recordLen s r)).map fun j => scrGet s (recordAt s r k + 8 * j)

section
variable {r first i n : Nat} {e : Ecc} {u : State}

theorem ringRecords_succ_refused
    (h : complexRead 0x59 (recordAt s r first) (recordLen s r) i (if i < recordLen s r then e else .ok) s = (none, u)) :
    ringRecords r first i e (n + 1) s = (none, u) := by
  unfold recordAt recordLen at h
  simp only [ringRecords, h]

theorem ringRecords_succ_read {ws vs : List Nat} {bad bad' : Bool} {v : State}
    (h : complexRead 0x59 (recordAt s r first) (recordLen s r) i (if i < recordLen s r then e else .ok) s
      = (some (ws, bad), u))
    (ht : ringRecords r (first + 1) (i - recordLen s r) (if i < recordLen s r then .ok else e) n u = (some (vs, bad'), v)) :
    ringRecords r first i e (n + 1) s = (some (ws ++ vs, bad || bad'), v) := by
  unfold recordAt recordLen at h
  unfold recordLen at ht
  simp only [ringRecords, h, ht]

end

/-- The bank's refusal of the first record refuses them all. -/
theorem ringRecords_refused {r first n : Nat} (i : Nat) (e : Ecc) {u : State} (hn : n ≠ 0)
    (h : ∀ e, complexRead 0x59 (recordAt s r first) (recordLen s r) i e s = (none, u)) :
    ringRecords r first i e n s = (none, u) := by
  obtain ⟨m, rfl⟩ := Nat.exists_eq_succ_of_ne_zero hn
  exact ringRecords_succ_refused (h _)

/-- Records in the bank of which no word is lost are read in turn. -/
theorem ringRecords_good {r b first n : Nat} (i : Nat) (hown : ownerAccepts (rd s (F.sbOwnerOwner b)) 0x59 false = true)
    (hf : rdB s (F.sbOwnerFence b) = false) (hbank : ∀ k < n, recordAt s r (first + k) / 2 ^ 20 = b)
    (hgood : ∀ k < n, ∀ j < recordLen s r, scrBad s (recordAt s r (first + k) + 8 * j) = false) :
    ringRecords r first i .ok n s = (some ((List.range n).flatMap (fun k => recordWords s r (first + k)), false), s) := by
  induction n generalizing first i with
  | zero => rfl
  | succ n ih =>
    have hstep : ∀ k, first + (k + 1) = first + 1 + k := fun k => by omega
    have hhead : complexRead 0x59 (recordAt s r first) (recordLen s r) i .ok s = (some (recordWords s r first, false), s) :=
      complexRead_good (hbank 0 (Nat.succ_pos n)) _ i hown hf (hgood 0 (Nat.succ_pos n))
    have htail := ih (first := first + 1) (i - recordLen s r)
      (fun k hk => hstep k ▸ hbank (k + 1) (Nat.succ_lt_succ hk))
      (fun k hk => hstep k ▸ hgood (k + 1) (Nat.succ_lt_succ hk))
    have hwords : (List.range (n + 1)).flatMap (fun k => recordWords s r (first + k))
        = recordWords s r first ++ (List.range n).flatMap fun k => recordWords s r (first + 1 + k) := by
      simp only [List.range_succ_eq_map, List.flatMap_cons, List.flatMap_map, Nat.succ_eq_add_one, ← hstep, Nat.add_zero]
    rw [hwords]
    exact ringRecords_succ_read (by rw [ite_self]; exact hhead) (by rw [ite_self]; exact htail)

end

/-! ### RINGRD (R196, R224) -/

theorem ringrd_answers {s : State} {d : Deliver} {p : Packet} {x : State} (hup : s.up 3 = true)
    (h : arrives (rest s) d p 0x1B = true) (hx : ringrdServe d p (taken (rest s) d) = some x) :
    exec (.ringrd d) s = .next x := by
  refine (act_up _ hup).trans (congrArg _ ?_)
  rw [ringrdEff, deliverEff_arrives [0x1B] _ h (by decide) (by decide), hx, Option.getD_some]

theorem ring_present {t : State} {r : Nat} (hr : r < 64) (hen : rd t (F.cnvCapcfgEn r) = 1)
    (hsize : rd t (F.cnvCapsizeSize r) ≠ 0) :
    ¬ (64 ≤ r ∨ (!rdB t (F.cnvCapcfgEn r)) = true ∨ rd t (F.cnvCapsizeSize r) = 0) := by
  simp [rdB, hr, hen, hsize]

section
variable {d : Deliver} {p : Packet} {t : State} {r first n : Nat} (hp : ringrdFields p = (r, first, n))
  (hpend : ((t.stn 12).pend.any (·.asker == .ring r)) = false)
include hp hpend

theorem ringrdServe_noRing (h : 64 ≤ r ∨ rd t (F.cnvCapcfgEn r) ≠ 1 ∨ rd t (F.cnvCapsizeSize r) = 0) :
    ringrdServe d p t = some (reply p 0x21 stNOTARGET [] t) := by
  have hno : 64 ≤ r ∨ (!rdB t (F.cnvCapcfgEn r)) = true ∨ rd t (F.cnvCapsizeSize r) = 0 := by simpa [rdB] using h
  simp only [ringrdServe, hp, hpend, Bool.false_eq_true, if_false, if_pos hno]

section
variable (hr : r < 64) (hen : rd t (F.cnvCapcfgEn r) = 1) (hsize : rd t (F.cnvCapsizeSize r) ≠ 0) {u : State}
include hr hen hsize

theorem ringrdServe_refused (h : ringRecords r first d.word d.mem n t = (none, u)) :
    ringrdServe d p t = some (reply p 0x21 stREFUSED [] u) := by
  simp only [ringrdServe, hp, hpend, Bool.false_eq_true, if_false, if_neg (ring_present hr hen hsize), h]

theorem ringrdServe_lost {ws : List Nat} (h : ringRecords r first d.word d.mem n t = (some (ws, true), u)) :
    ringrdServe d p t = some (reply p 0x21 stUNCORR [] u) := by
  simp only [ringrdServe, hp, hpend, Bool.false_eq_true, if_false, if_neg (ring_present hr hen hsize), h, if_true]

theorem ringrdServe_records {ws : List Nat} (h : ringRecords r first d.word d.mem n t = (some (ws, false), u)) :
    ringrdServe d p t = some (ringAnswer p (rd t (F.cnvCaptotalTotal r)) (pairUnits ws) u) := by
  simp only [ringrdServe, hp, hpend, Bool.false_eq_true, if_false, if_neg (ring_present hr hen hsize), h]

end
end

/-- Settles O25: each row by its condition; a ring read by what the bank answers for its records. -/
theorem converterPorts : Obligations.ConverterPorts := by
  refine ⟨fun s hup => ?clock, fun s n hup hn hen => ?ports, fun s hup => ⟨fun r hr => ?rings, fun d p harr => ?reads⟩⟩
  case clock =>
    intro here
    refine ⟨fun hc hm => ?_, fun hl => ?_, fun hc => ?_, act_up _ hup⟩
    · exact (act_up _ hup).trans (congrArg _ (pllLockEff_locks hc hm))
    · exact (act_up _ hup).trans (congrArg _ (pllUnlockEff_unlocks hl))
    · exact (act_up _ hup).trans (congrArg _ (cmclkLossEff_lost hc))
  case ports =>
    refine ⟨fun te hlock => ?_, ?_, fun l0 l1 a h0 h1 => ?frame⟩
    · exact (act_up _ hup).trans (congrArg _ (ostbEff_strobe hn hen te hlock))
    · exact (act_up _ hup).trans (congrArg _ (frameMissingEff_closes hn hen))
    case frame =>
      have hx : exec (.inputFrame n l0 l1) s = .next (inputFrameEff n l0 l1 s) := act_up _ hup
      intro u p cpl good
      refine ⟨fun hq => hx.trans (congrArg _ (inputFrameEff_unknown hn hen h0 h1 hq)), fun q hq => ?_⟩
      have hx := hx.trans (congrArg _ (inputFrameEff_outstanding hn hen h0 h1 hq))
      have hgood : (!(laneCrcOk cpl l0 && laneCrcOk cpl l1)) = true ↔ ¬ good := by
        rw [Bool.not_eq_true', ← Bool.not_eq_true, Bool.and_eq_true]
      refine ⟨fun hdup => next_pos hx (Option.isSome_iff_ne_none.2 hdup), fun hnew hbad => ?_, fun hnew hok => ?_⟩
      · exact next_pos (next_neg hx (by simp [hnew])) (hgood.2 hbad)
      · exact next_neg (next_neg hx (by simp [hnew])) fun h => hgood.1 h hok
  case rings =>
    refine ⟨fun hlo hhi => ?_, ?_, fun hlo hhi => ?_⟩
    · exact (act_up _ hup).trans (congrArg _ (capArmEff_arms hr hlo hhi))
    · exact (act_up _ hup).trans (congrArg _ (capTrigEff_asks hr))
    · exact (act_up _ hup).trans (congrArg _ (capStopEff_waits hr hlo hhi))
  case reads =>
    intro t r first n size bank len at_ hpend
    refine ⟨fun hno => ringrd_answers hup harr (ringrdServe_noRing rfl hpend hno), fun hr hen hsize => ?_⟩
    refine ⟨fun hn hown hbank => ?notOwner, fun hbank hown =>
      ⟨fun hn hf => ?fenced, fun hf => ⟨fun hmem hgood => ?good, fun ws u h => ?lost⟩⟩⟩
    case notOwner =>
      exact ringrd_answers hup harr (ringrdServe_refused rfl hpend hr hen hsize
        (ringRecords_refused _ _ hn fun e => complexRead_notOwner hbank _ _ e hown))
    case fenced =>
      exact ringrd_answers hup harr (ringrdServe_refused rfl hpend hr hen hsize
        (ringRecords_refused _ _ hn fun e => complexRead_fenced (hbank 0 (Nat.pos_of_ne_zero hn)) _ _ e hown hf))
    case good =>
      refine ringrd_answers hup harr (ringrdServe_records rfl hpend hr hen hsize ?_)
      rw [hmem]
      exact ringRecords_good _ hown hf hbank hgood
    case lost =>
      exact ringrd_answers hup harr (ringrdServe_lost rfl hpend hr hen hsize h)

end Sys2Proof.Machine
end

section
/-! PROOF. Drive outputs: values for a channel's queue, the close of a frame, the abort causes and the enable groups. -/

namespace Sys2Proof.Machine

open Sys2Proof Sys2Proof.Claims

/-! ### Drive values (R201, R203) -/

/-- The code of a value changes no channel. -/
theorem drvCode_chan (ty n : Nat) (s : State) (c : Nat) : (drvCode ty n s).2.2.chan c = s.chan c := by
  unfold drvCode
  split
  · rfl
  · split <;> rfl

theorem drvval_answers {s : State} {d : Deliver} {p : Packet} {x : State} (hup : s.up 3 = true)
    (h : arrives (rest s) d p 0x03 = true) (hx : drvvalAt d.data p (taken (rest s) d) = some x) :
    exec (.drvval d) s = .next x := by
  refine (act_up _ hup).trans (congrArg _ ?_)
  rw [drvvalEff, deliverEff_arrives [0x03] _ h (by decide) (by decide), hx, Option.getD_some]

/-- A drive value goes by its binding, the room in its queue and the state of its channel. -/
theorem drvvalAt_eq (data : Ecc) (p : Packet) (t : State) : drvvalAt data p t =
    let ctx := bits p.f 8 14; let c := bits p.f 0 8; let e := (t.ctx ctx).d
    let idx := (c + 256 - e.drvfirst % 256) % 256; let st := rd t (F.drvChstatState c)
    let ty := if data = .uncorrectable then tyPoison else bits p.f 64 4; let v := drvCode ty (p.units.headD 0) t
    some (if idx < e.drvcount ∧ rd t (F.drvChcfgEn c) = 1 then
        if rd t (F.drvChcfgQunits c) * 128 ≤ (t.chan c).q.length then cnvFault ctx 0x46 0 c t
        else if st = 2 ∨ st = 3 then putSat t (F.drvChstatDiscards c) 1
        else
          let u := setChQ c ((t.chan c).q ++ [v.1]) v.2.2
          if v.2.1 = true then cnvFault ctx 0x45 ty c u else u
      else cnvFault ctx 0x44 0 idx t) := by
  have hunbound (i n : Nat) (f : Fld) : (n ≤ i ∨ (!rdB t f) = true) ↔ ¬ (i < n ∧ rd t f = 1) := by
    simp only [rdB, Bool.not_eq_true', beq_eq_false_iff_ne]; omega
  simp only [drvvalAt, hunbound, ite_not, drvCode_chan]
  rfl

/-! ### The close of a frame (R187, R206) -/

theorem frameCloseEff_open {s : State} {n : Nat} (te : Nat) (hn : n < 32) (hen : rd s (F.cnvPortcfgEn n) = 1)
    (hlock : rd s F.cnvPllcfgLock = 1) : frameCloseEff n te s =
    let dues := (List.range 16).map fun sc => schedDue s sc n te
    let u := (chansClose dues ((List.range 8).map (8 * n + ·)) (countUpdates n te dues s)).1
    let words := (chansClose dues ((List.range 8).map (8 * n + ·)) (countUpdates n te dues s)).2
    let quiet := rdB u F.genQuiesceDone; let ws := if quiet then words.map fun _ => 0 else words
    let any (v : Nat) : Bool := (List.range 8).any fun i => rd u (F.drvChstatState (8 * n + i)) == v
    let lane := outLane (rd s (F.cnvPortcfgFlen n)) (u.port n).ostbs (bit (any 1) + 2 * bit (any 2) + 4 * bit quiet)
    let opl := rd s (F.cnvPortcfgOpl n)
    emitOut (.frame n (lane (ws.take opl)) (lane ((ws.drop 4).take opl))) u := by
  have hopen : (decide (n < 32) && portOn s n && rdB s F.cnvPllcfgLock) = true := by
    rw [port_enabled hn hen, rdB, hlock]; rfl
  simp only [frameCloseEff, if_pos hopen]
  generalize chansClose _ _ _ = r
  rfl

/-! ### Causes of an abort and their ends (R207, R215, R416) -/

section
variable {s : State}

theorem heartbeatEff_eq :
    heartbeatEff s = if rd s F.drvSafecfgHben = 1 then { s with heartbeatAt := some s.now } else s := by
  simp only [heartbeatEff, rdB_eq_decide, decide_eq_true_eq]

/-- A heartbeat not written within HBTO milliseconds aborts. -/
theorem heartbeatExpireEff_late {t : Nat} (h : s.heartbeatAt = some t)
    (hlate : t + 1600000 * rd s F.drvSafecfgHbto ≤ s.now) :
    heartbeatExpireEff s = event 5 1 0 (abortBy 3 (fun _ => true) { s with heartbeatAt := none }) := by
  have hms : t + msEtu (rd s F.drvSafecfgHbto) ≤ s.now := by rw [msEtu, Nat.mul_comm]; exact hlate
  simp only [heartbeatExpireEff, h, if_pos hms]

theorem supplyLostEff_aborts (h : s.activeCauses.contains 4 = false) : supplyLostEff s =
    condition 1 1 0 (abortBy 4 (fun _ => true) { s with activeCauses := s.activeCauses ++ [4] }) :=
  if_neg (ne_true_of_eq_false h)

/-- RECOVER acts on an ABORTED channel with nothing active in its scope. -/
theorem recoverEff_eq {c : Nat} (hc : c < 256) : recoverEff c s =
    if rd s (F.drvChstatState c) = 3 ∧ scopeClear s c = true then put s (F.drvChstatState c) 0 else s :=
  ite_congr (by simp [hc, chState]) (fun _ => rfl) fun _ => rfl

end

/-! ### Cause bits cleared by a write of one (R211) -/

/-- Subtracting the common bits of two numbers takes them out. -/
theorem testBit_sub_and (x y b : Nat) : (x - (x &&& y)).testBit b = (x.testBit b && !y.testBit b) := by
  induction b generalizing x y with
  | zero =>
    have hle : x &&& y ≤ x := Nat.and_le_left
    have hone : (x &&& y) % 2 = 1 ↔ x % 2 = 1 ∧ y % 2 = 1 := Nat.and_mod_two_eq_one
    rw [Bool.eq_iff_iff]
    simp only [Nat.testBit_zero, Bool.and_eq_true, Bool.not_eq_true', decide_eq_true_eq, decide_eq_false_iff_not]
    omega
  | succ b ih =>
    have hle : x &&& y ≤ x := Nat.and_le_left
    have hone : (x &&& y) % 2 = 1 ↔ x % 2 = 1 ∧ y % 2 = 1 := Nat.and_mod_two_eq_one
    have hhalf : (x - (x &&& y)) / 2 = x / 2 - (x / 2 &&& y / 2) := by
      rw [← Nat.and_div_two]; omega
    simp only [Nat.testBit_add_one, hhalf, ih]

/-- The bits of a range that a test selects, as a mask. -/
theorem testBit_foldl_or (p : Nat → Bool) (n b : Nat) :
    ((List.range n).foldl (fun m b => if p b then m ||| 2 ^ b else m) 0).testBit b = (decide (b < n) && p b) := by
  induction n with
  | zero => simp
  | succ n ih =>
    rw [List.range_succ, List.foldl_append, List.foldl_cons, List.foldl_nil]
    by_cases hb : n = b
    · subst hb; cases hp : p n <;> simp [ih, hp]
    · have : b < n + 1 ↔ b < n := by omega
      cases hp : p n <;> simp [ih, this, Nat.testBit_two_pow_of_ne hb]

/-- A field of as many bits as the range keeps the bits that the test leaves. -/
theorem testBit_cleared (x : Nat) {w : Nat} (p : Nat → Bool) {b : Nat} (hb : b < w) :
    ((x - (x &&& (List.range w).foldl (fun m b => if p b then m ||| 2 ^ b else m) 0)) % 2 ^ w).testBit b
      = (x.testBit b && !p b) := by
  rw [Nat.testBit_mod_two_pow, testBit_sub_and, testBit_foldl_or]
  simp [hb]

theorem causeClearEff_cause (v : Nat) (s : State) : rd (causeClearEff v s) F.drvAbortstatCause =
    (rd s F.drvAbortstatCause - (rd s F.drvAbortstatCause &&&
      (List.range 7).foldl (fun m b => if v.testBit b && !causeActive s b then m ||| 2 ^ b else m) 0)) % 2 ^ 7 := by
  rw [causeClearEff, rd_put_other _ F.drvAbortstatStall F.drvAbortstatCause _ (by decide), rd_put_same]
  rfl

theorem causeClearEff_stall (v : Nat) (s : State) : rd (causeClearEff v s) F.drvAbortstatStall =
    (rd s F.drvAbortstatStall - (rd s F.drvAbortstatStall &&&
      (List.range 16).foldl (fun m b => if v.testBit (16 + b) && !stallActive s b then m ||| 2 ^ b else m) 0)) % 2 ^ 16 :=
  rd_put_same _ F.drvAbortstatStall _

/-! ### Enable groups (R207, R210) -/

/-- ON leaves a group out exactly when CFGERR is set. -/
theorem drvOnEff_eq (m : Nat) (s : State) : drvOnEff m s =
    let ok := (maskGroups m).filter (onGranted s)
    let on := { put s F.drvEnableAsserted (rd s F.drvEnableAsserted ||| ok.foldl (fun a g => a + 2 ^ g) 0) with
      offPending := s.offPending.filter fun g => !ok.contains g }
    if (maskGroups m).all (onGranted s) = true then on else cfgErr 5 on :=
  ite_congr (by rw [List.filter_eq_self, List.all_eq_true]) (fun _ => rfl) fun _ => rfl

/-- Settles O26: a value and a group by their conditions; a cleared cause field bit by bit. -/
theorem driveOutputs : Obligations.DriveOutputs := by
  refine ⟨fun s hup => ⟨fun d p harr => ?values, fun n te hn hen hlock => ?close⟩, fun s hup => ?causes,
    fun s m hup => ?groups⟩
  case values =>
    intro t ctx c e idx st ty v bound
    have hx := drvval_answers hup harr (drvvalAt_eq d.data p t)
    refine ⟨fun hno => next_neg hx hno, fun hb => ?_⟩
    have hx := next_pos hx hb
    refine ⟨fun hfull => next_pos hx hfull, fun hroom => ?_⟩
    have hx := next_neg hx (Nat.not_le.2 hroom)
    exact ⟨fun hst => next_pos hx hst, fun h2 h3 => next_neg hx (not_or.2 ⟨h2, h3⟩)⟩
  case close => exact (act_up _ hup).trans (congrArg _ (frameCloseEff_open te hn hen hlock))
  case causes =>
    have hpin : exec .abortInPin s = .next (abortPinEff s) := act_up _ hup
    have hbeat : exec .heartbeatWrite s = .next (heartbeatEff s) := act_up _ hup
    rw [heartbeatEff_eq] at hbeat
    refine ⟨fun h => next_neg hpin (ne_true_of_eq_false h), fun h => next_pos hpin h, act_up _ hup, next_pos hbeat,
      next_neg hbeat, fun t ht hlate => ?_, fun h => ?_, act_up _ hup, fun v _ _ => ?clear, fun c hc => ?recover⟩
    · exact (act_up _ hup).trans (congrArg _ (heartbeatExpireEff_late ht hlate))
    · exact (act_up _ hup).trans (congrArg _ (supplyLostEff_aborts h))
    case clear =>
      refine ⟨_, act_up _ hup, fun b hb => ?_, fun u hu => ?_⟩
      · rw [causeClearEff_cause, testBit_cleared _ _ hb]
      · rw [causeClearEff_stall, testBit_cleared _ _ hu]
    case recover =>
      have hx : exec (.drvRecover c) s = .next (recoverEff c s) := act_up _ hup
      rw [recoverEff_eq hc] at hx
      exact ⟨fun h3 hclear => next_pos hx ⟨h3, hclear⟩, fun h => next_neg hx fun ⟨h3, hclear⟩ =>
        h.elim (· h3) fun hf => ne_true_of_eq_false hf hclear⟩
  case groups =>
    have hon : exec (.drvOn m) s = .next (drvOnEff m s) := act_up _ hup
    rw [drvOnEff_eq] at hon
    have hoff : exec (.drvOff m) s = .next (drvOffEff m s) := act_up _ hup
    exact ⟨fun h => next_pos hon h, fun h => next_neg hon (ne_true_of_eq_false h), fun h => next_pos hoff h,
      fun h => next_neg hoff h⟩

end Sys2Proof.Machine
end

section
/-! PROOF. Changeovers of routes; training, loss, units and codewords of a span link. -/

namespace Sys2Proof.Machine

open Sys2Proof Sys2Proof.Claims

/-- A row of a block that is up does what its effect answers. -/
theorem act_eq_next {s t : State} {n : Nat} {f : State → State} (hup : s.up n = true) (h : f s = t) :
    act n s f = .next t := (act_up f hup).trans (congrArg _ h)

/-! ### Changeovers of routes (R234, R235) -/

/-- A fold whose steps all keep its start ends there. -/
theorem foldl_fixed_of_mem {α β : Type} {f : β → α → β} {b : β} {l : List α} (h : ∀ a ∈ l, f b a = b) :
    l.foldl f b = b := by
  induction l with
  | nil => rfl
  | cons a l ih =>
    rw [List.foldl_cons, h a List.mem_cons_self]
    exact ih fun c hc => h c (List.mem_cons_of_mem a hc)

section
variable {s : State}

theorem draining_iff : draining s = true ↔ rd s F.rngEpochState = 1 ∨ rd s F.rngEpochState = 2 := by
  simp only [draining, Bool.or_eq_true, beq_iff_eq]

theorem changeoverTick_stop (h : rd s F.rngEpochState = 1) :
    changeoverTick s = { put s F.rngEpochState 2 with epochAt := some s.now } := if_pos h

theorem changeoverTick_flip (h : rd s F.rngEpochState = 3) : changeoverTick s = put s F.rngEpochState 0 :=
  (if_neg (by omega)).trans (if_pos h)

/-- No packet of the old epoch is resident at a station. -/
theorem drainMask_empty (h : ∀ p ∈ s.net, p.onRing = true → p.at_ < 26 → p.epoch ≠ rd s F.rngEpochCur) :
    drainMask s = 0 := by
  have hnone : ∀ a ∈ List.range 26, (s.net.any fun p => p.onRing && p.at_ == a && p.epoch == rd s F.rngEpochCur) = false := by
    intro a ha
    refine List.any_eq_false.2 fun p hp => ?_
    simp only [Bool.and_eq_true, beq_iff_eq]
    rintro ⟨⟨hring, rfl⟩, hold⟩
    exact h p hp hring (List.mem_range.1 ha) hold
  refine ite_eq_right_iff.2 fun _ => ?_
  refine foldl_fixed_of_mem fun a ha => ?_
  rw [hnone a ha]
  exact if_neg Bool.false_ne_true

theorem epochDrainedEff_flips (hd : draining s = true) (hnone : drainMask s = 0) : epochDrainedEff s =
    reinject { put (put (put s F.rngEpochCur (1 - rd s F.rngEpochCur)) F.rngBypassByp (rd s F.rngBypnextByp))
      F.rngEpochState 3 with epochAt := none } := if_pos (by rw [hd, hnone]; rfl)

theorem epochtoEff_drain {t : Nat} (h : rd s F.rngEpochState = 2) (ht : s.epochAt = some t) :
    epochtoEff s = if t + 1600000 ≤ s.now then event 6 4 0 { s with epochAt := none } else s := by
  simp [epochtoEff, ht, h, msEtu]

end

/-- Settles O20: each row by the state of the changeover. -/
theorem routeChangeovers : Obligations.RouteChangeovers := by
  intro s hup
  have hstart : exec .epochStart s = .next (if epochAgrees s = true then put s F.rngEpochState 1 else cfgErr 6 s) := act_up _ hup
  have hlong (t : Nat) (h : rd s F.rngEpochState = 2) (ht : s.epochAt = some t) := act_eq_next hup (epochtoEff_drain h ht)
  refine ⟨fun h => next_pos hstart h, fun h => next_neg hstart (ne_true_of_eq_false h), changeoverTick_stop, changeoverTick_flip,
    fun hst hnone => ?_, fun h t ht hlate => next_pos (hlong t h ht) hlate,
    fun h t ht hsoon => next_neg (hlong t h ht) (Nat.not_le.2 hsoon)⟩
  exact act_eq_next hup (epochDrainedEff_flips (draining_iff.2 hst) (drainMask_empty hnone))

/-! ### Training of a span link (R246, R248) -/

theorem identF_put_portState (s : State) (p v n : Nat) : identF (put s (F.spnPortstatState p) v) n = identF s n := by
  have hb0 : blkBase 0 = 0 := rfl
  have hb13 : blkBase 13 = 0xF0000 := rfl
  have hk : (F.spnPortstatState p).key ≠ F.genDevnumDev.key := by
    simp only [Fld.key, fkey, F.spnPortstatState, F.genDevnumDev, hb0, hb13]; omega
  unfold identF devnum
  rw [rd_put_other _ _ _ _ hk]
  rfl

section
variable {s : State} {p : Nat} (hp : p < 4)
include hp

theorem spanEnableEff_on (hoff : rd s (F.spnPortcfgEn p) = 0) (hl : s.locked.contains 0 = true) :
    spanEnableEff p 1 s = put (put s (F.spnPortcfgEn p) 1) (F.spnPortstatState p) 1 := by
  simp only [spanEnableEff, if_neg (Nat.not_le.2 hp), hoff]
  exact if_pos hl

theorem spanEnableEff_off (hon : rd s (F.spnPortcfgEn p) = 1) :
    spanEnableEff p 0 s = spanDown p (put s (F.spnPortcfgEn p) 0) := by
  simp only [spanEnableEff, if_neg (Nat.not_le.2 hp), hon]
  rfl

theorem pmdEff_trained (h : rd s (F.spnPortstatState p) = 1) : pmdEff p s = put s (F.spnPortstatState p) 2 :=
  if_pos (by simp [spanState, hp, h])

theorem alignedEff_idents (h : rd s (F.spnPortstatState p) = 2) :
    alignedEff p s = spanSend p (linkUnit 0x74 (identF s p)) (put s (F.spnPortstatState p) 3) := by
  refine (if_pos (by simp [spanState, hp, h])).trans ?_
  unfold sendIdent setSpanState
  rw [identF_put_portState]

theorem identTimerEff_sends (h : rd s (F.spnPortstatState p) = 3 ∨ rd s (F.spnPortstatState p) = 5) :
    identTimerEff p s = spanSend p (linkUnit 0x74 (identF s p)) s := if_pos (by simp [spanState, hp, h])

theorem probeTimerEff_sends (h : rd s (F.spnPortstatState p) = 5) :
    probeTimerEff p s = spanSend p (linkUnit 0x72 (s.now % 2 ^ 64)) s := if_pos (by simp [spanState, hp, h])

section
variable {f : Nat} (hst : rd s (F.spnPortstatState p) = 3)
include hst

theorem ident_open : ¬ (4 ≤ p ∨ spanState s p ≠ 3) := by simp [spanState, hp, hst]

/-- An IDENT of the device itself is a conflict. -/
theorem identEff_conflict (hf : bits f 0 12 = devnum s) :
    identEff p f s = event 13 1 p (setLive 13 1 true (put s (F.spnPortstatState p) 6)) :=
  (if_neg (ident_open hp hst)).trans (if_pos hf)

/-- A first peer is taken, and probed. -/
theorem identEff_peer (hf : bits f 0 12 ≠ devnum s) (hold : (s.span p).oldPeer = none) : identEff p f s =
    sendProbe p (put (put (put s (F.spnPortstatPeerdev p) (bits f 0 12)) (F.spnPortstatPeerport p) (bits f 12 2))
      (F.spnPortstatState p) 4) := by
  refine (if_neg (ident_open hp hst)).trans ((if_neg hf).trans ?_)
  rw [hold]
  rfl

end

end

/-! ### Loss of a span link (R251) -/

/-- A port out of its state: down, or training when it is enabled, without samples and credit. -/
def portDown (p : Nat) (s : State) : State :=
  put (s.updSpan p fun x => { x with samples := [], granted := false, credits := [0, 0, 0, 0] }) (F.spnPortstatState p)
    (if rd s (F.spnPortcfgEn p) = 1 then 1 else 0)

theorem spanDown_eq (s : State) (p : Nat) : spanDown p s = if rd s (F.spnPortstatState p) = 5 then
      event 13 0 p (linkLive ((portDown p s).updSpan p fun x =>
        { x with oldPeer := some (rd s (F.spnPortstatPeerdev p), rd s (F.spnPortstatPeerport p), s.now) }))
    else portDown p s := by
  simp only [spanDown, portDown, rdB_eq_decide, decide_eq_true_eq]
  rfl

section
variable {s : State} {p : Nat} (hp : p < 4)
include hp

theorem spanLostEff_down (hlo : 1 ≤ rd s (F.spnPortstatState p)) (hhi : rd s (F.spnPortstatState p) ≤ 5) :
    spanLostEff p s = spanDown p s := by
  have h6 : rd s (F.spnPortstatState p) ≠ 6 := by omega
  exact if_pos (by simp [spanState, hp, hlo, h6])

/-- A retrain that takes 100 ms loses what is unacknowledged. -/
theorem retrainTimeoutEff_late {d q t : Nat} (h5 : rd s (F.spnPortstatState p) ≠ 5)
    (hold : (s.span p).oldPeer = some (d, q, t)) (hlate : t + 160000000 ≤ s.now) :
    retrainTimeoutEff p s = event 13 2 p (putSat (linkLive (s.setSpan p { s.span p with
      replay := [], txPart := [], rxPart := [], txSeq := 0, rxSeq := 0, nakOwed := false, oldPeer := none }))
      (F.spnPorterrLost p) (s.span p).replay.length) := by
  rw [retrainTimeoutEff, hold]
  exact if_pos (by simp [spanState, msEtu, hp, h5, hlate])

end

/-- Settles O21: each row by the state of its port. -/
theorem spanLinks : Obligations.SpanLinks := by
  refine ⟨fun s p hup hp => ?training, fun s p hup hp => ?loss⟩
  case training =>
    exact ⟨fun hoff hl => act_eq_next hup (spanEnableEff_on hp hoff hl), fun hon => act_eq_next hup (spanEnableEff_off hp hon),
      fun h => act_eq_next hup (pmdEff_trained hp h), fun h => act_eq_next hup (alignedEff_idents hp h),
      fun h f hf => act_eq_next hup (identEff_conflict hp h hf),
      fun h f hf hold => act_eq_next hup (identEff_peer hp h hf hold),
      fun h => act_eq_next hup (identTimerEff_sends hp h), fun h => act_eq_next hup (probeTimerEff_sends hp h), act_up id hup⟩
  case loss =>
    intro st next low peer
    refine ⟨fun row hrow => ?_, fun h5 d q t hold hlate => act_eq_next hup (retrainTimeoutEff_late hp h5 hold hlate)⟩
    have hx : exec row s = .next (spanLostEff p s) := by rcases hrow with rfl | rfl <;> exact act_up _ hup
    have hdown (hlo : 1 ≤ st) (hhi : st ≤ 5) := hx.trans (congrArg _ ((spanLostEff_down hp hlo hhi).trans (spanDown_eq s p)))
    exact ⟨fun hlo hhi => next_neg (hdown hlo (Nat.le_of_lt hhi)) (Nat.ne_of_lt hhi),
      fun h5 => next_pos (hdown (by omega) (Nat.le_of_eq h5)) h5⟩

/-! ### Units of a span link (R246, R249) -/

section
variable {s : State} {p : Nat} (hp : p < 4)
include hp

/-- A port that is TRAINED has nothing left to train. -/
theorem creditEff_trained (f : Nat) (h : rd s (F.spnPortstatState p) = 5) :
    creditEff p f s = drainRemotes (spanFlush p (s.updSpan p fun x => { x with
      credits := (List.range 4).map (fun i => x.credits.getD i 0 + bits f (16 * i) 16), granted := true })) := by
  refine (if_neg (by simp [spanState, hp, h])).trans (congrArg (fun u => drainRemotes (spanFlush p u)) ?_)
  refine if_neg fun htrain => ?_
  simp only [Bool.and_eq_true, beq_iff_eq] at htrain
  obtain ⟨⟨hprobe, -⟩, -⟩ := htrain
  exact absurd (h.symm.trans hprobe) (by decide)

theorem probeEff_echoes (f hold : Nat) (h : 3 ≤ rd s (F.spnPortstatState p)) :
    probeEff p f hold s = spanSend p (linkUnit 0x73 (f % 2 ^ 64 + hold % 2 ^ 16 * 2 ^ 64)) s :=
  if_pos (by simp [spanState, hp, h])

theorem echoEff_trained (f : Nat) (h : rd s (F.spnPortstatState p) = 5) : echoEff p f s =
    let all := (s.span p).samples ++ [s.now - f % 2 ^ 64 - bits f 64 16]
    let last := all.drop (all.length - 16)
    put (s.setSpan p { s.span p with samples := last }) (F.spnPortlatPs p) (last.sum * 625 / (2 * last.length)) :=
  (if_neg (by simp [spanState, hp, h])).trans (if_pos h)

end

/-! ### Codewords of a span link (R244, R245, R247) -/

/-- What the acknowledgement, and the NAK, of a good codeword do. -/
def acknowledged (p : Nat) (c : Codeword) (s : State) : State :=
  let acked := ackTo p c.ack (if c.corrected then putSat s (F.spnPorterrCorr p) 1 else s)
  if c.nak then nakEff p acked else acked

/-- What a good codeword does once its acknowledgement is taken: by NULL and by its place in the sequence. -/
def sequenced (p : Nat) (c : Codeword) (u : State) : State :=
  let x := u.span p
  if c.isNull = true then u
  else if c.seq = x.rxSeq then let v := codewordUnits p c u; sendNull p (v.span p).nakOwed v
  else if seqBack x.rxSeq c.seq ≤ 32 then u
  else sendNull p true (u.setSpan p { x with nakOwed := true })

section
variable {s : State} {p : Nat} {c : Codeword} (hp : p < 4) (hst : 3 ≤ rd s (F.spnPortstatState p))
include hp hst

theorem codeword_open : ¬ (4 ≤ p ∨ spanState s p < 3) := by simp [spanState, hp, hst]

/-- What cannot be corrected, or carries a reserved FHO, is answered with a NAK. -/
theorem codewordEff_bad (hbad : c.good = false ∨ (40 ≤ c.fho ∧ c.fho ≤ 62)) :
    codewordEff p c s = sendNull p true (s.updSpan p fun x => { x with nakOwed := true }) :=
  (if_neg (codeword_open hp hst)).trans (if_pos (by simpa using hbad))

theorem codewordEff_good (hgood : ¬ (c.good = false ∨ (40 ≤ c.fho ∧ c.fho ≤ 62))) :
    codewordEff p c s = drainRemotes (spanFlush p (sequenced p c (acknowledged p c s))) :=
  (if_neg (codeword_open hp hst)).trans (if_neg (by simpa using hgood))

end

section
variable {u : State} {p : Nat} {c : Codeword}

theorem sequenced_null (hn : c.isNull = true) : sequenced p c u = u := if_pos hn

variable (hn : c.isNull = false)
include hn

theorem sequenced_next (hseq : c.seq = (u.span p).rxSeq) :
    sequenced p c u = let v := codewordUnits p c u; sendNull p (v.span p).nakOwed v :=
  (if_neg (ne_true_of_eq_false hn)).trans (if_pos hseq)

variable (hseq : c.seq ≠ (u.span p).rxSeq)
include hseq

theorem sequenced_duplicate (hback : seqBack (u.span p).rxSeq c.seq ≤ 32) : sequenced p c u = u :=
  (if_neg (ne_true_of_eq_false hn)).trans ((if_neg hseq).trans (if_pos hback))

theorem sequenced_gap (hback : 32 < seqBack (u.span p).rxSeq c.seq) :
    sequenced p c u = sendNull p true (u.setSpan p { u.span p with nakOwed := true }) :=
  (if_neg (ne_true_of_eq_false hn)).trans ((if_neg hseq).trans (if_neg (Nat.not_le.2 hback)))

end

/-- Settles O22: a unit by the state of its port, a codeword by its checks, NULL and its place in the sequence. -/
theorem spanUnits : Obligations.SpanUnits := by
  refine ⟨fun s p hup hp => ?units, fun s p c hup hp hst => ?codewords⟩
  case units =>
    exact ⟨fun h f => act_eq_next hup (creditEff_trained hp f h), fun h f hold => act_eq_next hup (probeEff_echoes hp f hold h),
      fun h f => act_eq_next hup (echoEff_trained hp f h)⟩
  case codewords =>
    intro bad null
    refine ⟨fun hbad => act_eq_next hup (codewordEff_bad hp hst hbad), fun hgood => ?_⟩
    intro s1 acked u x
    have hx {v : State} (h : sequenced p c u = v) : exec (.codeword p c) s = .next (drainRemotes (spanFlush p v)) :=
      act_eq_next hup ((codewordEff_good hp hst hgood).trans (congrArg (fun v => drainRemotes (spanFlush p v)) h))
    exact ⟨fun hn => hx (sequenced_null hn), fun hn hseq => hx (sequenced_next hn hseq),
      fun hn hseq hdup => hx (sequenced_duplicate hn hseq hdup), fun hn hseq hgap => hx (sequenced_gap hn hseq hgap)⟩

end Sys2Proof.Machine
end

section
/-! PROOF. Power states of domains: selection, closing, waking, reopening and depth limits. -/

namespace Sys2Proof.Machine

open Sys2Proof Sys2Proof.Claims

/-! ### Selection (R409) -/

/-- RUN, or one of the four states within the depth limit, of DOZE under a coasting source, whose conditions hold. -/
theorem selectState_cases (s : State) (d : Nat) : selectState s d = 0
    ∨ selectState s d ≤ 4 ∧ selectState s d ≤ (if govLimited s d = true then min (depthOf s d) 1 else depthOf s d)
      ∧ entryOk s d (selectState s d) = true := by
  unfold selectState
  split
  · exact .inl rfl
  · dsimp only
    cases hfind : List.find? _ _ with
    | none => exact .inl rfl
    | some c =>
      have hfits := List.find?_some hfind
      have hmem := List.mem_filter.1 (List.mem_of_find?_eq_some hfind)
      obtain ⟨hc, hlim⟩ := hmem
      refine .inr ⟨?_, of_decide_eq_true hlim, (Bool.and_eq_true_iff.1 hfits).2⟩
      show c ≤ 4
      simp only [List.mem_cons, List.not_mem_nil, or_false] at hc
      omega

theorem selectState_bounds (s : State) (d : Nat) : selectState s d ≤ depthOf s d ∧ selectState s d ≤ 4
    ∧ (govLimited s d = true → selectState s d ≤ 1) ∧ (selectState s d ≠ 0 → entryOk s d (selectState s d) = true) := by
  rcases selectState_cases s d with h0 | ⟨h4, hlim, hentry⟩
  · simp [h0]
  · refine ⟨?_, h4, fun hgov => ?_, fun _ => hentry⟩
    · split at hlim <;> omega
    · rw [if_pos hgov] at hlim; omega

/-! ### The idle window (R405 to R407) -/

section
variable {s : State} {d : Nat}

theorem idleWindowEff_busy (h : 24 ≤ d ∨ rd s (F.pwrDomstatState d) ≠ 0 ∨ domPhase s d ≠ .steady) : idleWindowEff d s = s :=
  if_pos (by simpa [domState, or_assoc] using h)

section
variable (hd : d < 24) (hrun : rd s (F.pwrDomstatState d) = 0) (hst : domPhase s d = .steady)
include hd hrun hst

theorem idle_open : ¬ (24 ≤ d || domState s d != 0 || domPhase s d != .steady) = true := by
  simp [domState, hd, hrun, hst]

/-- The lanes of the host link go off without a fence. -/
theorem idleWindowEff_lanes (h23 : d = 23) :
    idleWindowEff d s = if auxOff s d = true then put s (F.pwrDomstatState d) 4 else s := by
  refine (if_neg (idle_open hd hrun hst)).trans ((if_pos h23).trans ?_)
  subst h23
  rfl

theorem idleWindowEff_aux (h20 : 20 ≤ d) (h23 : d ≠ 23) : idleWindowEff d s =
    if auxOff s d = true then setDomPhase d (.fenced 4) (put s (F.rngParkFence (stationOfDom d)) 1) else s :=
  (if_neg (idle_open hd hrun hst)).trans ((if_neg h23).trans (if_pos h20))

end

/-- What an idle domain does with the state selected: DOZE and NAP at once, the others by the fence of its station. -/
def enterSelected (d code : Nat) (v : State) : State :=
  if code = 0 then v
  else if code ≤ 2 then enterState d code v
  else if code = 3 ∨ 16 ≤ d ∨ rd v (F.pwrDepthMnpol d) = 1 then
    setDomPhase d (.fenced code) (put v (F.rngParkFence (stationOfDom d)) 1)
  else setDomPhase d (.fenced (if (spillAll d v).2 then 4 else 3)) (spillAll d v).1

theorem idleWindowEff_selects (hd : d < 20) (hrun : rd s (F.pwrDomstatState d) = 0) (hst : domPhase s d = .steady) :
    idleWindowEff d s = let u := noteEvent d s; let code := selectState u d
      enterSelected d code (put u (F.pwrDomstatNext d) code) := by
  refine (if_neg (idle_open (by omega) hrun hst)).trans ((if_neg (by omega)).trans ((if_neg (by omega)).trans ?_))
  simp only [enterSelected, rdB_eq_decide, decide_eq_true_eq]
  rfl

section
variable {v : State} {code : Nat}

theorem enterSelected_light (h : code = 1 ∨ code = 2) : enterSelected d code v = enterState d code v :=
  (if_neg (by omega)).trans (if_pos (by omega))

theorem enterSelected_fenced (h : code = 3 ∨ (code = 4 ∧ 16 ≤ d) ∨ (code = 4 ∧ rd v (F.pwrDepthMnpol d) = 1)) :
    enterSelected d code v = setDomPhase d (.fenced code) (put v (F.rngParkFence (stationOfDom d)) 1) :=
  (if_neg (by omega)).trans ((if_neg (by omega)).trans (if_pos (h.imp_right fun h => h.imp And.right And.right)))

theorem enterSelected_spills (h : code = 4) (hd : d < 16) (hpol : rd v (F.pwrDepthMnpol d) ≠ 1) :
    enterSelected d code v = setDomPhase d (.fenced (if (spillAll d v).2 then 4 else 3)) (spillAll d v).1 :=
  (if_neg (by omega)).trans ((if_neg (by omega)).trans (if_neg (by omega)))

end

/-! ### Closing (R239) -/

theorem closeBeginEff_fenced {t : Nat} (h : domPhase s d = .fenced t) : closeBeginEff d s =
    if openReqs s d ≠ 0 then s
    else if stillIdle s d t = true then setDomPhase d (.closing t)
      (put (put s (F.rngParkFence (stationOfDom d)) 1) (F.rngParkClosed (stationOfDom d)) 1)
    else reinject (setDomPhase d .steady (put s (F.rngParkFence (stationOfDom d)) 0)) := by
  rw [closeBeginEff, h]
  rfl

/-- What a domain that has reached a state loses there. -/
def lostIn (d t : Nat) (u : State) : State :=
  if t = 4 ∧ d < 16 then loseCluster d (if rd u (F.pwrDepthMnpol d) = 1 then discardAll d u else u)
  else if t = 4 ∧ d < 20 then put (forAll (groupBanks (d - 16)) (fun b w => clearBank (physBank w b) w) u) F.sbInitDone
    ((groupBanks (d - 16)).foldl (fun m b => m - (m &&& 2 ^ b)) (rd u F.sbInitDone))
  else u

theorem closeDoneEff_closing {t : Nat} (h : domPhase s d = .closing t) : closeDoneEff d s =
    let v := lostIn d t (setDomPhase d .steady (enterState d t s))
    if parkedAt v (stationOfDom d) = true then wakeNow d v else v := by
  rw [closeDoneEff, h]
  simp only [lostIn, rdB_eq_decide, decide_eq_true_eq]
  rfl

section
variable {u : State} {t : Nat}

theorem lostIn_light (h : t ≠ 4) : lostIn d t u = u := (if_neg fun ⟨h4, _⟩ => h h4).trans (if_neg fun ⟨h4, _⟩ => h h4)

theorem lostIn_cluster (hd : d < 16) :
    lostIn d 4 u = loseCluster d (if rd u (F.pwrDepthMnpol d) = 1 then discardAll d u else u) := if_pos ⟨rfl, hd⟩

theorem lostIn_banks (hlo : 16 ≤ d) (hhi : d < 20) :
    lostIn d 4 u = put (forAll (groupBanks (d - 16)) (fun b w => clearBank (physBank w b) w) u) F.sbInitDone
      ((groupBanks (d - 16)).foldl (fun m b => m - (m &&& 2 ^ b)) (rd u F.sbInitDone)) :=
  (if_neg (by omega)).trans (if_pos ⟨rfl, hhi⟩)

theorem lostIn_aux (hd : 20 ≤ d) : lostIn d t u = u := (if_neg (by omega)).trans (if_neg (by omega))

end

/-! ### Waking and reopening (R239, R405 to R408) -/

theorem wakeDoneEff_asleep (h : domPhase s d ≠ .waking) : wakeDoneEff d s = s := if_pos (bne_iff_ne.2 h)

theorem filterReloadEff_idle (h : domPhase s d ≠ .refilling) : filterReloadEff d s = s := if_pos (by simp [h])

theorem filterReloadEff_refills (hd : d < 16) (h : domPhase s d = .refilling) : filterReloadEff d s =
    setDomPhase d .steady (forAll (List.range 16) (fun l u => u.updPe (peKey u (d * 16 + l)) fun p =>
      { p with filter := reloaded u d l }) s) := if_neg (by simp [h, hd])

section
variable (h : domPhase s d = .waking)
include h

/-- A cluster reaches RUN: without caches after DUSK, and with its filters to reload after MIDNIGHT. -/
theorem wakeDoneEff_cluster (hd : d < 16) : wakeDoneEff d s =
    let u := enterState d 0 (setDomPhase d .steady s)
    let v := oppointDone d (if 3 ≤ rd s (F.pwrDomstatState d) then
      forAll (List.range 17) (fun i => (State.updPe · (d * 17 + i) fun p => { p with lwc := [] })) u else u)
    if rd s (F.pwrDomstatState d) = 4 then setDomPhase d .refilling v else v :=
  (if_neg (by simp [h])).trans (if_pos hd)

theorem wakeDoneEff_banks (hlo : 16 ≤ d) (hhi : d < 20) (hwas : rd s (F.pwrDomstatState d) = 4) : wakeDoneEff d s =
    let u := enterState d 0 (setDomPhase d .steady s)
    put u F.sbInitDone (rd u F.sbInitDone ||| (groupBanks (d - 16)).foldl (fun m b => m + 2 ^ b) 0) :=
  (if_neg (by simp [h])).trans ((if_neg (by omega)).trans (if_pos ⟨hhi, hwas⟩))

theorem wakeDoneEff_other (hlo : 16 ≤ d) (hwas : d < 20 → rd s (F.pwrDomstatState d) ≠ 4) :
    wakeDoneEff d s = enterState d 0 (setDomPhase d .steady s) :=
  (if_neg (by simp [h])).trans ((if_neg (by omega)).trans (if_neg fun ⟨hhi, h4⟩ => hwas hhi h4))

end

/-- Tokens, requests and management packets that were parked enter in this order, before what waits. -/
theorem reopenEff_delivers (hd : d < 23) (hrun : rd s (F.pwrDomstatState d) = 0)
    (hcl : rd s (F.rngParkClosed (stationOfDom d)) = 1) (hst : domPhase s d = .steady ∨ domPhase s d = .refilling) :
    reopenEff d s = let st := stationOfDom d; let x := s.stn st
      let ps := (x.parkTok ++ x.parkReq ++ x.parkMgt).map fun p => { p with epoch := unparked }
      let u := s.setStn st { x with parkTok := [], parkReq := [], parkMgt := [] }
      reinject (put (put { u with net := ps ++ s.net } (F.rngParkClosed st) 0) (F.rngParkFence st) 0) :=
  if_neg (by rcases hst with hst | hst <;> simp [domState, rdB, hrun, hcl, hd, hst])

/-! ### Depth limits and wakes (R409, R410) -/

theorem depthWriteEff_eq (hd : d < 20) (val : Nat) : depthWriteEff d val s =
    let w := writePlain s 1 (0x100 + 4 * d) val; let u := if w.2 = true then cfgErr 1 w.1 else w.1
    if depthOf u d < sleepState u d then wakeNow d u else u := if_neg (Nat.not_le.2 hd)

theorem wakeRequestEff_asleep (hd : d < 20) (h : sleepState s d ≠ 0) :
    wakeRequestEff d s = (wakeDue s d).elim s fun e => requestWake d e s := by
  refine (if_neg (by simp [hd, h])).trans ?_
  cases wakeDue s d <;> rfl

end

/-- Settles O44: each row by the domain's state and its phase of transition. -/
theorem domainPower : Obligations.DomainPower := by
  refine ⟨fun s d hup => ⟨fun hbusy => act_eq_next hup (idleWindowEff_busy hbusy), fun hd hrun hst => ?idle⟩,
    fun s d hup => ?transitions⟩
  case idle =>
    refine ⟨fun h23 => ?_, fun h20 h23 => ?_, fun h20 => ?select⟩
    · have hx := act_eq_next hup (idleWindowEff_lanes hd hrun hst h23)
      exact ⟨fun hoff => next_pos hx hoff, fun hon => next_neg hx (ne_true_of_eq_false hon)⟩
    · have hx := act_eq_next hup (idleWindowEff_aux hd hrun hst h20 h23)
      exact ⟨fun hoff => next_pos hx hoff, fun hon => next_neg hx (ne_true_of_eq_false hon)⟩
    case select =>
      intro u code v fenced
      have hx {w : State} (h : enterSelected d code v = w) : exec (.idleWindow d) s = .next w :=
        act_eq_next hup ((idleWindowEff_selects h20 hrun hst).trans h)
      exact ⟨selectState_bounds u d, fun h0 => hx (if_pos h0), fun h => hx (enterSelected_light h),
        fun h => hx (enterSelected_fenced h), fun h4 hcl hpol => hx (enterSelected_spills h4 hcl hpol)⟩
  case transitions =>
    intro st
    have hup3 : s.up 3 = true := up_of_le (by decide) hup
    have hdone {t : Nat} (h : domPhase s d = .closing t) {v : State} (hv : lostIn d t (setDomPhase d .steady (enterState d t s)) = v) :
        exec (.domainCloseDone d) s = .next (if parkedAt v st = true then wakeNow d v else v) :=
      hv ▸ act_eq_next hup (closeDoneEff_closing h)
    have hwake (h : domPhase s d = .waking) (hd : d < 16) := act_eq_next hup3 (wakeDoneEff_cluster h hd)
    refine ⟨fun t h => ?begin, fun t h h4 => ?light, fun h hd => hdone h (lostIn_cluster hd),
      fun h hlo hhi => hdone h (lostIn_banks hlo hhi), fun hd h => hdone h (lostIn_aux hd),
      fun h => act_eq_next hup3 (wakeDoneEff_asleep h), fun h => ?wakes,
      fun hd => ⟨fun h => act_eq_next hup (filterReloadEff_idle h), fun h => act_eq_next hup (filterReloadEff_refills hd h)⟩,
      fun hd hrun hcl hst => act_eq_next hup (reopenEff_delivers hd hrun hcl hst), fun hd init val => ?depth, fun hd hs => ?due⟩
    case begin =>
      have hx := act_eq_next hup (closeBeginEff_fenced h)
      refine ⟨fun hopen => next_pos hx hopen, fun hnone => ?_⟩
      have hx := next_neg hx (not_not_intro hnone)
      exact ⟨fun hi => next_pos hx hi, fun hb => next_neg hx (ne_true_of_eq_false hb)⟩
    case light =>
      intro u
      have hx := hdone h (lostIn_light h4)
      exact ⟨fun hp => next_pos hx hp, fun hp => next_neg hx (ne_true_of_eq_false hp)⟩
    case wakes =>
      intro was u
      refine ⟨fun hlo hwas => act_eq_next hup3 (wakeDoneEff_other h hlo hwas),
        fun hlo hhi hwas => act_eq_next hup3 (wakeDoneEff_banks h hlo hhi hwas), fun hd hwas => ?_, fun hd hwas => ?_⟩
      · refine (hwake h hd).trans (congrArg _ ?_)
        simp only [if_neg (show ¬ 3 ≤ rd s (F.pwrDomstatState d) by omega), if_neg (show rd s (F.pwrDomstatState d) ≠ 4 by omega)]
        rfl
      · have hx := hwake h hd
        simp only [if_pos (show 3 ≤ rd s (F.pwrDomstatState d) from hwas)] at hx
        exact ⟨fun h4 => next_neg hx h4, fun h4 => next_pos hx h4⟩
    case depth =>
      intro w u
      have hx := act_eq_next hup3 (depthWriteEff_eq hd val)
      exact ⟨fun hlt => next_pos hx hlt, fun hle => next_neg hx (Nat.not_lt.2 hle)⟩
    case due =>
      have hx := act_eq_next hup3 (wakeRequestEff_asleep hd hs)
      exact ⟨fun hnone => next_none hx hnone, fun e he => next_some (f := fun e => requestWake d e s) hx he⟩

end Sys2Proof.Machine
end

section
/-! PROOF. The checks that begin every session command, the doorbells of a session's page, and its completion ring. -/

namespace Sys2Proof.Machine

open Sys2Proof Sys2Proof.Claims

/-! ### Rows of session commands (R320, R326, R329) -/

/-- A property of each row carries over to any that it implies. -/
theorem eachSessionRow_imp {P Q : (Run → Instr) → Nat → Nat → Bool → List Nat → Prop} (h : EachSessionRow P)
    (himp : ∀ row opc cls buf m, P row opc cls buf m → Q row opc cls buf m) : EachSessionRow Q :=
  fun x hx => himp _ _ _ _ _ (h x hx)

/-- A log command runs as a command of the PF's sessions (R371). -/
theorem runs_of_logCmd {s : State} {r : Run} {o : Host.Outcome State Fault Refusal} {opc : Nat} {buf : Bool} {m : List Nat}
    {ok : State → Bool} {g : Cmd → State → State} (h : o = act 6 s (logCmd r opc buf m ok g)) :
    ∃ f, o = act 6 s (runCmd r opc 2 buf m f) := ⟨_, h⟩

/-- Each row runs the next command of its session, with the row's opcode, column and used bits. -/
theorem eachSessionRow_runs : EachSessionRow fun row opc cls buf m =>
    ∀ r s, ∃ f, exec (row r) s = act 6 s (runCmd r opc cls buf m f) := by
  unfold EachSessionRow
  iterate 20 refine List.forall_mem_cons.2 ⟨fun _ _ => ⟨_, rfl⟩, ?_⟩
  iterate 9 refine List.forall_mem_cons.2 ⟨fun _ _ => runs_of_logCmd rfl, ?_⟩
  iterate 7 refine List.forall_mem_cons.2 ⟨fun _ _ => ⟨_, rfl⟩, ?_⟩
  exact List.forall_mem_nil _

section
variable {s : State} {r : Run} {opc cls : Nat} {buf : Bool} {m : List Nat} (f : Cmd → State → State)

theorem runCmd_inactive (h : (s.sess r.sess).st ≠ .active) : runCmd r opc cls buf m f s = s := if_pos (bne_iff_ne.2 h)

theorem runCmd_noNext (h : nextCmd (s.sess r.sess) = none) : runCmd r opc cls buf m f s = s := by
  simp only [runCmd, h, ite_self]

theorem runCmd_otherOpc {e : Cmd} (h : nextCmd (s.sess r.sess) = some e) (hopc : e.e.opc ≠ opc) :
    runCmd r opc cls buf m f s = s := by
  simp only [runCmd, h, if_pos (bne_iff_ne.2 hopc), ite_self]

end

/-- Settles O30: every row runs the next command of its session, and so has its checks. -/
theorem sessionCommandChecks : Obligations.SessionCommandChecks := by
  intro s r c hup
  refine eachSessionRow_imp eachSessionRow_runs fun row opc cls buf m hrow => ?_
  obtain ⟨f, hrow⟩ := hrow r s
  have hx {t : State} (h : runCmd r opc cls buf m f s = t) : exec (row r) s = .next t := hrow.trans (act_eq_next hup h)
  refine ⟨fun ht hout => hx ?_, fun o ht hin hbad => hx ?_, fun hst => hx (runCmd_inactive f hst),
    fun e he hopc => hx (runCmd_otherOpc f he hopc), fun hnone => hx (runCmd_noNext f hnone)⟩
  · exact (runCmd_turn f ht).trans (if_pos hout)
  · rw [runCmd_turn f ht, if_neg (ne_true_of_eq_false hin), hbad]

/-! ### Doorbells (R318, R319, R321) -/

section
variable {s : State} {n : Nat} (val size : Nat) (f : State → State)

theorem doorbell_inactive (h : (s.sess n).st ≠ .active) : doorbell n val size f s = putSat s F.hifDbdropCount 1 :=
  if_pos (bne_iff_ne.2 h)

theorem doorbell_active (h : (s.sess n).st = .active) :
    doorbell n val size f s = if size ≤ val % 2 ^ 16 then sessError n s else f s := if_neg (by simp [h])

end

/-- A value is at or above the size of an event ring, which is 0 where there is none. -/
theorem evSize_le_iff (x : Sess) (v : Nat) : evSize x ≤ v ↔ x.evLog = 0 ∨ 2 ^ x.evLog ≤ v := by
  by_cases h : x.evLog = 0 <;> simp [evSize, h]

/-! ### Fetching of submission entries (R319, R321) -/

section
variable {s : State} {n k : Nat} {es : List SqEntry} (bad : Bool) (hk : min es.length (fetchLimit (s.sess n)) = k)
include hk

theorem sqFetchEff_idle
    (h : (s.sess n).st ≠ .active ∨ (s.sess n).held ≠ [] ∨ cqRoom (s.sess n) = false ∨ k = 0) :
    sqFetchEff n es bad s = s :=
  if_pos (by simpa only [hk, Bool.or_eq_true, bne_iff_ne, beq_iff_eq, Bool.not_eq_true', or_assoc] using h)

/-- An ACTIVE session with room reads its entries, and takes them as commands unless the read fails. -/
theorem sqFetchEff_reads (hst : (s.sess n).st = .active) (hheld : (s.sess n).held = [])
    (hroom : cqRoom (s.sess n) = true) (h0 : k ≠ 0) : sqFetchEff n es bad s =
    let x := s.sess n; let head := (x.sqHead + k) % 2 ^ x.sqLog
    let u := emitOut (.hostRead x.fn (x.sqBase + 64 * x.sqHead) (64 * k)) s
    if bad then ringError n u
    else passReserved n { u.setSess n { x with sqHead := head, cmds := x.cmds ++ cmdsOf n s.nextCmd head (es.take k) } with
      nextCmd := s.nextCmd + k } := by
  subst hk
  exact if_neg (by simp [hst, hheld, hroom, h0])

end

/-! ### Coalescing (R322) -/

theorem coalEff_eq (n : Nat) (ev : Bool) (s : State) : coalEff n ev s =
    let x := s.sess n
    if (if ev then x.evUns else x.cqUns) = 0 ∨ x.mute = true
        ∨ s.now - (if ev then x.evSince else x.cqSince) < 1600 * x.coalUs then s
    else emitOut (.msix x.fn (if ev then x.evVec else x.vec))
      (s.setSess n (if ev then { x with evUns := 0 } else { x with cqUns := 0 })) := by
  rw [coalEff, usEtu, Nat.mul_comm]

/-! ### Entries of the completion ring (R321, R322, R327) -/

@[simp] theorem emitOut_out (o : Output) (s : State) : (emitOut o s).out = s.out ++ [o] := rfl
@[simp] theorem emitOut_sess (o : Output) (s : State) (n : Nat) : (emitOut o s).sess n = s.sess n := rfl

theorem leBytes_two (v : Nat) : leBytes 2 v = [v % 256, v / 256 % 256] := by simp [leBytes, bits, List.range_succ]

theorem complBytes_eq (c : Compl) (w t : Nat) : complBytes c w t =
    [c.cid % 256, c.cid / 256 % 256, c.sqhead % 256, c.sqhead / 256 % 256, c.status % 256, c.detail % 256, w % 2, 0]
      ++ leBytes 8 c.r0 ++ leBytes 8 c.r1 ++ leBytes 8 t := by
  simp only [complBytes, leBytes_two, List.cons_append, List.nil_append]

/-- What a session signals for one completion more: its vector, once the coalescing count is reached. -/
def complSignal (x : Sess) : List Output := if x.coalN ≤ x.cqUns + 1 then [.msix x.fn x.vec] else []

theorem complSignal_eq_nil_or (x : Sess) : complSignal x = [] ∨ complSignal x = [.msix x.fn x.vec] := by
  unfold complSignal
  split
  · exact .inr rfl
  · exact .inl rfl

theorem complSignal_eq_nil_iff (x : Sess) : complSignal x = [] ↔ x.cqUns + 1 < x.coalN := by simp [complSignal]

/-- The session once one completion more has been counted, at a time. -/
def counted (now : Nat) (x : Sess) : Sess :=
  { x with cqUns := if x.coalN ≤ x.cqUns + 1 then 0 else x.cqUns + 1,
           cqSince := if x.cqUns + 1 = 1 then now else x.cqSince }

theorem posted_eq (n : Nat) (s : State) : posted n false s =
    let x := s.sess n; let u := s.setSess n (counted s.now x)
    if x.coalN ≤ x.cqUns + 1 then emitOut (.msix x.fn x.vec) u else u := by
  simp only [posted, counted, Bool.false_eq_true, if_false, decide_eq_true_eq]

theorem posted_out (n : Nat) (s : State) : (posted n false s).out = s.out ++ complSignal (s.sess n) := by
  by_cases h : (s.sess n).coalN ≤ (s.sess n).cqUns + 1 <;> simp [posted_eq, complSignal, h]

theorem posted_sess (n : Nat) (s : State) : (posted n false s).sess n = counted s.now (s.sess n) := by
  by_cases h : (s.sess n).coalN ≤ (s.sess n).cqUns + 1 <;> simp [posted_eq, h]

section
variable {s : State} {n : Nat} {c : Compl}

/-- An ACTIVE session that holds nothing posts or holds the one completion. -/
theorem complete_drains (hst : (s.sess n).st = .active) (hmute : (s.sess n).mute = false) (hheld : (s.sess n).held = []) :
    complete_ n c s = drainHeld n [c] s := by
  simp [complete_, hst, hmute, hheld]

theorem drainHeld_full (cs : List Compl) (h : cqRoom (s.sess n) = false) :
    drainHeld n (c :: cs) s = s.updSess n fun x => { x with held := c :: cs } := if_neg (ne_true_of_eq_false h)

theorem drainHeld_room (cs : List Compl) (h : cqRoom (s.sess n) = true) :
    drainHeld n (c :: cs) s = drainHeld n cs (postOne n c s) := if_pos h

end

theorem cqRoom_iff (x : Sess) : cqRoom x = true ↔ (x.cqTail + 1) % 2 ^ x.cqLog ≠ x.cqHead := bne_iff_ne

/-- The completion ring is full where its tail is one entry behind its head. -/
theorem cqRoom_eq_false_iff (x : Sess) : cqRoom x = false ↔ (x.cqTail + 1) % 2 ^ x.cqLog = x.cqHead :=
  bne_eq_false_iff_eq

/-- The place in the completion ring after an entry, and the pass that it lies in. -/
def afterEntry (x : Sess) : Sess :=
  { x with cqTail := if x.cqTail + 1 = 2 ^ x.cqLog then 0 else x.cqTail + 1,
           cqPass := if x.cqTail + 1 = 2 ^ x.cqLog then x.cqPass + 1 else x.cqPass }

theorem postOne_eq (n : Nat) (c : Compl) (s : State) : postOne n c s = posted n false
    (emitOut (.completion n (s.sess n).cqTail (complBytes c ((s.sess n).cqPass % 2) (tick s)))
      (s.setSess n (afterEntry (s.sess n)))) := by
  simp only [postOne, afterEntry, beq_iff_eq]

theorem postOne_out (n : Nat) (c : Compl) (s : State) : (postOne n c s).out =
    s.out ++ .completion n (s.sess n).cqTail (complBytes c ((s.sess n).cqPass % 2) (tick s)) :: complSignal (s.sess n) := by
  simp [postOne_eq, posted_out, complSignal, afterEntry]

theorem postOne_sess (n : Nat) (c : Compl) (s : State) :
    (postOne n c s).sess n = counted s.now (afterEntry (s.sess n)) := by
  rw [postOne_eq, posted_sess, emitOut_sess, sess_setSess_same, emitOut_now, State.setSess_now]

/-- Settles O31: each doorbell, the fetch, the coalescing time and the completion by its guards. -/
theorem doorbellsAndCompletions : Obligations.DoorbellsAndCompletions := by
  refine ⟨fun s hup => ⟨fun n val => ?doorbells, fun n es => ?fetch, fun n => ?coalescing⟩,
    fun s r c h => session_row (row := .nop) (f := fun c u => succeed c 0 0 u) rfl h, fun s n c => ?completion⟩
  case doorbells =>
    intro x v
    refine ⟨fun hst => ?_, fun hst => ?_⟩
    · simp only [List.forall_mem_cons, List.not_mem_nil, false_imp_iff, implies_true, and_true]
      have hdrop (size : Nat) (f : State → State) := act_eq_next hup (doorbell_inactive val size f hst)
      exact ⟨hdrop _ _, hdrop _ _, hdrop _ _⟩
    · have hsq : exec (.sqtailWrite n val) s = .next _ := act_eq_next hup (doorbell_active _ _ _ hst)
      have hcq : exec (.cqheadWrite n val) s = .next _ := act_eq_next hup (doorbell_active _ _ _ hst)
      have hev : exec (.evheadWrite n val) s = .next _ := act_eq_next hup (doorbell_active _ _ _ hst)
      have hbad (h : x.evLog = 0 ∨ 2 ^ x.evLog ≤ v) := next_pos hev ((evSize_le_iff x v).2 h)
      refine ⟨fun h => next_pos hsq h, fun h => next_neg hsq (Nat.not_le.2 h), fun h => next_pos hcq h,
        fun h => next_neg hcq (Nat.not_le.2 h), hbad, fun h0 h => next_neg hev ?_⟩
      exact fun hle => ((evSize_le_iff x v).1 hle).elim h0 (Nat.not_le.2 h)
  case fetch =>
    intro x avail k u
    refine ⟨fun h bad => act_eq_next hup (sqFetchEff_idle bad rfl h), fun hst hheld hroom hk => ?_⟩
    have hx (bad : Bool) : exec (.sqEntryFetch n es bad) s = .next _ :=
      act_eq_next hup (sqFetchEff_reads bad (k := k) rfl hst hheld hroom hk)
    exact ⟨next_pos (hx true) rfl, next_neg (hx false) Bool.false_ne_true⟩
  case coalescing =>
    intro x
    have hx (ev : Bool) : exec (.coalTimeout n ev) s = .next _ := act_eq_next hup (coalEff_eq n ev s)
    refine ⟨fun h0 hm ht => next_neg (hx false) ?_, fun h0 hm ht => next_neg (hx true) ?_,
      fun h => next_pos (hx false) h, fun h => next_pos (hx true) h⟩
    · exact not_or.2 ⟨h0, not_or.2 ⟨ne_true_of_eq_false hm, Nat.not_lt.2 ht⟩⟩
    · exact not_or.2 ⟨h0, not_or.2 ⟨ne_true_of_eq_false hm, Nat.not_lt.2 ht⟩⟩
  case completion =>
    intro x hst hmute hheld entry
    rw [complete_drains hst hmute hheld]
    refine ⟨fun hfull => ?_, fun hfree => ?_⟩
    · rw [drainHeld_full [] ((cqRoom_eq_false_iff x).2 hfull)]
      exact ⟨rfl, by simp [State.updSess]⟩
    · rw [drainHeld_room [] ((cqRoom_iff x).2 hfree)]
      have hsess : (drainHeld n [] (postOne n c s)).sess n = { counted s.now (afterEntry x) with held := [] } := by
        rw [drainHeld, State.updSess, sess_setSess_same, postOne_sess]
      refine ⟨⟨complSignal x, ?_, complSignal_eq_nil_or x, complSignal_eq_nil_iff x⟩, by rw [hsess],
        by rw [hsess]; rfl, by rw [hsess]; rfl⟩
      rw [drainHeld, State.updSess_out, postOne_out, complBytes_eq, Nat.mod_mod]

end Sys2Proof.Machine
end
